-- ==== Sys2Proof/Word.lean ====
section
/-! DEFINITION. The word types: a 32-bit device state word or register, a byte, and the fields of a word. -/

namespace Sys2Proof

/-- A 32-bit word: a general register of an Hour core or a device state word. -/
abbrev Word := BitVec 32

/-- A byte of memory. -/
abbrev Byte := BitVec 8

end Sys2Proof
end

