-- ==== Sys2Proof/Syntax.lean ====
section
/-! DEFINITION. The commands of the part: one constructor of `Instr` per row of the table of operations and events,
with the operands that the row's rule gives it, and the structures those operands are built of. -/

namespace Sys2Proof

/-- A carrier of host transactions (chapter 2): the QSPI target or the host channel. -/
inductive Carrier where
  | qspi
  | channel
deriving DecidableEq, Repr

/-- Who sends a host transaction (R28): the QSPI host, a host of the host channel with its source IPv4 address and
source UDP port, or the master sender. -/
inductive Who where
  | qspi
  | channel (ip : BitVec 32) (port : BitVec 16)
  | master
deriving DecidableEq, Repr

/-- A link frame as it lies on the link (Table 7.1): the header payload, the four segment descriptors, the 117 units
of the cell area, the trailer and the number of gap blocks before it. -/
structure LinkFrame where
  header : BitVec 56
  desc : Vector (BitVec 64) 4
  area : Vector (BitVec 64) 117
  trailer : BitVec 64
  gap : Nat
deriving DecidableEq, Repr

/-- An edge on a capture input: its direction, and how many edges of 160 ps it lies into the present tick (R215). -/
structure InputEdge where
  rise : Bool
  sub : Fin 40
deriving DecidableEq, Repr

/-- What a source port receives: a frame's bytes, and the codewords since the last frame that Clause 91 could not
correct (R219). -/
structure Reception where
  bytes : List Byte
  lost : Nat
deriving DecidableEq, Repr

/-- A TIME cell (Table 7.7). -/
structure TimeCell where
  seq : BitVec 16
  epoch : BitVec 32
  sec : BitVec 48
  hops : Byte
  fromB : Bool
  ns : BitVec 32
  frac : BitVec 16
  corr : BitVec 64
deriving DecidableEq, Repr

/-- An LDRSP cell (Table 7.7). -/
structure LdRsp where
  seq : BitVec 16
  t2sec : BitVec 32
  t2ns : BitVec 32
  t3sec : BitVec 32
  t3ns : BitVec 32
  t2frac : BitVec 16
  t3frac : BitVec 16
deriving DecidableEq, Repr

/-- An ANNOUNCE cell (Table 7.7). -/
structure AnnounceCell where
  fromB : Bool
  epoch : BitVec 32
  devid : BitVec 128
deriving DecidableEq, Repr

/-- A TOKEN cell (Table 7.7); each layer word holds VALID in bit 31, HANDLE in [27:16] and GEN in [15:0]. -/
structure TokenCell where
  n : Byte
  epoch : BitVec 32
  sec : BitVec 48
  frac : BitVec 16
  ns : BitVec 32
  commit : BitVec 32
  layers : List (BitVec 32)
deriving DecidableEq, Repr

/-- A RETRACT cell (Table 7.7). -/
structure RetractCell where
  epoch : BitVec 32
  handle : BitVec 12
  gen : BitVec 16
deriving DecidableEq, Repr

/-- A GACK cell (Table 7.7). -/
structure GackCell where
  position : BitVec 7
  epoch : BitVec 32
  handle : BitVec 12
  gen : BitVec 16
  missing : BitVec 32
deriving DecidableEq, Repr

/-- A REPORT cell (Table 7.7). -/
structure ReportCell where
  position : BitVec 7
  towardB : Bool
  reason : Byte
  epoch : BitVec 32
deriving DecidableEq, Repr

/-- A MSG cell (Table 7.7); the body is a whole number of 4-byte words. -/
structure MsgCell where
  kind : Byte
  position : BitVec 7
  all : Bool
  up : Bool
  body : List Byte
deriving DecidableEq, Repr

/-- A READ, WRITE, FILL or PROBE cell (Table 7.7); a field its type does not carry is 0 or empty. -/
structure RequestCell where
  position : BitVec 7
  tag : BitVec 12
  tgen : BitVec 4
  words : BitVec 24
  addr : BitVec 40
  data : List Byte
  pattern : BitVec 32
deriving DecidableEq, Repr

/-- A response cell (Table 7.7); `req` is the low two bits of its TYPE: 0 READ, 1 WRITE, 2 FILL, 3 PROBE. -/
structure ResponseCell where
  req : BitVec 2
  position : BitVec 7
  tag : BitVec 12
  tgen : BitVec 4
  words : BitVec 16
  status : Byte
  data : List Byte
deriving DecidableEq, Repr

/-- The operands of PLACE (Table 11.1): the tile form with ROT, MIRROR, W/8 − 1, H/8 − 1 and the canvas origin, or the
layer form with DX, DY, DW − 1 and DH − 1. -/
inductive PlaceForm where
  | tile (rot : BitVec 2) (mirror : Bool) (wb : Byte) (hb : BitVec 7) (x y : BitVec 16)
  | layer (dx dy : BitVec 32) (dw dh : BitVec 16)
deriving DecidableEq, Repr

/-- The operands of FILL (Table 11.1): the background, 16-bit linear, or a layer's fill colour. -/
inductive FillForm where
  | background (r g b : BitVec 16)
  | layer (r g b : BitVec 10)
deriving DecidableEq, Repr

/-- A card in the SD socket (R494, R495): its sectors, whether it is a standard capacity card, whether it takes 1.8 V
signalling, and its bytes that are not 0. It lies outside the part and survives every reset. -/
structure SdCard where
  sectors : Nat
  sdsc : Bool
  lowVolt : Bool
  data : List Host.Cell
deriving DecidableEq, Repr


/-- One command per row of the table of operations and events, in the table's order. -/
inductive Instr where
  /-- AON_SUPPLY_UP (R447): VDD_AON reaches its range; the always-on domain drives OSC_EN high and begins the OSCDLY start delay. -/
  | aonSupplyUp (oscdly : BitVec 2)
  /-- START_DELAY_EXPIRY (R448): The strapped start delay after OSC_EN rises expires, and the REFCLK start check begins. -/
  | startDelayExpiry
  /-- START_CHECK (R448): The count of ring-oscillator cycles over 65,536 REFCLK cycles completes and selects the REFCLK frequency or fails. -/
  | startCheck (count : BitVec 16)
  /-- START_CHECK_RETRY (R448): The 1 ms wait after a failed start check expires, and the check is repeated. -/
  | startCheckRetry
  /-- ROOT_PLL_LOCK (R449): The root PLL locks at 6.25 GHz; housekeeping moves to the root divider and the core rail soft-start begins. -/
  | rootPllLock
  /-- CORE_SOFT_START_DONE (R428): VDD_CORE settles at 0.85 V after the soft-start, and HC0 leaves reset. -/
  | coreSoftStartDone
  /-- RESET_N_RISE (R474): The rising edge of RESET_N samples ROLE and BOOTSEL and powers only the functions of the role. -/
  | resetNRise (role : Bool) (bootsel : BitVec 2)
  /-- RESET_N_LOW (R539): A low on RESET_N of 2 µs or more resets the part fully, tearing any NVJ write. -/
  | resetNLow
  /-- VDD_AON_LOW (R540): VDD_AON below 0.74 V for 1 µs puts every output in its reset state and holds the part in reset. -/
  | vddAonLow
  /-- CORE_UNDERVOLTAGE_RESET (R429): VDD_CORE below 0.55 V for 1 µs resets every domain except always-on, and Dawn follows. -/
  | coreUndervoltageReset
  /-- CORE_SAG (R429): VDD_CORE more than 50 mV below its set-point for 10 µs sets EVCOREUV. -/
  | coreSag
  /-- REFCLK_LOSS (R452): REFCLK is declared lost; the root PLL coasts and COAST is set, darkening lamps and invalidating time. -/
  | refclkLoss
  /-- REFCLK_RETURN (R454): REFCLK valid for 1 ms; the root PLL relocks, COAST clears and domains return to the root divider. -/
  | refclkReturn
  /-- CLOCK_SWITCH (R455): A domain multiplexer stops the old clock, waits for both acknowledges and starts the domain on the new clock. -/
  | clockSwitch (d : Fin 5)
  /-- CLOCK_SWITCH_FORCED (R455): The old clock fails to acknowledge within 16 cycles; the switch is forced and the domain's blocks are locally reset. -/
  | clockSwitchForced (d : Fin 5)
  /-- GATE_CLOSE (R456): A write of 1 to CLK.GATE.CLOSE bit d requests gating, which takes effect when every block of the domain is idle. -/
  | gateClose (d : Fin 5)
  /-- GATE_CLOSE_TIMEOUT (R456): An access still outstanding after 1,024 cycles abandons the gate request and sets GATE_REFUSED. -/
  | gateCloseTimeout (d : Fin 5)
  /-- GATE_OPEN (R456): A write of 0 to CLK.GATE.CLOSE bit d opens the gate at the next cycle. -/
  | gateOpen (d : Fin 5)
  /-- GATED_ACCESS (R457): An access to a gated block opens the gate and is served; the gate closes again when the block is idle. -/
  | gatedAccess (d : Fin 5)
  /-- LANE_PLL_LOCK (R451): A quad's lane PLL locks after the first lane enable of the quad. -/
  | lanePllLock (q : Fin 9)
  /-- LANE_PLL_LOCK_LOSS (R451): A quad's lane PLL loses lock; QLOCK clears, EVQLOCK is set and the quad's lanes lose block lock. -/
  | lanePllLockLoss (q : Fin 9)
  /-- PUT (R37): A QSPI PUT frame on IO0 delivers one transaction into the request buffer, or is discarded and counted in SEQERR. -/
  | put (bytes : List Byte)
  /-- PUT4 (R36): A QSPI PUT4 frame delivers one transaction on IO[3:0] as PUT does. -/
  | put4 (bytes : List Byte)
  /-- GET (R37): A QSPI GET frame on IO0 returns the oldest response, which ends when QSPI_CS_N rises. -/
  | get (clocked : Nat)
  /-- GET4 (R36): A QSPI GET4 frame returns the oldest response on IO[3:0] as GET does. -/
  | get4 (clocked : Nat)
  /-- POLL (R36): A QSPI POLL frame returns the status byte of response ready, buffer full, ALERT_N and boot push. -/
  | poll
  /-- FLUSH (R36): A QSPI FLUSH frame discards all unread responses. -/
  | flush
  /-- QSPI_UNKNOWN_COMMAND (R37): A QSPI frame whose command byte is not in Table 2.5 is ignored and counted in HST.SEQERR. -/
  | qspiUnknownCommand (byte : Byte)
  /-- TRANSACTION_START (R556): A queued host transaction starts once every earlier transaction of its carrier has completed and its response fits. -/
  | transactionStart (carrier : Carrier)
  /-- HOST_READ (R556): A READ transaction returns 4 to 1,024 bytes from a local address, or is relayed to a tile with WALL = 1. -/
  | hostRead (who : Who) (tag : BitVec 16) (wall : Bool) (len : Nat) (addr : Nat)
  /-- HOST_WRITE (R556): A WRITE transaction stores 4 to 1,024 bytes at a local address, or is relayed to a tile with WALL = 1. -/
  | hostWrite (who : Who) (tag : BitVec 16) (wall : Bool) (addr : Nat) (data : List Byte)
  /-- HOST_FILL (R24): A FILL transaction writes a 4-byte pattern over a range in address order. -/
  | hostFill (who : Who) (tag : BitVec 16) (wall : Bool) (len : Nat) (addr : Nat) (pattern : Word)
  /-- DOORBELL (R26): A DOORBELL stores its value in HST.DBVAL[n] and makes event 464 + n pending; DOORBELL 0 in BOOTWAIT hands the bundle to the boot ROM. -/
  | doorbell (who : Who) (tag : BitVec 16) (number : Nat) (value : Word)
  /-- CLAIM (R33): A LEASE CLAIM is granted at once in BLANK or MANUFACTURE, or starts a challenge with a fresh nonce. -/
  | claim (who : Who) (tag : BitVec 16)
  /-- LEASE_RESPONSE (R33): A LEASE RESPONSE is verified against the fused host key hash and the nonce, granting the lease or answering AUTH_FAIL. -/
  | leaseResponse (who : Who) (tag : BitVec 16) (payload : List Byte)
  /-- RENEW (R31): A LEASE RENEW from the holder restarts the 1,250 ms lease expiry. -/
  | renew (who : Who) (tag : BitVec 16)
  /-- RELEASE (R31): A LEASE RELEASE ends the holder's lease and makes event 477 pending. -/
  | release (who : Who) (tag : BitVec 16)
  /-- STATUS (R22): A STATUS transaction returns HST.STAT, HST.LEASE and HST.DROPCNT without clearing. -/
  | status (who : Who) (tag : BitVec 16)
  /-- LEASE_EXPIRY (R31): 1,250 ms after the last grant or renew, the 1 ms housekeeping tick ends the lease. -/
  | leaseExpiry
  /-- CHALLENGE_TIMEOUT (R33): 100 ms after a challenged CLAIM without success, the nonce is discarded and CHALLENGE clears. -/
  | challengeTimeout
  /-- LOCKOUT_END (R34): The 10 s claim lockout ends and HST.STAT.LOCKOUT clears. -/
  | lockoutEnd
  /-- REVOKE (R31): A write of 1 to HST.LEASECTL.REVOKE ends the lease in sender role. -/
  | revoke
  /-- ALERT_MESSAGE (R42): While ALERT_N is asserted, an alert message is sent to the lease holder at once and every 100 ms. -/
  | alertMessage
  /-- ADD (R55): gd = ga + gb modulo 2^32. -/
  | add (n : Fin 5) (gd : BitVec 5) (ga : BitVec 5) (gb : BitVec 5)
  /-- SUB (R55): gd = ga − gb modulo 2^32. -/
  | sub (n : Fin 5) (gd : BitVec 5) (ga : BitVec 5) (gb : BitVec 5)
  /-- AND (R55): gd = ga and gb. -/
  | and (n : Fin 5) (gd : BitVec 5) (ga : BitVec 5) (gb : BitVec 5)
  /-- OR (R55): gd = ga or gb. -/
  | or (n : Fin 5) (gd : BitVec 5) (ga : BitVec 5) (gb : BitVec 5)
  /-- XOR (R55): gd = ga xor gb. -/
  | xor (n : Fin 5) (gd : BitVec 5) (ga : BitVec 5) (gb : BitVec 5)
  /-- SHL (R55): gd = ga shifted left by gb [4:0]. -/
  | shl (n : Fin 5) (gd : BitVec 5) (ga : BitVec 5) (gb : BitVec 5)
  /-- SHR (R55): gd = ga logically shifted right by gb [4:0]. -/
  | shr (n : Fin 5) (gd : BitVec 5) (ga : BitVec 5) (gb : BitVec 5)
  /-- SRA (R55): gd = ga arithmetically shifted right by gb [4:0]. -/
  | sra (n : Fin 5) (gd : BitVec 5) (ga : BitVec 5) (gb : BitVec 5)
  /-- SLT (R55): gd = 1 if ga < gb signed, else 0. -/
  | slt (n : Fin 5) (gd : BitVec 5) (ga : BitVec 5) (gb : BitVec 5)
  /-- SLTU (R55): gd = 1 if ga < gb unsigned, else 0. -/
  | sltu (n : Fin 5) (gd : BitVec 5) (ga : BitVec 5) (gb : BitVec 5)
  /-- MIN (R55): gd = signed minimum of ga and gb. -/
  | min (n : Fin 5) (gd : BitVec 5) (ga : BitVec 5) (gb : BitVec 5)
  /-- MAX (R55): gd = signed maximum of ga and gb. -/
  | max (n : Fin 5) (gd : BitVec 5) (ga : BitVec 5) (gb : BitVec 5)
  /-- MUL (R55): gd = low 32 bits of ga × gb. -/
  | mul (n : Fin 5) (gd : BitVec 5) (ga : BitVec 5) (gb : BitVec 5)
  /-- MULH (R55): gd = high 32 bits of the signed 64-bit product. -/
  | mulh (n : Fin 5) (gd : BitVec 5) (ga : BitVec 5) (gb : BitVec 5)
  /-- DIV (R56): gd = signed quotient rounded towards zero; a zero divisor causes the DIVIDE trap. -/
  | div (n : Fin 5) (gd : BitVec 5) (ga : BitVec 5) (gb : BitVec 5)
  /-- DIVU (R56): gd = unsigned quotient; a zero divisor causes the DIVIDE trap. -/
  | divu (n : Fin 5) (gd : BitVec 5) (ga : BitVec 5) (gb : BitVec 5)
  /-- REM (R56): gd = signed remainder with the sign of ga; a zero divisor causes the DIVIDE trap. -/
  | rem (n : Fin 5) (gd : BitVec 5) (ga : BitVec 5) (gb : BitVec 5)
  /-- ADDI (R55): gd = ga + sign-extended imm16. -/
  | addi (n : Fin 5) (gd : BitVec 5) (ga : BitVec 5) (imm : BitVec 16)
  /-- ANDI (R55): gd = ga and zero-extended imm16. -/
  | andi (n : Fin 5) (gd : BitVec 5) (ga : BitVec 5) (imm : BitVec 16)
  /-- ORI (R55): gd = ga or zero-extended imm16. -/
  | ori (n : Fin 5) (gd : BitVec 5) (ga : BitVec 5) (imm : BitVec 16)
  /-- XORI (R55): gd = ga xor zero-extended imm16. -/
  | xori (n : Fin 5) (gd : BitVec 5) (ga : BitVec 5) (imm : BitVec 16)
  /-- SHLI (R55): gd = ga shifted left by the immediate amount. -/
  | shli (n : Fin 5) (gd : BitVec 5) (ga : BitVec 5) (amount : BitVec 5)
  /-- SHRI (R55): gd = ga logically shifted right by the immediate amount. -/
  | shri (n : Fin 5) (gd : BitVec 5) (ga : BitVec 5) (amount : BitVec 5)
  /-- SRAI (R55): gd = ga arithmetically shifted right by the immediate amount. -/
  | srai (n : Fin 5) (gd : BitVec 5) (ga : BitVec 5) (amount : BitVec 5)
  /-- SLTI (R55): gd = 1 if ga < sign-extended imm16, else 0. -/
  | slti (n : Fin 5) (gd : BitVec 5) (ga : BitVec 5) (imm : BitVec 16)
  /-- LUI (R55): gd = imm16 × 65,536. -/
  | lui (n : Fin 5) (gd : BitVec 5) (imm : BitVec 16)
  /-- LB (R57): Loads a sign-extended byte from the pair base plus offset. -/
  | lb (n : Fin 5) (gd : BitVec 5) (ga : BitVec 5) (offset : BitVec 13)
  /-- LBU (R57): Loads a zero-extended byte. -/
  | lbu (n : Fin 5) (gd : BitVec 5) (ga : BitVec 5) (offset : BitVec 13)
  /-- LH (R57): Loads a sign-extended halfword. -/
  | lh (n : Fin 5) (gd : BitVec 5) (ga : BitVec 5) (offset : BitVec 13)
  /-- LHU (R57): Loads a zero-extended halfword. -/
  | lhu (n : Fin 5) (gd : BitVec 5) (ga : BitVec 5) (offset : BitVec 13)
  /-- LW (R57): Loads a 32-bit word, including device state words in supervisor mode. -/
  | lw (n : Fin 5) (gd : BitVec 5) (ga : BitVec 5) (offset : BitVec 13)
  /-- LD (R57): Loads 8 bytes into a register pair. -/
  | ld (n : Fin 5) (gd : BitVec 5) (ga : BitVec 5) (offset : BitVec 13)
  /-- SB (R57): Stores a byte. -/
  | sb (n : Fin 5) (gd : BitVec 5) (ga : BitVec 5) (offset : BitVec 13)
  /-- SH (R57): Stores a halfword. -/
  | sh (n : Fin 5) (gd : BitVec 5) (ga : BitVec 5) (offset : BitVec 13)
  /-- SW (R57): Stores a 32-bit word, posted to the owning unit for device state words. -/
  | sw (n : Fin 5) (gd : BitVec 5) (ga : BitVec 5) (offset : BitVec 13)
  /-- SD (R57): Stores 8 bytes from a register pair. -/
  | sd (n : Fin 5) (gd : BitVec 5) (ga : BitVec 5) (offset : BitVec 13)
  /-- ATADD (R59): Atomically adds gb to a memory word and returns the old word. -/
  | atadd (n : Fin 5) (gd : BitVec 5) (ga : BitVec 5) (gb : BitVec 5)
  /-- ATXCH (R59): Atomically exchanges gb with a memory word and returns the old word. -/
  | atxch (n : Fin 5) (gd : BitVec 5) (ga : BitVec 5) (gb : BitVec 5)
  /-- ATCAS (R59): Atomically replaces a memory word with the odd register if it equals the even register, returning the old word. -/
  | atcas (n : Fin 5) (gd : BitVec 5) (ga : BitVec 5) (gb : BitVec 5)
  /-- BREQ (R63): Branches if ga = gb. -/
  | breq (n : Fin 5) (ga : BitVec 5) (gb : BitVec 5) (offset : BitVec 13)
  /-- BRNE (R63): Branches if ga ≠ gb. -/
  | brne (n : Fin 5) (ga : BitVec 5) (gb : BitVec 5) (offset : BitVec 13)
  /-- BRLTS (R63): Branches if ga < gb signed. -/
  | brlts (n : Fin 5) (ga : BitVec 5) (gb : BitVec 5) (offset : BitVec 13)
  /-- BRGES (R63): Branches if ga ≥ gb signed. -/
  | brges (n : Fin 5) (ga : BitVec 5) (gb : BitVec 5) (offset : BitVec 13)
  /-- BRLTU (R63): Branches if ga < gb unsigned. -/
  | brltu (n : Fin 5) (ga : BitVec 5) (gb : BitVec 5) (offset : BitVec 13)
  /-- BRGEU (R63): Branches if ga ≥ gb unsigned. -/
  | brgeu (n : Fin 5) (ga : BitVec 5) (gb : BitVec 5) (offset : BitVec 13)
  /-- JAL (R63): Writes the return address to pair g30 and jumps by a 26-bit word offset. -/
  | jal (n : Fin 5) (offset : BitVec 26)
  /-- JALR (R63): Jumps to pair ga + imm16 × 4 and writes the return address to pair gd. -/
  | jalr (n : Fin 5) (gd : BitVec 5) (ga : BitVec 5) (imm : BitVec 16)
  /-- TRAP (R74): Causes the TRAP trap with DETAIL set to fn [10:4]. -/
  | trap (n : Fin 5) (code : BitVec 7)
  /-- ERET (R72): Returns to EPC, restores SUP from PSUP and clears INTRAP. -/
  | eret (n : Fin 5)
  /-- HALT (R74): Stops the core after every earlier store has been performed. -/
  | halt (n : Fin 5)
  /-- FENCE (R66): Waits until every earlier load and store is performed and visible before later accesses begin. -/
  | fence (n : Fin 5)
  /-- FENCE_T (R67): As FENCE, and also waits for earlier device state word stores and SIGNALs to take effect. -/
  | fenceT (n : Fin 5)
  /-- CWR (R69): Copies a core status word to gd. -/
  | cwr (n : Fin 5) (gd : BitVec 5) (word : BitVec 7)
  /-- CWW (R69): Copies ga to a core status word. -/
  | cww (n : Fin 5) (word : BitVec 7) (ga : BitVec 5)
  /-- AWAIT (R76): Returns the lowest pending, routed and admitted event, or waits for one or the timeout. -/
  | await (n : Fin 5) (gd : BitVec 5) (ga : BitVec 5)
  /-- AWAIT_WAKE (R76): A waiting AWAIT resumes when an admitted event becomes pending or its timeout elapses. -/
  | awaitWake (n : Fin 5) (timeout : Bool)
  /-- SIGNAL (R77): Makes event 480 + ga pending. -/
  | signal (n : Fin 5) (ga : BitVec 5)
  /-- WAITT (R79): Waits until the wall time reaches the target quad, or writes 1 or 2 at once. -/
  | waitt (n : Fin 5) (gd : BitVec 5) (ga : BitVec 5)
  /-- WAITT_WAKE (R79): A waiting WAITT resumes at the target tick, or with 1 when VALID falls. -/
  | waittWake (n : Fin 5)
  /-- TIME (R78): Writes the current wall time into a register quad. -/
  | time (n : Fin 5) (gd : BitVec 5)
  /-- TSTEP (R200): Applies the held refused step to the wall time, discarding slew and resetting token ordering. -/
  | tstep (n : Fin 5) (gd : BitVec 5)
  /-- MSG (R81): Queues one message on the reliable control channel of the wall link, or returns an error status. -/
  | msg (n : Fin 5) (gd : BitVec 5) (ga : BitVec 5) (gb : BitVec 5)
  /-- XFER (R82): Reads a descriptor and starts a transfer under the lowest free ticket, waiting if none is free. -/
  | xfer (n : Fin 5) (gd : BitVec 5) (ga : BitVec 5)
  /-- XWAIT (R83): Waits until the transfer of a ticket ends and returns its status. -/
  | xwait (n : Fin 5) (gd : BitVec 5) (ga : BitVec 5)
  /-- TRANSFER_END (R103): A transfer ends with its status, waking XWAIT and XFER ticket waits and making its EVEN event pending. -/
  | transferEnd (n : Fin 5) (ticket : Fin 16)
  /-- COMMIT (R84): Binds a commit id to a frame program slot, unbinds with id 0, or refuses. -/
  | commit (n : Fin 5) (gd : BitVec 5) (ga : BitVec 5) (gb : BitVec 5)
  /-- SCANSW (R85): Arms scan sequencers to change scan program slot at the show instant of a commit id, or cancels with id 0. -/
  | scansw (n : Fin 5) (gd : BitVec 5) (ga : BitVec 5) (gb : BitVec 5)
  /-- NVRD (R86): Returns an NVJ page's write count and spare mapping. -/
  | nvrd (n : Fin 5) (gd : BitVec 5) (ga : BitVec 5)
  /-- NVWR (R87): Starts a write of 32 bytes to an NVJ page, subject to class, temperature and rate guard checks. -/
  | nvwr (n : Fin 5) (gd : BitVec 5) (ga : BitVec 5) (gb : BitVec 5)
  /-- NVWR_COMPLETE (R87): An NVJ write completes within 400 µs with its verify result, and the core resumes. -/
  | nvwrComplete (n : Fin 5) (verified : Bool)
  /-- HASH (R88): Advances a SHA-256 or SHA-384 context over data, padding and finishing with FINAL. -/
  | hash (n : Fin 5) (gd : BitVec 5) (ga : BitVec 5)
  /-- SPARE (R89): Arms the substitution of a unit of a spare class at the class's next safe point. -/
  | spare (n : Fin 5) (gd : BitVec 5) (ga : BitVec 5) (gb : BitVec 5)
  /-- CORE_START (R94): A write of 1 to HRC.CTL[n].START starts a halted core at its resume address. -/
  | coreStart (n : Fin 5)
  /-- CORE_HALT_REQUEST (R95): A write of 1 to HRC.CTL[n].HALT requests a halt, abandoning any wait. -/
  | coreHaltRequest (n : Fin 5)
  /-- CORE_HALT (R95): A requested halt takes effect after the instruction in progress, records HCAUSE and may raise the halt notice. -/
  | coreHalt (n : Fin 5)
  /-- CORE_SUBSTITUTION (R106): At the first moment both logical core n and HC4 are halted, HC4's physical core takes over logical n. -/
  | coreSubstitution (n : Fin 5)
  /-- SPARE_CORE_RETIREMENT (R107): When HC4 is halted after an armed retirement, its physical core is unpowered and HC4 reads retired. -/
  | spareCoreRetirement
  /-- EVT_FORCE (R113): A write to EVT.FORCE makes the named event pending unless its source is unpowered or reserved. -/
  | evtForce (event : BitVec 9)
  /-- EVT_PEND_CLEAR (R109): A write of 1 to an EVT.PEND bit clears the event; a condition source sets it again if still true. -/
  | evtPendClear (j : Fin 16) (mask : Word)
  /-- EVT_ROUTE_WRITE (R112): A write to EVT.ROUTE[k] changes the event's destination, applying to waiting AWAITs. -/
  | evtRouteWrite (k : Fin 512) (target : BitVec 3)
  /-- LANE_ENABLE (R134): A write of 1 to LAN.CTL[n].EN starts lane bring-up from DETECT. -/
  | laneEnable (n : Fin 36)
  /-- LANE_DISABLE (R134): A write of 0 to LAN.CTL[n].EN puts the lane in DISABLED at once and abandons any survey. -/
  | laneDisable (n : Fin 36)
  /-- RECEIVER_DETECT_PULSE (R135): Every 1 ms in DETECT the lane pulses, and enters TRAIN when a far receiver is detected. -/
  | receiverDetectPulse (n : Fin 36) (detected : Bool)
  /-- TRAIN_WINDOW_END (R135): The 20 ms TRAIN window ends; bit lock is judged and the lane goes to BLOCKLOCK or BACKOFF. -/
  | trainWindowEnd (n : Fin 36) (locked : Bool) (inverted : Bool) (ctle : BitVec 4) (dfe1 : Byte)
  /-- BLOCK_LOCK (R135): 64 consecutive valid sync headers give block lock, and the lane enters EXCHANGE. -/
  | blockLock (n : Fin 36) (rxalign : BitVec 16) (invalid : Nat)
  /-- BLOCKLOCK_TIMEOUT (R135): Block lock is not reached 4 ms after the TRAIN window, and the lane enters BACKOFF. -/
  | blocklockTimeout (n : Fin 36) (invalid : Nat)
  /-- CAPABILITY_BLOCK (R139): A received capability block updates the partner fields and counts towards the exchange pass. -/
  | capabilityBlock (n : Fin 36) (payload : BitVec 56) (invalid : Nat)
  /-- EXCHANGE_TIMEOUT (R135): The exchange does not pass within 10 ms of block lock, and the lane enters BACKOFF. -/
  | exchangeTimeout (n : Fin 36) (invalid : Nat)
  /-- CAPABILITY_BLOCK_SEND (R139): Every 256 blocks in EXCHANGE and STANDBY, or 65,536 in ACTIVE, the lane sends a capability block. -/
  | capabilityBlockSend (n : Fin 36)
  /-- BACKOFF_EXPIRY (R135): 10 ms in BACKOFF ends, and the lane returns to DETECT. -/
  | backoffExpiry (n : Fin 36)
  /-- BLOCK_LOCK_LOSS (R137): 16 invalid of 64 sync headers in ACTIVE or STANDBY sends the lane to BACKOFF. -/
  | blockLockLoss (n : Fin 36) (invalid : Nat)
  /-- SOURCE_LANE_LOCK (R138): A source lane reaches bit and block lock on live traffic and enters ACTIVE. -/
  | sourceLaneLock (n : Fin 36) (rxalign : BitVec 16)
  /-- TXEQ_WRITE (R141): A write to LAN.TXEQ[n] takes effect at the next block boundary unless its taps sum above 63. -/
  | txeqWrite (n : Fin 36) (value : Word)
  /-- SURVEY_REQUEST (R144): A write of 1 to LAN.CTL[n].SURVEY starts an eye survey on an ACTIVE or STANDBY lane. -/
  | surveyRequest (n : Fin 36)
  /-- SURVEY_PERIODIC (R144): Every LAN.SURV.PERIOD seconds an eye survey starts on each eligible lane. -/
  | surveyPeriodic
  /-- SURVEY_COMPLETE (R145): A survey completes and updates EYE, EYEMIN, EYEAVG and EVEYE. -/
  | surveyComplete (n : Fin 36) (width : BitVec 7) (height : Byte)
  /-- SWAP_BLOCKS (R149): Receipt of swap blocks on a retired lane moves that lane's stream to the spare, and the receiver deskews. -/
  | swapBlocks (n : Fin 36) (rxalign : BitVec 16)
  /-- SUBSTITUTION_TIMEOUT (R152): No SUBACK within 10 ms of arming ends the lane substitution with RESULT 4. -/
  | substitutionTimeout (p : Fin 9)
  /-- LINK_FRAME (R159): A received link frame is checked and accepted or discarded, delivering cells, runs, markers, acknowledgements and credits; `age` is how long before the present tick its time-stamp stands, in 1/65,536 ns. -/
  | linkFrame (p : Fin 9) (frame : LinkFrame) (age : BitVec 24)
  /-- RESEND_TIMEOUT (R160): The oldest unacknowledged frame waits 4 µs, and the transmitter resends from it. -/
  | resendTimeout (p : Fin 9)
  /-- NAK_REPEAT (R160): After 2 µs with no frame accepted, the receiver repeats ACKTYPE 2. -/
  | nakRepeat (p : Fin 9)
  /-- PORT_ENABLE (R163): A write of 1 to LNK.PCTL[p].EN lets the port come up. -/
  | portEnable (p : Fin 9)
  /-- PORT_DISABLE (R162): A write of 0 to LNK.PCTL[p].EN takes the port down. -/
  | portDisable (p : Fin 9)
  /-- TIME_CELL (R205): A tile takes a master-side TIME cell as a measurement and forwards it with updated CORRECTION and HOPS; `age` is how long before the present tick its time-stamp stands, in 1/65,536 ns. -/
  | timeCell (p : Fin 9) (cell : TimeCell) (age : BitVec 24)
  /-- LDREQ (R204): A received LDREQ is answered with LDRSP carrying T2 and T3 within 2 µs. -/
  | ldreq (p : Fin 9) (seq : BitVec 16)
  /-- LDRSP (R204): A received LDRSP yields a link-delay value that updates the mean or is discarded. -/
  | ldrsp (p : Fin 9) (cell : LdRsp)
  /-- POS (R172): A tile takes VALUE and VALID of a POS on its upstream port as its position. -/
  | pos (p : Fin 9) (value : BitVec 7) (valid : Bool)
  /-- ANNOUNCE (R185): A tile compares an ANNOUNCE with its master and adopts, forwards or drops it. -/
  | announce (p : Fin 9) (cell : AnnounceCell)
  /-- ANNOUNCE_AT_SENDER (R186): An ANNOUNCE at a sender port outranks it or clears SPLIT at a B-end. -/
  | announceAtSender (p : Fin 9) (cell : AnnounceCell)
  /-- TOKEN (R177): A tile accepts or drops a show token and forwards it. -/
  | token (p : Fin 9) (cell : TokenCell)
  /-- RETRACT (R176): A tile discards the named pending generation and records it as retracted. -/
  | retract (p : Fin 9) (cell : RetractCell)
  /-- GACK (R175): A GACK at a sender port sets the tile's bit in GENDONE or GENMISS of the matching armed entry. -/
  | gack (p : Fin 9) (cell : GackCell)
  /-- REPORT (R173): A REPORT at a sender port sets EVBREAK and, with REASON 1, the chain's tile count. -/
  | report (p : Fin 9) (cell : ReportCell)
  /-- MSG_CELL (R180): A taken message is written to the common-memory receive ring, or dropped when full. -/
  | msgCell (p : Fin 9) (cell : MsgCell)
  /-- WALL_READ (R182): A tile executes a wall-addressed READ request and responds, keeping replay data if enabled. -/
  | wallRead (p : Fin 9) (cell : RequestCell)
  /-- WALL_WRITE (R182): A tile executes a wall-addressed WRITE request and responds. -/
  | wallWrite (p : Fin 9) (cell : RequestCell)
  /-- WALL_FILL (R182): A tile executes a wall-addressed FILL request and responds. -/
  | wallFill (p : Fin 9) (cell : RequestCell)
  /-- PROBE (R184): A tile answers a PROBE with the stored response, nothing, or STATUS 0x05. -/
  | probe (p : Fin 9) (cell : RequestCell)
  /-- WALL_RESPONSE (R183): A matching response completes a tag to the host relay or XFER; unmatched ones count as stale. -/
  | wallResponse (p : Fin 9) (cell : ResponseCell)
  /-- TX_TIMEOUT (R183): LNK.TXTIMEOUT elapses for an outstanding tag, which enters PROBING and sends a PROBE. -/
  | txTimeout (chain : Fin 8) (tag : BitVec 12)
  /-- PROBE_REPEAT (R183): Each further LNK.TXTIMEOUT in PROBING sends another PROBE while a feeding end reaches the tile. -/
  | probeRepeat (chain : Fin 8) (tag : BitVec 12)
  /-- PICTURE_RUN (R262): A tile keeps, checks and writes blocks of a picture run, opening a generation on its first run. -/
  | pictureRun (p : Fin 9) (handle : BitVec 12) (gen : BitVec 16) (block : BitVec 19) (units : List (BitVec 64))
  /-- GENERATION_END (R174): A tile counts missing blocks, moves the generation to PENDING and sends GACK. -/
  | generationEnd (p : Fin 9) (handle : BitVec 12) (gen : BitVec 16)
  /-- TIME_CELL_SEND (R203): Every TIM.TCPER a sender port that has announced sends a TIME cell. -/
  | timeCellSend (p : Fin 9)
  /-- LDREQ_SEND (R204): Every TIM.LDPER an up port sends LDREQ. -/
  | ldreqSend (p : Fin 9)
  /-- ANNOUNCE_AEND (R186): A write of 1 to LNK.ANNOUNCE[c].AEND sends ANNOUNCE on the A-end. -/
  | announceAend (c : Fin 8)
  /-- ANNOUNCE_BEND (R186): A write of 1 to LNK.ANNOUNCE[c].BEND sends ANNOUNCE on the B-end. -/
  | announceBend (c : Fin 8)
  /-- ANNOUNCE_REPEAT (R186): Every 1 ms an announcing end repeats its ANNOUNCE while up. -/
  | announceRepeat (p : Fin 9)
  /-- EPOCH_WRITE (R186): A write to LNK.EPOCH[c] below the held value is ignored. -/
  | epochWrite (c : Fin 8) (value : Word)
  /-- GENKEY_WRITE (R175): A write to LNK.GENKEY[c][e] sets the entry and clears its GENDONE and GENMISS. -/
  | genkeyWrite (c : Fin 8) (e : Fin 16) (value : Word)
  /-- LNK_CFG_WRITE (R192): A write to LNK.CFG is ignored while any chain port is not down. -/
  | lnkCfgWrite (value : Word)
  /-- HOLD_ONSET (R198): No measurement for 1 s or 4 × TCPER sets TIM.STAT.HOLD. -/
  | holdOnset
  /-- HOLDMAX_EXPIRY (R197): HOLD lasting TIM.HOLDMAX seconds sets VALID to 0. -/
  | holdmaxExpiry
  /-- TIM_SRC_WRITE (R197): A write of TIM.CFG.SRC sets VALID to 0 and EVSRC. -/
  | timSrcWrite (src : BitVec 2)
  /-- TIM_FREE (R197): A write of 1 to TIM.CFG.FREE with SRC = 0 sets VALID. -/
  | timFree
  /-- LQ_PUSH (R207): A write to TIM.LQPUSH[p] copies a launch descriptor into the queue, or is refused. -/
  | lqPush (p : Fin 8) (value : Word)
  /-- LAUNCH_ENTRY_START (R208): A launch entry starts at its launch time or when the entry ahead has started, and its content becomes eligible. -/
  | launchEntryStart (p : Fin 8)
  /-- LAUNCH_FLUSH (R209): A write of 1 to TIM.LQCTL[p].FLUSH discards every entry not started. -/
  | launchFlush (p : Fin 8)
  /-- FPERCID_WRITE (R213): A write to TIM.FPERCID arms the pending frame period for a commit id. -/
  | fpercidWrite (value : Word)
  /-- CAPTURE_EDGE (R215): An edge on TS_INi records its wall time, or sets OVERRUN while FULL. -/
  | captureEdge (i : Fin 4) (edge : InputEdge)
  /-- PULSE_EDGE (R216): TS_OUTi changes at a reference instant plus offset and returns after the width. -/
  | pulseEdge (i : Fin 4)
  /-- SNAP (R529): A write of 1 to TIM.SNAP.TAKE copies the wall time into the snapshot words. -/
  | snap
  /-- COMPOSE_START (R279): At T − P the compositor takes commit ids into use, checks the program and composes frame T from accepted tokens. -/
  | composeStart (instant : Nat)
  /-- COMPOSE_RESTART (R284): A write of 1 to CMP.CTL.RESTART ends a compositor halt. -/
  | composeRestart
  /-- LAYER (R281): Opens layer part L of a frame program. -/
  | layer (l : BitVec 4)
  /-- PLACE (R285): Places the tile on the canvas, or a layer's destination rectangle. -/
  | place (place : PlaceForm)
  /-- SCALE (R286): Sets a layer's filter tables, steps and phases. -/
  | scale (fh : BitVec 4) (fv : BitVec 4) (sx : BitVec 20) (sy : BitVec 20) (phx : BitVec 16) (phy : BitVec 16)
  /-- CROP (R287): Sets a layer's source crop rectangle. -/
  | crop (cx : BitVec 13) (cy : BitVec 13) (cw : BitVec 13) (ch : BitVec 13)
  /-- BLEND (R290): Sets a layer's blend mode and alpha. -/
  | blend (mode : BitVec 2) (alpha : BitVec 10) (usea : Bool)
  /-- PRELUT (R290): Selects a layer's pre-blend LUT set. -/
  | prelut (en : Bool) (set : BitVec 5)
  /-- POSTLUT (R291): Selects the 3D cube and post-blend 1D LUT. -/
  | postlut (en3d : Bool) (cube : Bool) (en1d : Bool) (set : BitVec 2)
  /-- POLICY (R297): Sets a layer's readiness policy HOLD, BLANK or DEFER. -/
  | policy (pol : BitVec 2)
  /-- FILL (R289): Sets the background colour or a layer's fill colour. -/
  | fill (fill : FillForm)
  /-- STAND (R301): Sets the standing mode, layer and SILENT count. -/
  | stand (mode : BitVec 2) (l : BitVec 4) (silent : Byte)
  /-- ENDF (R280): Ends a frame program. -/
  | endf
  /-- HALF_COMPLETE (R329): The last lamp code of a frame is written, completing the plane-store half. -/
  | halfComplete (composed : BitVec 20)
  /-- COR_ARMCID_WRITE (R309): A write to COR.ARMCID arms the pending context base and table bank for a commit id. -/
  | corArmcidWrite (value : Word)
  /-- LOOP_WINDOW_END (R325): At a loop window end the expected sums are shown and the colour loop gains are updated. -/
  | loopWindowEnd
  /-- SHOW_INSTANT (R348): At a show instant every running group switches halves at refresh boundary 0 if the half is complete. -/
  | showInstant (instant : Nat)
  /-- REFRESH_BOUNDARY (R342): At each refresh boundary the scan program body starts with fixed edge offsets. -/
  | refreshBoundary (index : Byte) (padFails : List (Fin 128))
  /-- LINE (R339): Sets the current line of the scan body. -/
  | line (g : Fin 16) (usei : Bool) (l : BitVec 6) (ready : Bool)
  /-- PLANE (R335): Declares plane j at LOW or FULL current. -/
  | plane (g : Fin 16) (j : BitVec 5) (low : Bool)
  /-- SLOT (R341): Shows a fraction of plane j of the current line with a LAT edge and ON pulse. -/
  | slot (g : Fin 16) (j : BitVec 5) (sp : BitVec 2)
  /-- BLANK (R341): Holds OE_N high for D × 160 ps. -/
  | blank (g : Fin 16) (d : BitVec 26)
  /-- PRECHG (R369): Sends row code 0xFF with pre-charge. -/
  | prechg (g : Fin 16)
  /-- DIAG (R343): Lights every channel at LOW in a diagnostic refresh, else stays dark. -/
  | diag (g : Fin 16) (d : BitVec 26)
  /-- GAIN (R345): Sets column driver current for a colour before the first ON pulse. -/
  | gain (g : Fin 16) (col : BitVec 2) (value : Byte)
  /-- ROWSEL (R369): Sends the current line's row code. -/
  | rowsel (g : Fin 16)
  /-- LOOP (R339): Repeats the following LEN words n times. -/
  | loop (g : Fin 16) (n : BitVec 6) (len : BitVec 11)
  /-- SYNC (R339): Ends the preamble with N, LINES and t0. -/
  | sync (g : Fin 16) (n : Byte) (lines : BitVec 6) (t0 : BitVec 12)
  /-- READBK (R344): Reads column driver fault or headroom flags on LRET. -/
  | readbk (g : Fin 16) (headroom : Bool) (present : Bool) (bits : BitVec 16)
  /-- END (R339): Ends the scan program body. -/
  | endScan (g : Fin 16)
  /-- GROUP_START (R346): A write of 1 to SCN.GCTL[g].START checks the slot and sets the group running. -/
  | groupStart (g : Fin 16) (slot : Bool)
  /-- GROUP_STOP (R346): A write of 1 to SCN.GCTL[g].STOP stops the group at the end of its line visit. -/
  | groupStop (g : Fin 16)
  /-- DARK_WRITE (R353): A write to SCN.CTL.DARK starts or ends the dark hold of every group. -/
  | darkWrite (dark : Bool)
  /-- TRIP_RELEASE (R353): A write of 1 to SCN.CTL.RELEASE ends a trip hold unless a trip condition persists. -/
  | tripRelease
  /-- FADE_GO (R356): A write of 1 to SCN.FADECTL.GO arms a fade to TARGET over FRAMES. -/
  | fadeGo (target : BitVec 16) (frames : BitVec 12) (shape : Bool)
  /-- MAP_CLEAR (R376): A write of 1 to LMP.CFG.CLEAR begins writing 0 to every lamp state byte. -/
  | mapClear
  /-- MAP_CLEAR_DONE (R376): The lamp state map clear completes within 40 ms and CLEARING clears. -/
  | mapClearDone
  /-- LPD_CELL_SUBSTITUTION (R378): At the group's next refresh tail the spare LPD driver cell takes over. -/
  | lpdCellSubstitution (p : Fin 128)
  /-- COMPOSITOR_LANE_SUBSTITUTION (R303): Between compositions the ninth compositor lane replaces the named lane. -/
  | compositorLaneSubstitution
  /-- CORRECTION_LANE_SUBSTITUTION (R330): Between a frame's last lamp code and the next compose start the ninth correction lane replaces the named lane. -/
  | correctionLaneSubstitution
  /-- SRAM_ROW_SUBSTITUTION (R514): At the memory's safe point a row is copied to a field spare row within 2 µs. -/
  | sramRowSubstitution (code : BitVec 23)
  /-- ETHERNET_FRAME (R220): A source port receives an Ethernet frame, checks it and classifies its datagram or drops it. -/
  | ethernetFrame (i : Fin 8) (frame : Reception)
  /-- IGMP_REPORT (R224): An IGMP report is sent when a flow is enabled or a query's response time falls due. -/
  | igmpReport (i : Fin 8)
  /-- FRAME_CLOSE_SKEW (R234): SKEW milliseconds after a later frame's first packet, the older open frame closes. -/
  | frameCloseSkew (i : Fin 16)
  /-- BLOCK_ROW_HANDOFF (R238): A block row whose pixels are all present is converted and handed to the codec. -/
  | blockRowHandoff (i : Fin 16) (gen : BitVec 16) (row : BitVec 10)
  /-- GENERATION_COMPLETE (R239): The codec writes a closed frame's last block row, completing the generation and setting EVFRAME. -/
  | generationComplete (i : Fin 16) (gen : BitVec 16)
  /-- STREAM_LOSS (R242): No accepted packet for LOSS milliseconds puts the stream in STATE 3 and closes open frames. -/
  | streamLoss (i : Fin 16)
  /-- PATH_SILENCE (R242): One enabled path silent for LOSS milliseconds clears its PATH bit and sets EVPATH. -/
  | pathSilence (i : Fin 16) (pathB : Bool)
  /-- STREAM_ENABLE (R229): A write of 1 to ING.SCTL[s].EN enables the stream within the rate limit, or sets REFUSED. -/
  | streamEnable (i : Fin 16)
  /-- STREAM_DISABLE (R243): A write of 0 to ING.SCTL[s].EN abandons open frames and leaves groups. -/
  | streamDisable (i : Fin 16)
  /-- QCFG_WRITE (R219): A write to ING.QCFG[q] sets the quad mode only while all its lanes are disabled. -/
  | qcfgWrite (q : Fin 2) (value : Word)
  /-- SLAST_READ (R239): A read of ING.SLAST[s] latches SCAPHI and SCAPLO of the same frame. -/
  | slastRead (i : Fin 16)
  /-- DELAY_REQ_SEND (R245): At the Delay_Req interval the time receiver sends a Delay_Req. -/
  | delayReqSend
  /-- PTP_ANNOUNCE_TIMEOUT (R246): Three Announce intervals without receipt time out the selected time transmitter. -/
  | ptpAnnounceTimeout
  /-- CREATE (R259): SRF command CREATE reads descriptor h and creates the handle with every slot FREE. -/
  | create (h : BitVec 12)
  /-- DESTROY (R258): SRF command DESTROY removes a handle whose slots are all FREE. -/
  | destroy (h : BitVec 12)
  /-- OPEN (R258): SRF command OPEN opens a raw generation in a free slot on the sender. -/
  | openGen (h : BitVec 12) (gen : BitVec 16)
  /-- SEAL (R261): SRF command SEAL starts computing the check array of an open raw generation. -/
  | seal (h : BitVec 12) (gen : BitVec 16)
  /-- SEAL_COMPLETE (R261): SEAL writes its last check code and the slot enters COMPLETE. -/
  | sealComplete (h : BitVec 12) (gen : BitVec 16)
  /-- FREE (R269): SRF command FREE releases a generation at once or defers it to its release fence. -/
  | freeGen (h : BitVec 12) (gen : BitVec 16)
  /-- QUERY (R258): SRF command QUERY snapshots a handle's state into the Q words. -/
  | query (h : BitVec 12)
  /-- FORGET (R260): SRF command FORGET clears a handle's newest-opened, newest-used and retracted records. -/
  | forget (h : BitVec 12)
  /-- CODEC_BADOP (R258): A write of SRF.CMD with an OP not in Table 10.4 returns BADOP. -/
  | codecBadop (value : Word)
  /-- RELEASE_FENCE (R267): A RELEASING generation's release fence passes and its slot becomes FREE. -/
  | releaseFence (h : BitVec 12) (gen : BitVec 16)
  /-- BECOME_LEAD (R381): A write of BECOME = 1 makes the sender lead if no lead heartbeat was accepted for 3 × HBPER. -/
  | becomeLead
  /-- BECOME_SHADOW (R381): A write of BECOME = 2 makes the sender shadow while a lead heartbeat is current. -/
  | becomeShadow
  /-- HANDOVER (R401): A write of 1 to MIR.CTL.HANDOVER arms a handover at wall time Th. -/
  | handover
  /-- HANDOVER_AT_TH (R401): At Th the ready shadow becomes lead and the old lead turns silent, or the handover is refused. -/
  | handoverAtTh
  /-- CKGO (R390): A write of 1 to MIR.CTL.CKGO sends a DRAM checkpoint to the shadow in CKDATA and CKDONE cells. -/
  | ckgo
  /-- HEARTBEAT (R384): A received HEARTBEAT updates partner state and may depose the lead. -/
  | heartbeat (role : BitVec 2) (ready : Bool) (handover : Bool) (epoch : Word) (seq : Word) (sec : Word) (ns : Word)
  /-- HEARTBEAT_SEND (R384): Every HBPER a sender with a pair role sends HEARTBEAT. -/
  | heartbeatSend
  /-- HEARTBEAT_MISS (R384): An HBPER interval without an accepted heartbeat counts in MIR.HBMISS. -/
  | heartbeatMiss
  /-- HOSTREC (R387): A shadow takes the lead's lease and sequence state from a HOSTREC and writes it to the host record ring. -/
  | hostrec (units : List (BitVec 64))
  /-- JOURNAL (R389): A shadow updates its mirrored tag table from a JOURNAL cell. -/
  | journal (out : Bool) (chain : Fin 8) (tag : BitVec 12) (tgen : BitVec 4) (position : BitVec 7) (reqType : Byte) (hostTag : BitVec 16) (addr : BitVec 40) (words : BitVec 24) (xfer : Bool)
  /-- CKDATA (R390): A shadow writes checkpoint data to its checkpoint area. -/
  | ckdata (seq : BitVec 16) (off : BitVec 24) (data : List (BitVec 64))
  /-- CKDONE (R390): A shadow completes a checkpoint and sets CKSTAT.SEQ. -/
  | ckdone (seq : BitVec 16) (pages : BitVec 13)
  /-- FWD (R391): A FWD cell delivers a GACK or inbound tile cell, or a request to send on the shadow's port. -/
  | fwd (chain : Fin 8) (toLead : Bool) (inner : List (BitVec 64))
  /-- TAKEOVER (R396): A shadow whose lead is silent or not LEAD, or whose ring is silent, takes every ring with a new epoch. -/
  | takeover (ring : Option (Fin 8))
  /-- SILENT_TOKEN_TIMEOUT (R394): A silent token or arrival without counterpart within 1 ms is a mismatch. -/
  | silentTokenTimeout (ring : Fin 8)
  /-- TRAIN (R406): A write of 1 to MEM.CFG.TRAIN starts DRAM training on both channels. -/
  | train
  /-- TRAINING_COMPLETE (R406): A channel finishes training as ready or failed; READY rises when both are ready. -/
  | trainingComplete (ch : Fin 2) (width : Bool) (dens : BitVec 2) (ranks : Bool) (meets : BitVec 3) (fault : BitVec 3)
  /-- ZQCS (R407): Every 128 ms the controller issues ZQCS to each rank. -/
  | zqcs
  /-- DRAM_REFRESH (R407): At tREFI each rank is refreshed, postponing up to 8 under urgent load. -/
  | dramRefresh (ch : Fin 2) (rank : Bool) (urgent : Bool)
  /-- PARITY_ALERT (R411): A fall of DA_ALERT_N or DB_ALERT_N stops the channel and replays the retry buffer. -/
  | parityAlert (ch : Fin 2) (replay : Bool)
  /-- NEIGHBOUR_REFRESH (R413): A randomly chosen ACTIVATE schedules activation of the two adjoining rows within 2 µs. -/
  | neighbourRefresh (ch : Fin 2) (rank : Bool) (bg : BitVec 2) (bank : BitVec 2) (row : BitVec 17)
  /-- PATROL_SCRUB (R410): The patrol scrubber reads a beat and writes back corrected data. -/
  | patrolScrub (ch : Fin 2) (beat : BitVec 30)
  /-- PPR (R417): A write of GO to MEM.PPR[ch] starts hPPR or sPPR of a row when permitted. -/
  | ppr (ch : Fin 2) (value : Word)
  /-- PPR_COMPLETE (R417): A post-package repair ends with its RESULT and EVPPR. -/
  | pprComplete (ch : Fin 2) (done : Bool)
  /-- REMAP (R419): A write of GO to MEM.RMCTL[ch] starts copying a row to a spare row. -/
  | remap (ch : Fin 2) (entry : BitVec 6)
  /-- REMAP_COMPLETE (R419): The remap copy ends, VALID is set and later accesses go to the spare. -/
  | remapComplete (ch : Fin 2)
  /-- SR_ENTER (R421): A write of 1 to MEM.SRCTL.ENTER begins self-refresh entry. -/
  | srEnter
  /-- SR_IDLE_ENTRY (R421): IDLE µs without requests begin self-refresh entry. -/
  | srIdleEntry
  /-- SR_COMMIT (R421): After draining and precharging, SRE is issued and the channel is in self-refresh. -/
  | srCommit
  /-- SR_EXIT (R422): A write of 1 to EXIT or a request starts self-refresh exit, serving the request after tXSDLL. -/
  | srExit
  /-- PWM_UPDATE (R426): At each rail voltage sample the phase duty cycle is updated. -/
  | pwmUpdate (k : Fin 5) (measured : BitVec 16)
  /-- SENSE_SAMPLE (R427): Every 1.28 µs each ISNS input and VIN_SENSE is sampled. -/
  | senseSample (codes : List (BitVec 12)) (vin : BitVec 12)
  /-- PHASE_CURRENT_LIMIT (R427): A phase current above LIM ends the high-side pulse within 40 ns. -/
  | phaseCurrentLimit (i : Fin 16)
  /-- RAIL_FAULT (R440): LED rail samples above LIM over 10 µs switch the rail off and apply the trip hold. -/
  | railFault (r : Fin 4)
  /-- SPEED_MEASURE (R430): Every 1 ms replica delay lines measure S into PWR.SPEED. -/
  | speedMeasure (speed : BitVec 16)
  /-- SENDER_AVS_WINDOW (R434): At each 1 ms window end in sender role the adaptive voltage decision is taken. -/
  | senderAvsWindow (slack : BitVec 16) (miss : Bool)
  /-- AVSPCID_WRITE (R433): A write to PWR.AVSPCID arms the voltage preset for a commit id. -/
  | avspcidWrite (value : Word)
  /-- LED_RAIL_ENABLE (R436): A write of 1 to PWR.LEDMAP[r].EN switches the rail on unless refused. -/
  | ledRailEnable (r : Fin 4)
  /-- LED_RAIL_DISABLE (R436): A write of 0 to PWR.LEDMAP[r].EN switches the rail off at once. -/
  | ledRailDisable (r : Fin 4)
  /-- LED_SETPOINT_COMMAND (R438): At B − ADV each rail's set-point for the coming refresh is commanded. -/
  | ledSetpointCommand (r : Fin 4) (index : Byte)
  /-- PFAIL_DETECT (R441): PFAIL_N low for 200 ns detects power loss and starts Midnight. -/
  | pfailDetect
  /-- VIN_FAIL_DETECT (R441): Two VIN_SENSE samples below FAIL detect power loss and start Midnight. -/
  | vinFailDetect
  /-- POWER_RETURN (R443): Power good for 10 ms after Midnight resets the part as at power-up. -/
  | powerReturn
  /-- SLOW_ROUND (R460): Every 10 ms the ADC channels and on-die sensors are read and thermal rules evaluated. -/
  | slowRound (codes : List (BitVec 12)) (sensors : List (BitVec 16))
  /-- TRIPCLR (R467): A write of 1 to HKP.CTL.TRIPCLR clears the trip condition if the last round was cool. -/
  | tripclr
  /-- COLOUR_SENSOR_START (R470): After a loop window's first show instant a general-call 0xA1 starts sensor integration. -/
  | colourSensorStart
  /-- COLOUR_SENSOR_STOP (R470): After a loop window's end 0xA2 latches the counts and each enabled sensor is read. -/
  | colourSensorStop (reads : List (List Byte))
  /-- I2C_COMMAND (R471): A write with GO = 1 to HKP.I2CCMD starts one I²C register transaction. -/
  | i2cCommand (value : Word)
  /-- I2C_COMMAND_END (R471): An I²C command ends with its RESULT and EVI2C. -/
  | i2cCommandEnd (ack : Bool) (data : Word)
  /-- I2C_BUS_STUCK (R469): A line held low for 25 ms ends the command with RESULT 2 and sends recovery pulses. -/
  | i2cBusStuck
  /-- IDREAD (R472): A write of 1 to HKP.CTL.IDREAD starts reading the lamp-board ID memory. -/
  | idread
  /-- IDREAD_END (R472): The ID read ends, IDVALID reflects its CRC and EVID is set. -/
  | idreadEnd (bytes : List Byte)
  /-- BOOT_CHECK (R479): The boot ROM checks a read or pushed manifest and starts the stage-2 loader on a pass. -/
  | bootCheck (readError : Bool)
  /-- PUSHGO (R475): A write of 1 to BOT.CTL.PUSHGO in BOOTWAIT hands the bundle to the boot ROM. -/
  | pushgo
  /-- SEAL_DECISION (R483): At VALID rising or TWAIT the health seal is judged fresh or not. -/
  | sealDecision
  /-- DAWNDONE (R485): A write of 1 to BOT.CTL.DAWNDONE completes Dawn, locking every LK field. -/
  | dawndone
  /-- DAWN_LIMIT_EXPIRY (R485): BOT.DAWNCFG.LIMIT seconds after step 5, Dawn completes automatically. -/
  | dawnLimitExpiry
  /-- DUSK (R487): A write of 1 to BOT.CTL.DUSK darkens, halts, runs test slices and writes the seal. -/
  | dusk
  /-- FLOORUP (R491): A write of 1 to BOT.CTL.FLOORUP raises version floors to the booted manifest's versions. -/
  | floorup
  /-- BOT_RESET (R560): A write of 0xA5 to BOT.RESET schedules a full reset after the response leaves. -/
  | botReset (value : Word) (who : Option Who)
  /-- SOFT_RESET (R560): 10 µs after the response of a BOT.RESET write leaves, the part resets as RESET_N does. -/
  | softReset
  /-- MCHK (R482): A write to BOT.MCHK runs boot checks 1 to 5 on a stored manifest and reports in MCHKSTAT. -/
  | mchk (value : Word)
  /-- PROVISION (R492): BOT.LCTL OP 1 fuses the key hashes and moves BLANK to MANUFACTURE. -/
  | provision (addr : BitVec 16) (key : Byte)
  /-- SHIP (R492): BOT.LCTL OP 2 moves MANUFACTURE to FIELD. -/
  | ship (key : Byte)
  /-- SERVICE (R492): BOT.LCTL OP 3 verifies a signed token and moves FIELD to SERVICE. -/
  | service (addr : BitVec 16) (key : Byte)
  /-- RETIRE (R492): BOT.LCTL OP 4 moves the part to RETIRED. -/
  | retire (key : Byte)
  /-- SD_INIT (R494): A write of 1 to HKP.SDCTL.INIT brings the SD card up and finds the update partition. -/
  | sdInit
  /-- SD_INIT_END (R494): SD card initialisation ends with its RESULT and EVINIT. -/
  | sdInitEnd (result : BitVec 3)
  /-- SD_GO (R495): A write of 1 to HKP.SDCTL.GO moves SDCNT sectors between the card and memory. -/
  | sdGo
  /-- SD_TRANSFER_END (R495): An SD transfer ends at its last or first failing sector with RESULT and EVDONE. -/
  | sdTransferEnd (done : BitVec 16) (result : BitVec 3) (retries : BitVec 16)
  /-- SD_CARD_DETECT (R496): A change of SD_CD_N sets EVCARD, and removal ends a transfer. -/
  | sdCardDetect (card : Option SdCard)
  /-- NVJ_CREDIT_REFILL (R499): Every REFILL seconds the NVJ rate guard gains one credit up to BURST. -/
  | nvjCreditRefill
  /-- TRIMCOMMIT (R506): A write of 1 to ASR.CTL.TRIMCOMMIT makes the pending trim set the set in force. -/
  | trimcommit
  /-- TRIM_SAFE_POINT (R506): At a class's safe point its taps take their new values, and PEND clears. -/
  | trimSafePoint (cls : Fin 6)
  /-- CALSAVE (R507): A write of 1 to ASR.CTL.CALSAVE saves the trims as a new copy and journals a record. -/
  | calsave
  /-- SLICE_REQUEST (R508): A write of 1 to ASR.SLICECTL.GO requests test slices where the state permits. -/
  | sliceRequest (value : Word)
  /-- TEST_SLICE (R509): When a block is idle a slice runs test units within the budget and re-initialises it. -/
  | testSlice
  /-- TEST_SLICE_SKIP (R509): A block not idle within 1 ms skips the slice with RESULT 3. -/
  | testSliceSkip
  /-- PROOF_ENABLE (R519): A write of 1 to ASR.PROOFCFG.EN starts a new proof chain; 0 stops it. -/
  | proofEnable (en : Bool)
  /-- DSW_WRITE (R525): A write to a device state word without behaviour of its own sets each field under its access code. -/
  | dswWrite (addr : BitVec 40) (value : Word)
  /-- BYPASS (R552): The TAP BYPASS instruction selects the bypass register. -/
  | bypass (tdi : List Bool)
  /-- IDCODE (R552): The TAP IDCODE instruction returns 0x2912_8367. -/
  | idcode
  /-- SAMPLE_PRELOAD (R552): The TAP SAMPLE/PRELOAD instruction samples or preloads the boundary register. -/
  | samplePreload (pins : List Bool) (tdi : List Bool)
  /-- EXTEST (R552): The TAP EXTEST instruction drives pins from the boundary register outside FIELD and RETIRED. -/
  | extest (pins : List Bool) (tdi : List Bool)
  /-- CLAMP (R552): The TAP CLAMP instruction holds pins outside FIELD and RETIRED. -/
  | clamp (tdi : List Bool)
  /-- HIGHZ (R552): The TAP HIGHZ instruction floats outputs outside FIELD and RETIRED. -/
  | highz (tdi : List Bool)
  /-- TAP_RESET (R552): TRST_N low or five TCK cycles with TMS high return the pins to their functions. -/
  | tapReset
  /-- ILLEGAL_INSTRUCTION (R50): An Hour core meets a program word with a reserved opcode, fn, width, condition or nonzero unused field and takes the ILLEGAL trap. -/
  | illegalInstruction (n : Fin 5) (word : Word)
  /-- FETCH_FAULT (R62): The fetch of an instruction from a refused, unpowered or uncorrectable address causes the FETCH or ECC trap with no instruction executed. -/
  | fetchFault (n : Fin 5)
  /-- LINK_FRAME_SEND (R154): Every 160 ns each up port transmits one link frame, filling it by VC arbitration and credit, or a null frame, and keeping it for resend. -/
  | linkFrameSend (p : Fin 9)
  /-- TIME_TICK (R193): On each 156.25 MHz tick the timekeeper adds the nominal increment, the rate and its share of the pending slew. -/
  | timeTick (count : Nat)
  /-- PARITY_ALERT_END (R411): DA_ALERT_N or DB_ALERT_N rises, and the controller issues PRECHARGE ALL and replays the retry buffer. -/
  | parityAlertEnd (ch : Fin 2)
  /-- NVJ_WRITE_COMPLETE (R498): A page write that the part makes itself (seal, anchor, floor, trim copy, trip, repair map or life-cycle record) is verified and completes, or moves to a spare. -/
  | nvjWriteComplete (verified : Bool)
  /-- TEST_SLICE_END (R510): A test slice ends: the block is re-initialised, results are recorded and the held requests are served. -/
  | testSliceEnd (units : BitVec 10) (failed : BitVec 10) (row : Option (BitVec 23)) (micros : BitVec 16)
  /-- MANIFEST_CHECK_END (R482): A manifest check started through BOT.MCHK ends, setting MCHKSTAT RESULT and VALID, clearing BUSY and making event 459 pending. -/
  | manifestCheckEnd
  /-- LCS_TRANSITION_END (R493): A life-cycle transition completes within 20 ms, setting BOT.LCS STATE and RESULT, clearing BUSY and making event 461 pending. -/
  | lcsTransitionEnd
deriving DecidableEq, Repr

end Sys2Proof
end

