-- ==== Sys2Proof/Decode.lean ====
section
/-! DEFINITION. The command that a word of the table spells. No row of the table has bits: the part takes commands, and
the words that its cores, programs and links carry are operands of them. -/

namespace Sys2Proof

/-- The command of a word by the table's bits; the table gives none. -/
def decodeTableWord (_nbits _w : Nat) : Option Instr := none

end Sys2Proof
end

