-- ==== Sys2Proof/Config.lean ====
section
/-! DEFINITION. What the spec leaves to the part or leaves open: constants without a body, of which no proof can see a
value. -/

namespace Sys2Proof

/-- A free value: the n-th value that the state's counter has drawn. Nothing constrains it. -/
opaque Config.freeWord : Nat → BitVec 32

/-- The contents of the boot ROM (Table 1.6), which the spec does not give. -/
opaque Config.bootRom : Nat → BitVec 8

/-- The device identity of Table 7.7, fused at wafer test; the spec gives its width and not its value. -/
opaque Config.deviceId : BitVec 128

/-- The device identity of the other sender of a pair (R116, R150, R382). -/
opaque Config.partnerId : BitVec 128

/-- The end that the other sender of a pair holds of a chain is up at a tick, of which nothing tells this part (R181; log
entry 47). -/
opaque Config.partnerEndUp : Nat → Nat → Bool

/-- The private device key of R520, derived from a per-die secret that cannot be read. -/
opaque Config.deviceKey : Nat

end Sys2Proof
end

