-- ==== Sys2Proof/Machine/Bits.lean ====
section
/-! DEFINITION. Bit fields, byte order, signed numbers, small list updates and the CRC-32 of R553. -/

namespace Sys2Proof.Machine

/-- Bits [lo+n-1:lo] of a number. -/
def bits (x lo n : Nat) : Nat := x / 2 ^ lo % 2 ^ n

/-- Bit `i` of a number. -/
def bit (x i : Nat) : Bool := x / 2 ^ i % 2 == 1

/-- 1 or 0. -/
def b2n (b : Bool) : Nat := if b then 1 else 0

/-- Field [lo+n-1:lo] of a word. -/
def getBits (w : Word) (lo n : Nat) : Nat := (w.extractLsb' lo n).toNat

/-- The word whose bits [lo+n-1:lo] are all 1. -/
def fieldMask (lo n : Nat) : Word := (BitVec.allOnes n).setWidth 32 <<< lo

/-- A word with field [lo+n-1:lo] replaced. -/
def setBits (w : Word) (lo n v : Nat) : Word :=
  (w &&& ~~~(fieldMask lo n)) ||| ((BitVec.ofNat n v).setWidth 32 <<< lo)

/-- The number a little-endian byte list spells. -/
def leNat : List Byte → Nat
  | [] => 0
  | b :: r => b.toNat + 256 * leNat r

/-- `n` bytes of a number, least significant first. -/
def leBytes : Nat → Nat → List Byte
  | 0, _ => []
  | n + 1, v => BitVec.ofNat 8 v :: leBytes n (v / 256)

/-- The number a big-endian byte list spells. -/
def beNat (l : List Byte) : Nat := leNat l.reverse

/-- `n` bytes of a number, most significant first. -/
def beBytes (n v : Nat) : List Byte := (leBytes n v).reverse

/-- Bytes [i, i+n) of a list. -/
def slice (l : List Byte) (i n : Nat) : List Byte := (l.drop i).take n

/-- The little-endian number in bytes [i, i+n). -/
def leAt (l : List Byte) (i n : Nat) : Nat := leNat (slice l i n)

/-- The big-endian number in bytes [i, i+n). -/
def beAt (l : List Byte) (i n : Nat) : Nat := beNat (slice l i n)

/-- A list of bytes cut or padded with zeros to `n`. -/
def padTo (n : Nat) (l : List Byte) : List Byte := (l ++ List.replicate (n - l.length) 0).take n

/-- Consecutive pieces of `k` bytes, at most `fuel` of them. -/
def chunks (k : Nat) : Nat → List Byte → List (List Byte)
  | 0, _ => []
  | _, [] => []
  | fuel + 1, l => l.take k :: chunks k fuel (l.drop k)

/-- The signed value of the low `n` bits of a number. -/
def sgn (n x : Nat) : Int := if x % 2 ^ n < 2 ^ (n - 1) then (x % 2 ^ n : Nat) else (x % 2 ^ n : Nat) - (2 ^ n : Nat)

/-- The `n`-bit two's complement form of an integer. -/
def unsgn (n : Nat) (i : Int) : Nat := (i % (2 ^ n : Nat)).toNat

/-- An integer held in [lo, hi]. -/
def clampI (lo hi x : Int) : Int := if x < lo then lo else if hi < x then hi else x

/-- A number held in [lo, hi]. -/
def clampN (lo hi x : Nat) : Nat := if x < lo then lo else if hi < x then hi else x

/-- A saturating unsigned `n`-bit number. -/
def satN (n x : Nat) : Nat := if 2 ^ n ≤ x then 2 ^ n - 1 else x

/-- A saturating signed `n`-bit number, as its two's complement form. -/
def satI (n : Nat) (i : Int) : Nat := unsgn n (clampI (-(2 ^ (n - 1) : Nat)) ((2 ^ (n - 1) : Nat) - 1) i)

/-- Division rounded towards minus infinity, for a positive divisor. -/
def fdiv (a : Int) (b : Nat) : Int := Int.fdiv a b

/-- The quotient rounded to the nearest integer, a tie going up. -/
def rdiv (a : Int) (b : Nat) : Int := Int.fdiv (2 * a + b) (2 * b)

/-- The integer square root. -/
def isqrtAux : Nat → Nat → Nat → Nat
  | 0, _, r => r
  | k + 1, x, r => let c := r + 2 ^ k; isqrtAux k x (if c * c ≤ x then c else r)

/-- The largest number whose square is at most `x`, for `x` below 2^128. -/
def isqrt (x : Nat) : Nat := isqrtAux 64 x 0

/-- A list with entry `i` replaced by a function of it. -/
def modAt {α : Type} (i : Nat) (f : α → α) : List α → List α
  | [] => []
  | a :: r => match i with
    | 0 => f a :: r
    | j + 1 => a :: modAt j f r

/-- A list of numbers in rising order with one inserted; a number already there is not doubled. -/
def insertNat (x : Nat) : List Nat → List Nat
  | [] => [x]
  | a :: r => if x < a then x :: a :: r else if x = a then a :: r else a :: insertNat x r

/-- One byte of the CRC-32 of R553, least significant bit first. -/
def crc32Byte (c : BitVec 32) (b : Byte) : BitVec 32 :=
  (List.range 8).foldl
    (fun c _ => if c.getLsbD 0 then (c >>> 1) ^^^ 0xEDB88320#32 else c >>> 1) (c ^^^ b.setWidth 32)

/-- R553: the CRC-32 of every structure of the manual. -/
def crc32 (l : List Byte) : BitVec 32 := ~~~(l.foldl crc32Byte 0xFFFFFFFF#32)

end Sys2Proof.Machine
end

