-- ==== Sys2Proof/Machine/Reg.lean ====
section
/-! DEFINITION. The device state words of the part (Tables 22.1 to 22.20 and the owning chapters' field tables):
one constructor of `Reg` per word, its address, reset value and access masks, the decoding of an address (R523),
and one `Fld` per named field. -/

namespace Sys2Proof.Machine

/-- A device state word. Arrays carry their index numbers, in the order of the
manual's brackets; the arrays stand first. -/
inductive Reg where
  | LAN_CTL (n : Nat)
  | LAN_STAT (n : Nat)
  | LAN_TXEQ (n : Nat)
  | LAN_RXEQ (n : Nat)
  | LAN_EYE (n : Nat)
  | LAN_EYEMIN (n : Nat)
  | LAN_EYEAVG (n : Nat)
  | LAN_PEYE (n : Nat)
  | LAN_RXALIGN (n : Nat)
  | LAN_ERRCNT (n : Nat)
  | LAN_RETRY (n : Nat)
  | LAN_PARTNER (n : Nat)
  | LAN_PSUB (p : Nat)
  | LNK_PCTL (p : Nat)
  | LNK_PSTAT (p : Nat)
  | LNK_CRCERR (p : Nat)
  | LNK_RETRYCNT (p : Nat)
  | LNK_DROP (p : Nat)
  | LNK_STALE (p : Nat)
  | LNK_TAGS (p : Nat)
  | LNK_TXNERR (p : Nat)
  | LNK_EPOCH (c : Nat)
  | LNK_ANNOUNCE (c : Nat)
  | LNK_RING (c : Nat)
  | LNK_GENKEY (c e : Nat)
  | LNK_GENDONE (c e j : Nat)
  | LNK_GENMISS (c e j : Nat)
  | TIM_LDELAY (p : Nat)
  | TIM_ASYM (p : Nat)
  | TIM_LDCNT (p : Nat)
  | TIM_LQPUSH (p : Nat)
  | TIM_LQSTAT (p : Nat)
  | TIM_LQCTL (p : Nat)
  | TIM_LQCNT (p : Nat)
  | TIM_CAPCFG (i : Nat)
  | TIM_CAPSEC (i : Nat)
  | TIM_CAPNS (i : Nat)
  | TIM_CAPFR (i : Nat)
  | TIM_PULCFG (i : Nat)
  | TIM_PULOFF (i : Nat)
  | TIM_PULWID (i : Nat)
  | CLK_DSTAT (d : Nat)
  | ING_QCFG (q : Nat)
  | ING_QFEC (q : Nat)
  | ING_PADDR (i : Nat)
  | ING_PSTAT (i : Nat)
  | ING_PDROP (i : Nat)
  | ING_SCTL (s : Nat)
  | ING_SSTAT (s : Nat)
  | ING_SFMT (s : Nat)
  | ING_SSIZE (s : Nat)
  | ING_SRATE (s : Nat)
  | ING_SHANDLE (s : Nat)
  | ING_SFILL (s : Nat)
  | ING_SSTAGE (s : Nat)
  | ING_SDSTA (s : Nat)
  | ING_SPORTA (s : Nat)
  | ING_SDSTB (s : Nat)
  | ING_SPORTB (s : Nat)
  | ING_SLAST (s : Nat)
  | ING_SCAPHI (s : Nat)
  | ING_SCAPLO (s : Nat)
  | ING_SROWS (s : Nat)
  | ING_SLOSTPKT (s : Nat)
  | ING_SDUP (s : Nat)
  | ING_SFRDROP (s : Nat)
  | ING_SBADPKT (s : Nat)
  | SRF_QGEN (j : Nat)
  | CMP_BIND (s : Nat)
  | CMP_LSTAT (l : Nat)
  | CMP_LCHK (l : Nat)
  | COR_ACC (j : Nat)
  | COR_MGAIN (c : Nat)
  | COR_CMAX (c : Nat)
  | COR_ZMAP (j : Nat)
  | COR_ZTEMP (z : Nat)
  | COR_LOOP (c : Nat)
  | COR_WREF (s c : Nat)
  | COR_WEXP (s c : Nat)
  | SCN_GCTL (g : Nat)
  | SCN_GSTAT (g : Nat)
  | SCN_GARM (g : Nat)
  | SCN_GTIME (g : Nat)
  | LMP_HR (g : Nat)
  | LMP_RBPTR (g : Nat)
  | LMP_SWEEPS (g : Nat)
  | LMP_PSTAT (p : Nat)
  | LMP_PCNT (p : Nat)
  | LMP_PADFAIL (p : Nat)
  | HRC_CTL (n : Nat)
  | HRC_STAT (n : Nat)
  | HRC_PCLO (n : Nat)
  | HRC_PCHI (n : Nat)
  | HRC_CFG (n : Nat)
  | EVT_PEND (j : Nat)
  | EVT_ROUTE (k : Nat)
  | HST_DBVAL (n : Nat)
  | MEM_PORT (i : Nat)
  | MEM_PWAIT (i : Nat)
  | MEM_CHSTAT (ch : Nat)
  | MEM_CHEV (ch : Nat)
  | MEM_ADJ (ch : Nat)
  | MEM_CECNT (ch : Nat)
  | MEM_CETHR (ch : Nat)
  | MEM_UECNT (ch : Nat)
  | MEM_ECCLOG (ch : Nat)
  | MEM_CAPAR (ch : Nat)
  | MEM_NBRCNT (ch : Nat)
  | MEM_PPR (ch : Nat)
  | MEM_RMCTL (ch : Nat)
  | MEM_REMAP (ch e : Nat)
  | PWR_PHASE (k : Nat)
  | PWR_SNS (i : Nat)
  | PWR_SVAL (i : Nat)
  | PWR_PER (k : Nat)
  | PWR_COMP (k : Nat)
  | PWR_LEDMAP (r : Nat)
  | PWR_LEDLIM (r : Nat)
  | PWR_LEDCFG (r : Nat)
  | PWR_LEDHR (r : Nat)
  | PWR_LEDIDLE (r : Nat)
  | PWR_LEDSTAT (r : Nat)
  | PWR_LEDPK (r : Nat)
  | HKP_CH (i : Nat)
  | HKP_VAL (i : Nat)
  | HKP_DIE (k : Nat)
  | HKP_TTAB (k : Nat)
  | HKP_CSADDR (s : Nat)
  | HKP_CSM (s c : Nat)
  | HKP_ID (k : Nat)
  | ASR_HEAD (k : Nat)
  | ASR_DEVID (k : Nat)
  | ASR_HKHASH (k : Nat)
  | ASR_MKHASH (k : Nat)
  | ASR_DEVPUB (k : Nat)
  | ASR_TRIM (k : Nat)
  | ASR_TRIMF (k : Nat)
  | BOT_FLOOR (j : Nat)
  | LAN_SURV
  | LAN_EYELIM
  | LNK_CFG
  | LNK_TXTIMEOUT
  | LNK_VC2RATE
  | LNK_MRXBASE
  | LNK_MRXCFG
  | LNK_MRXHEAD
  | LNK_MRXTAIL
  | LNK_MRXDROP
  | LNK_RPLBASE
  | LNK_POS
  | LNK_MASTER
  | LNK_TOKCNT
  | TIM_CFG
  | TIM_STAT
  | TIM_EV
  | TIM_JUMPLIM
  | TIM_RATE
  | TIM_OFFSET
  | TIM_STEPS
  | TIM_STEPNS
  | TIM_TCPER
  | TIM_LDPER
  | TIM_HOLDMAX
  | TIM_LOCKLIM
  | TIM_TCSTAT
  | TIM_TCCNT
  | TIM_FPER
  | TIM_FPERFR
  | TIM_FPERCID
  | TIM_SNAP
  | TIM_SNAPSH
  | TIM_SNAPSL
  | TIM_SNAPNS
  | TIM_SNAPFR
  | CLK_STAT
  | CLK_EV
  | CLK_START
  | CLK_GATE
  | ING_MACLO
  | ING_MACHI
  | ING_PTPCFG
  | ING_PTPSTAT
  | ING_PTPGMHI
  | ING_PTPGMLO
  | ING_PTPUTC
  | ING_RATESUM
  | SRF_HTBASE
  | SRF_CMD
  | SRF_CMDSTAT
  | SRF_QSTAT
  | SRF_QSLOTS
  | SRF_QNEWEST
  | SRF_QRETR
  | SRF_EV
  | SRF_OCCPEND
  | SRF_OCCPEAK
  | SRF_RXCHK
  | SRF_NOSLOT
  | SRF_DROPCNT
  | SRF_LATECNT
  | SRF_FREEDCNT
  | CMP_CTL
  | CMP_CFG
  | CMP_STAT
  | CMP_EV
  | CMP_CID
  | CMP_LATETOK
  | CMP_CIDERR
  | CMP_OUTWIN
  | CMP_FRAMES
  | CMP_CTIME
  | CMP_CTIMEMAX
  | CMP_LANEMAP
  | COR_CFG
  | COR_STAT
  | COR_EV
  | COR_CTXBASE
  | COR_ARMCID
  | COR_LEDBASE
  | COR_LEDCFG
  | COR_LEDSEQ
  | COR_DERATE
  | COR_FADE
  | COR_ZCFG
  | COR_ZDEF
  | COR_LOOPCFG
  | COR_LOOPLIM
  | COR_EMIN
  | COR_CTXERR
  | COR_LEDERR
  | COR_SATCNT
  | COR_DEADCNT
  | COR_CTIME
  | COR_LANEMAP
  | SCN_CTL
  | SCN_STAT
  | SCN_EV
  | SCN_GEOM
  | SCN_DIAGCFG
  | SCN_MISSCNT
  | SCN_UNDERCNT
  | SCN_DARKUS
  | SCN_FRAMECNT
  | SCN_FADECTL
  | SCN_FADECID
  | SCN_FADESTAT
  | LMP_CFG
  | LMP_STAT
  | LMP_STBASE
  | LMP_VWIN
  | LMP_EPOCH
  | HRC_MAP
  | HRC_ECCCNT
  | EVT_FORCE
  | EVT_ALERTSRC
  | HST_STAT
  | HST_LEASE
  | HST_HOLDER
  | HST_HOLDPORT
  | HST_HCPORT
  | HST_HCCFG
  | HST_IPADDR
  | HST_DROPCNT
  | HST_AUTHFAIL
  | HST_SEQERR
  | HST_LEASECTL
  | MEM_CFG
  | MEM_STAT
  | MEM_SIZE
  | MEM_SRCTL
  | MEM_SCRUB
  | MEM_NBR
  | PWR_STAT
  | PWR_EV
  | PWR_VSET
  | PWR_VCORE
  | PWR_AVSLIM
  | PWR_AVSCFG
  | PWR_AVSPRE
  | PWR_AVSPCID
  | PWR_SPEED
  | PWR_SLACK
  | PWR_SLACKMIN
  | PWR_MID
  | PWR_VIN
  | PWR_VINVAL
  | PWR_PHLIMCNT
  | PWR_LEDSAFE
  | HKP_CTL
  | HKP_STAT
  | HKP_EV
  | HKP_TJ
  | HKP_TLB
  | HKP_JLIM
  | HKP_LLIM
  | HKP_LTRIP
  | HKP_RISE
  | HKP_DERATE
  | HKP_THVALID
  | HKP_ROUNDS
  | HKP_TRIPCNT
  | HKP_DIEMAP
  | HKP_I2CCFG
  | HKP_I2CCMD
  | HKP_I2CDATA
  | HKP_I2CSTAT
  | HKP_SDCTL
  | HKP_SDSTAT
  | HKP_SDEV
  | HKP_SDLBA
  | HKP_SDCNT
  | HKP_SDADDR
  | HKP_SDCAP
  | HKP_SDPART
  | HKP_SDPLEN
  | HKP_SDCRC
  | ASR_STAT
  | ASR_EV
  | ASR_CTL
  | ASR_NVGUARD
  | ASR_NVSTAT
  | ASR_NVQ
  | ASR_CALCNT
  | ASR_CALTIME
  | ASR_TRIMSTAT
  | ASR_SLICECFG
  | ASR_SLICECTL
  | ASR_SLICESTAT
  | ASR_FAILROW
  | ASR_TESTFAIL
  | ASR_MAPSTAT
  | ASR_PROOFCFG
  | ASR_PROOFSTAT
  | ASR_STEPS
  | ASR_SIGHI
  | ASR_SIGLO
  | ASR_ANCHSEQ
  | MIR_CTL
  | MIR_CFG
  | MIR_STAT
  | MIR_EV
  | MIR_PEPOCH
  | MIR_HOSEC
  | MIR_HONS
  | MIR_HRBASE
  | MIR_HRHEAD
  | MIR_HRTAIL
  | MIR_HRDROP
  | MIR_CKSRC
  | MIR_CKDST
  | MIR_CKLEN
  | MIR_CKSTAT
  | MIR_XCOK
  | MIR_XCERR
  | MIR_XCLAST
  | MIR_HBMISS
  | MIR_TAKES
  | MIR_ORPHAN
  | BOT_STAT
  | BOT_EV
  | BOT_CTL
  | BOT_RESET
  | BOT_LCS
  | BOT_LCTL
  | BOT_NONCE
  | BOT_MVER
  | BOT_MDIG
  | BOT_MARKER
  | BOT_DAWNCFG
  | BOT_DUSKCFG
  | BOT_DUSKSTAT
  | BOT_SEAL
  | BOT_MCHK
  | BOT_MCHKSTAT
deriving DecidableEq, Repr

/-- What the index chapter gives a word: its local address (R523), its value after a reset (R524) and the bits
of each access code of Table 0.4. A bit in none of the masks is RO, WO or reserved. -/
structure WordInfo where
  addr : Nat
  reset : Nat
  rw : Nat
  w1c : Nat
  rc : Nat
  lk : Nat
deriving DecidableEq, Repr

/-- Tables 22.2 to 22.20, with the masks assembled from the owning chapters' field tables. -/
def Reg.info : Reg → WordInfo
  | .LAN_CTL n => ⟨0xF000010000 + 0x40 * n, 0x8, 0x39, 0x0, 0x0, 0x0⟩
  | .LAN_STAT n => ⟨0xF000010004 + 0x40 * n, 0x1, 0x0, 0x700, 0x0, 0x0⟩
  | .LAN_TXEQ n => ⟨0xF000010008 + 0x40 * n, 0x4604, 0x1FFFF, 0x0, 0x0, 0x0⟩
  | .LAN_RXEQ n => ⟨0xF00001000C + 0x40 * n, 0x18, 0x1F, 0x0, 0x0, 0x0⟩
  | .LAN_EYE n => ⟨0xF000010010 + 0x40 * n, 0x0, 0x0, 0x0, 0x0, 0x0⟩
  | .LAN_EYEMIN n => ⟨0xF000010014 + 0x40 * n, 0xFF7F, 0x0, 0x0, 0xFF7F, 0x0⟩
  | .LAN_EYEAVG n => ⟨0xF000010018 + 0x40 * n, 0x0, 0x0, 0x0, 0x0, 0x0⟩
  | .LAN_PEYE n => ⟨0xF00001001C + 0x40 * n, 0x0, 0x0, 0x0, 0x0, 0x0⟩
  | .LAN_RXALIGN n => ⟨0xF000010020 + 0x40 * n, 0x0, 0x0, 0x0, 0x0, 0x0⟩
  | .LAN_ERRCNT n => ⟨0xF000010024 + 0x40 * n, 0x0, 0x0, 0x0, 0xFFFFFFFF, 0x0⟩
  | .LAN_RETRY n => ⟨0xF000010028 + 0x40 * n, 0x0, 0x0, 0x0, 0xFFFFFFFF, 0x0⟩
  | .LAN_PARTNER n => ⟨0xF00001002C + 0x40 * n, 0x0, 0x0, 0x0, 0x0, 0x0⟩
  | .LAN_PSUB p => ⟨0xF000011000 + 0x4 * p, if p = 8 then 0xC0 else 0x40, 0x1000, 0x0, 0x0, 0x0⟩
  | .LAN_SURV => ⟨0xF000012000, 0x3C, 0xFFFF, 0x0, 0x0, 0x0⟩
  | .LAN_EYELIM => ⟨0xF000012004, 0xA14, 0xFF7F, 0x0, 0x0, 0x0⟩
  | .LNK_PCTL p => ⟨0xF000020000 + 0x40 * p, 0x0, 0x1, 0x0, 0x0, 0x0⟩
  | .LNK_PSTAT p => ⟨0xF000020004 + 0x40 * p, 0x0, 0x0, 0xF0000, 0x0, 0x0⟩
  | .LNK_CRCERR p => ⟨0xF000020008 + 0x40 * p, 0x0, 0x0, 0x0, 0xFFFFFFFF, 0x0⟩
  | .LNK_RETRYCNT p => ⟨0xF00002000C + 0x40 * p, 0x0, 0x0, 0x0, 0xFFFFFFFF, 0x0⟩
  | .LNK_DROP p => ⟨0xF000020010 + 0x40 * p, 0x0, 0x0, 0x0, 0xFFFFFFFF, 0x0⟩
  | .LNK_STALE p => ⟨0xF000020014 + 0x40 * p, 0x0, 0x0, 0x0, 0xFFFFFFFF, 0x0⟩
  | .LNK_TAGS p => ⟨0xF000020018 + 0x40 * p, 0x0, 0x0, 0x0, 0x1FFF0000, 0x0⟩
  | .LNK_TXNERR p => ⟨0xF00002001C + 0x40 * p, 0x0, 0x0, 0x0, 0xFFFFFFFF, 0x0⟩
  | .LNK_CFG => ⟨0xF000020400, 0x40, 0x7F, 0x0, 0x0, 0x0⟩
  | .LNK_TXTIMEOUT => ⟨0xF000020404, 0x2710, 0xFFFFF, 0x0, 0x0, 0x0⟩
  | .LNK_VC2RATE => ⟨0xF000020408, 0x12, 0xFF, 0x0, 0x0, 0x0⟩
  | .LNK_MRXBASE => ⟨0xF00002040C, 0x0, 0x1FF000, 0x0, 0x0, 0x0⟩
  | .LNK_MRXCFG => ⟨0xF000020410, 0x0, 0x1, 0x0, 0x0, 0x0⟩
  | .LNK_MRXHEAD => ⟨0xF000020414, 0x0, 0x0, 0x0, 0x0, 0x0⟩
  | .LNK_MRXTAIL => ⟨0xF000020418, 0x0, 0x3F, 0x0, 0x0, 0x0⟩
  | .LNK_MRXDROP => ⟨0xF00002041C, 0x0, 0x0, 0x0, 0xFFFFFFFF, 0x0⟩
  | .LNK_RPLBASE => ⟨0xF000020420, 0x0, 0x8001FFFF, 0x0, 0x0, 0x0⟩
  | .LNK_POS => ⟨0xF000020424, 0x0, 0x0, 0x0, 0x0, 0x0⟩
  | .LNK_MASTER => ⟨0xF000020428, 0x0, 0x0, 0x0, 0x0, 0x0⟩
  | .LNK_TOKCNT => ⟨0xF00002042C, 0x0, 0x0, 0x0, 0xFFFFFFFF, 0x0⟩
  | .LNK_EPOCH c => ⟨0xF000020440 + 0x4 * c, 0x0, 0xFFFFFFFF, 0x0, 0x0, 0x0⟩
  | .LNK_ANNOUNCE c => ⟨0xF000020460 + 0x4 * c, 0x0, 0x0, 0x0, 0x0, 0x0⟩
  | .LNK_RING c => ⟨0xF000020480 + 0x4 * c, 0x0, 0xFF, 0x0, 0x0, 0x0⟩
  | .LNK_GENKEY c e => ⟨0xF000024000 + 0x400 * c + 0x40 * e, 0x0, 0x8FFFFFFF, 0x0, 0x0, 0x0⟩
  | .LNK_GENDONE c e j => ⟨0xF000024004 + 0x400 * c + 0x40 * e + 0x4 * j, 0x0, 0x0, 0x0, 0x0, 0x0⟩
  | .LNK_GENMISS c e j => ⟨0xF000024014 + 0x400 * c + 0x40 * e + 0x4 * j, 0x0, 0x0, 0x0, 0x0, 0x0⟩
  | .TIM_CFG => ⟨0xF000030000, 0x30, 0xF3, 0x0, 0x0, 0x0⟩
  | .TIM_STAT => ⟨0xF000030004, 0x0, 0x0, 0x0, 0x0, 0x0⟩
  | .TIM_EV => ⟨0xF000030008, 0x0, 0x0, 0x7FF, 0x0, 0x0⟩
  | .TIM_JUMPLIM => ⟨0xF00003000C, 0x3E8, 0x3FFFFFFF, 0x0, 0x0, 0x0⟩
  | .TIM_RATE => ⟨0xF000030010, 0x0, 0xFFFFFFFF, 0x0, 0x0, 0x0⟩
  | .TIM_OFFSET => ⟨0xF000030014, 0x0, 0x0, 0x0, 0x0, 0x0⟩
  | .TIM_STEPS => ⟨0xF000030018, 0x0, 0x0, 0x0, 0x0, 0x0⟩
  | .TIM_STEPNS => ⟨0xF00003001C, 0x0, 0x0, 0x0, 0x0, 0x0⟩
  | .TIM_TCPER => ⟨0xF000030020, 0xFA, 0xFFFF, 0x0, 0x0, 0x0⟩
  | .TIM_LDPER => ⟨0xF000030024, 0x3E8, 0xFFFF, 0x0, 0x0, 0x0⟩
  | .TIM_HOLDMAX => ⟨0xF000030028, 0x0, 0xFFFF, 0x0, 0x0, 0x0⟩
  | .TIM_LOCKLIM => ⟨0xF00003002C, 0x14, 0xFFFF, 0x0, 0x0, 0x0⟩
  | .TIM_TCSTAT => ⟨0xF000030030, 0x0, 0x0, 0x0, 0x0, 0x0⟩
  | .TIM_TCCNT => ⟨0xF000030034, 0x0, 0x0, 0x0, 0xFFFFFFFF, 0x0⟩
  | .TIM_FPER => ⟨0xF000030038, 0x1312D00, 0xFFFFFFFF, 0x0, 0x0, 0x0⟩
  | .TIM_FPERFR => ⟨0xF00003003C, 0x0, 0xFFFF, 0x0, 0x0, 0x0⟩
  | .TIM_FPERCID => ⟨0xF000030040, 0x0, 0xFFFFFFFF, 0x0, 0x0, 0x0⟩
  | .TIM_SNAP => ⟨0xF000030044, 0x0, 0x0, 0x0, 0x0, 0x0⟩
  | .TIM_SNAPSH => ⟨0xF000030048, 0x0, 0x0, 0x0, 0x0, 0x0⟩
  | .TIM_SNAPSL => ⟨0xF00003004C, 0x0, 0x0, 0x0, 0x0, 0x0⟩
  | .TIM_SNAPNS => ⟨0xF000030050, 0x0, 0x0, 0x0, 0x0, 0x0⟩
  | .TIM_SNAPFR => ⟨0xF000030054, 0x0, 0x0, 0x0, 0x0, 0x0⟩
  | .TIM_LDELAY p => ⟨0xF000030100 + 0x10 * p, 0x0, 0x0, 0x0, 0x0, 0x0⟩
  | .TIM_ASYM p => ⟨0xF000030104 + 0x10 * p, 0x0, 0xFFFFFFFF, 0x0, 0x0, 0x0⟩
  | .TIM_LDCNT p => ⟨0xF000030108 + 0x10 * p, 0x0, 0x0, 0x0, 0xFFFFFFFF, 0x0⟩
  | .TIM_LQPUSH p => ⟨0xF000030200 + 0x10 * p, 0x0, 0x0, 0x0, 0x0, 0x0⟩
  | .TIM_LQSTAT p => ⟨0xF000030204 + 0x10 * p, 0x0, 0x0, 0xF00, 0x0, 0x0⟩
  | .TIM_LQCTL p => ⟨0xF000030208 + 0x10 * p, 0x0, 0x0, 0x0, 0x0, 0x0⟩
  | .TIM_LQCNT p => ⟨0xF00003020C + 0x10 * p, 0x0, 0x0, 0x0, 0xFFFFFFFF, 0x0⟩
  | .TIM_CAPCFG i => ⟨0xF000030300 + 0x10 * i, 0x0, 0x3, 0x0, 0x0, 0x0⟩
  | .TIM_CAPSEC i => ⟨0xF000030304 + 0x10 * i, 0x0, 0x0, 0x0, 0x0, 0x0⟩
  | .TIM_CAPNS i => ⟨0xF000030308 + 0x10 * i, 0x0, 0x0, 0x0, 0x0, 0x0⟩
  | .TIM_CAPFR i => ⟨0xF00003030C + 0x10 * i, 0x0, 0x0, 0x0, 0x50000, 0x0⟩
  | .TIM_PULCFG i => ⟨0xF000030400 + 0x10 * i, 0x0, 0x7, 0x0, 0x0, 0x0⟩
  | .TIM_PULOFF i => ⟨0xF000030404 + 0x10 * i, 0x0, 0xFFFFFFFF, 0x0, 0x0, 0x0⟩
  | .TIM_PULWID i => ⟨0xF000030408 + 0x10 * i, 0x186A, 0xFFFFFF, 0x0, 0x0, 0x0⟩
  | .CLK_STAT => ⟨0xF000040000, 0x0, 0x0, 0x1F1F0000, 0x0, 0x0⟩
  | .CLK_EV => ⟨0xF000040004, 0x0, 0x0, 0xF, 0x0, 0x0⟩
  | .CLK_START => ⟨0xF000040008, 0x0, 0x0, 0x0, 0x0, 0x0⟩
  | .CLK_GATE => ⟨0xF00004000C, 0x0, 0x1F, 0x0, 0x0, 0x0⟩
  | .CLK_DSTAT d => ⟨0xF000040010 + 0x4 * d, 0x0, 0x0, 0x8, 0x0, 0x0⟩
  | .ING_QCFG q => ⟨0xF000050000 + 0x4 * q, 0x0, 0x3, 0x0, 0x0, 0x0⟩
  | .ING_QFEC q => ⟨0xF000050008 + 0x4 * q, 0x0, 0x0, 0x0, 0xFFFFFFFF, 0x0⟩
  | .ING_MACLO => ⟨0xF000050010, 0x0, 0xFFFFFFFF, 0x0, 0x0, 0x0⟩
  | .ING_MACHI => ⟨0xF000050014, 0x0, 0xFFFF, 0x0, 0x0, 0x0⟩
  | .ING_PADDR i => ⟨0xF000050020 + 0x4 * i, 0x0, 0xFFFFFFFF, 0x0, 0x0, 0x0⟩
  | .ING_PSTAT i => ⟨0xF000050040 + 0x4 * i, 0x0, 0x0, 0x0, 0x0, 0x0⟩
  | .ING_PDROP i => ⟨0xF000050060 + 0x4 * i, 0x0, 0x0, 0x0, 0xFFFFFFFF, 0x0⟩
  | .ING_PTPCFG => ⟨0xF000050080, 0x407F00, 0xF7FF01, 0x0, 0x0, 0x0⟩
  | .ING_PTPSTAT => ⟨0xF000050084, 0x0, 0x0, 0x0, 0x0, 0x0⟩
  | .ING_PTPGMHI => ⟨0xF000050088, 0x0, 0x0, 0x0, 0x0, 0x0⟩
  | .ING_PTPGMLO => ⟨0xF00005008C, 0x0, 0x0, 0x0, 0x0, 0x0⟩
  | .ING_PTPUTC => ⟨0xF000050090, 0x0, 0x0, 0x0, 0x0, 0x0⟩
  | .ING_RATESUM => ⟨0xF000050094, 0x0, 0x0, 0x0, 0x0, 0x0⟩
  | .ING_SCTL s => ⟨0xF000051000 + 0x80 * s, 0x64A0, 0x7FFFF3, 0x0, 0x0, 0x0⟩
  | .ING_SSTAT s => ⟨0xF000051004 + 0x80 * s, 0x0, 0x0, 0xF00, 0x0, 0x0⟩
  | .ING_SFMT s => ⟨0xF000051008 + 0x80 * s, 0x4, 0x7F, 0x0, 0x0, 0x0⟩
  | .ING_SSIZE s => ⟨0xF00005100C + 0x80 * s, 0x0, 0x1FFF1FFF, 0x0, 0x0, 0x0⟩
  | .ING_SRATE s => ⟨0xF000051010 + 0x80 * s, 0x0, 0xFFFFFFFF, 0x0, 0x0, 0x0⟩
  | .ING_SHANDLE s => ⟨0xF000051014 + 0x80 * s, 0x0, 0xFFF, 0x0, 0x0, 0x0⟩
  | .ING_SFILL s => ⟨0xF000051018 + 0x80 * s, 0x0, 0x3FFFFFFF, 0x0, 0x0, 0x0⟩
  | .ING_SSTAGE s => ⟨0xF00005101C + 0x80 * s, 0x0, 0xFFFFFFF, 0x0, 0x0, 0x0⟩
  | .ING_SDSTA s => ⟨0xF000051020 + 0x80 * s, 0x0, 0xFFFFFFFF, 0x0, 0x0, 0x0⟩
  | .ING_SPORTA s => ⟨0xF000051024 + 0x80 * s, 0x0, 0x8007FFFF, 0x0, 0x0, 0x0⟩
  | .ING_SDSTB s => ⟨0xF000051028 + 0x80 * s, 0x0, 0xFFFFFFFF, 0x0, 0x0, 0x0⟩
  | .ING_SPORTB s => ⟨0xF00005102C + 0x80 * s, 0x40000, 0x8007FFFF, 0x0, 0x0, 0x0⟩
  | .ING_SLAST s => ⟨0xF000051030 + 0x80 * s, 0x0, 0x0, 0x0, 0x0, 0x0⟩
  | .ING_SCAPHI s => ⟨0xF000051034 + 0x80 * s, 0x0, 0x0, 0x0, 0x0, 0x0⟩
  | .ING_SCAPLO s => ⟨0xF000051038 + 0x80 * s, 0x0, 0x0, 0x0, 0x0, 0x0⟩
  | .ING_SROWS s => ⟨0xF00005103C + 0x80 * s, 0x0, 0x0, 0x0, 0x0, 0x0⟩
  | .ING_SLOSTPKT s => ⟨0xF000051040 + 0x80 * s, 0x0, 0x0, 0x0, 0xFFFFFFFF, 0x0⟩
  | .ING_SDUP s => ⟨0xF000051044 + 0x80 * s, 0x0, 0x0, 0x0, 0xFFFFFFFF, 0x0⟩
  | .ING_SFRDROP s => ⟨0xF000051048 + 0x80 * s, 0x0, 0x0, 0x0, 0xFFFFFFFF, 0x0⟩
  | .ING_SBADPKT s => ⟨0xF00005104C + 0x80 * s, 0x0, 0x0, 0x0, 0xFFFFFFFF, 0x0⟩
  | .SRF_HTBASE => ⟨0xF000060000, 0x0, 0xFFFFFFF, 0x0, 0x0, 0x0⟩
  | .SRF_CMD => ⟨0xF000060004, 0x0, 0x0, 0x0, 0x0, 0x0⟩
  | .SRF_CMDSTAT => ⟨0xF000060008, 0x0, 0x0, 0x100, 0x0, 0x0⟩
  | .SRF_QSTAT => ⟨0xF00006000C, 0x0, 0x0, 0x0, 0x0, 0x0⟩
  | .SRF_QSLOTS => ⟨0xF000060010, 0x0, 0x0, 0x0, 0x0, 0x0⟩
  | .SRF_QGEN j => ⟨0xF000060014 + 0x4 * j, 0x0, 0x0, 0x0, 0x0, 0x0⟩
  | .SRF_QNEWEST => ⟨0xF000060024, 0x0, 0x0, 0x0, 0x0, 0x0⟩
  | .SRF_QRETR => ⟨0xF000060028, 0x0, 0x0, 0x0, 0x0, 0x0⟩
  | .SRF_EV => ⟨0xF000060030, 0x0, 0x0, 0x3F, 0x0, 0x0⟩
  | .SRF_OCCPEND => ⟨0xF000060034, 0x0, 0x0, 0x0, 0x0, 0x0⟩
  | .SRF_OCCPEAK => ⟨0xF000060038, 0x0, 0x0, 0x0, 0xFFFFFF, 0x0⟩
  | .SRF_RXCHK => ⟨0xF00006003C, 0x0, 0x0, 0x0, 0xFFFFFFFF, 0x0⟩
  | .SRF_NOSLOT => ⟨0xF000060040, 0x0, 0x0, 0x0, 0xFFFFFFFF, 0x0⟩
  | .SRF_DROPCNT => ⟨0xF000060044, 0x0, 0x0, 0x0, 0xFFFFFFFF, 0x0⟩
  | .SRF_LATECNT => ⟨0xF000060048, 0x0, 0x0, 0x0, 0xFFFFFFFF, 0x0⟩
  | .SRF_FREEDCNT => ⟨0xF00006004C, 0x0, 0x0, 0x0, 0xFFFFFFFF, 0x0⟩
  | .CMP_CTL => ⟨0xF000070000, 0x0, 0x0, 0x0, 0x0, 0x0⟩
  | .CMP_CFG => ⟨0xF000070004, 0x1, 0x1, 0x0, 0x0, 0x0⟩
  | .CMP_STAT => ⟨0xF000070008, 0x8, 0x0, 0x0, 0x0, 0x0⟩
  | .CMP_EV => ⟨0xF00007000C, 0x0, 0x0, 0x3F, 0x0, 0x0⟩
  | .CMP_CID => ⟨0xF000070010, 0x0, 0x0, 0x0, 0x0, 0x0⟩
  | .CMP_BIND s => ⟨0xF000070014 + 0x4 * s, 0x0, 0x0, 0x0, 0x0, 0x0⟩
  | .CMP_LATETOK => ⟨0xF00007001C, 0x0, 0x0, 0x0, 0xFFFFFFFF, 0x0⟩
  | .CMP_CIDERR => ⟨0xF000070020, 0x0, 0x0, 0x0, 0xFFFFFFFF, 0x0⟩
  | .CMP_OUTWIN => ⟨0xF000070024, 0x0, 0x0, 0x0, 0xFFFFFFFF, 0x0⟩
  | .CMP_FRAMES => ⟨0xF000070028, 0x0, 0x0, 0x0, 0xFFFFFFFF, 0x0⟩
  | .CMP_CTIME => ⟨0xF00007002C, 0x0, 0x0, 0x0, 0x0, 0x0⟩
  | .CMP_CTIMEMAX => ⟨0xF000070030, 0x0, 0x0, 0x0, 0xFFFFF, 0x0⟩
  | .CMP_LANEMAP => ⟨0xF000070034, 0x76543210, 0x0, 0x0, 0x0, 0x0⟩
  | .CMP_LSTAT l => ⟨0xF000070100 + 0x8 * l, 0x0, 0x0, 0xC, 0x0, 0x0⟩
  | .CMP_LCHK l => ⟨0xF000070104 + 0x8 * l, 0x0, 0x0, 0x0, 0xFFFFFFFF, 0x0⟩
  | .COR_CFG => ⟨0xF000080000, 0x0, 0x7, 0x0, 0x0, 0x0⟩
  | .COR_STAT => ⟨0xF000080004, 0x0, 0x0, 0x0, 0x0, 0x0⟩
  | .COR_EV => ⟨0xF000080008, 0x0, 0x0, 0x3F, 0x0, 0x0⟩
  | .COR_CTXBASE => ⟨0xF00008000C, 0x0, 0x1FFFFFFF, 0x0, 0x0, 0x0⟩
  | .COR_ARMCID => ⟨0xF000080010, 0x0, 0xFFFFFFFF, 0x0, 0x0, 0x0⟩
  | .COR_LEDBASE => ⟨0xF000080014, 0x0, 0xFFFFFFF, 0x0, 0x0, 0x0⟩
  | .COR_LEDCFG => ⟨0xF000080018, 0x40, 0xFF, 0x0, 0x0, 0x0⟩
  | .COR_LEDSEQ => ⟨0xF00008001C, 0x0, 0x0, 0x0, 0x0, 0x0⟩
  | .COR_ACC j => ⟨0xF000080020 + 0x4 * j, 0x10101010, 0xFFFFFFFF, 0x0, 0x0, 0x0⟩
  | .COR_MGAIN c => ⟨0xF000080030 + 0x4 * c, 0x8000, 0xFFFF, 0x0, 0x0, 0x0⟩
  | .COR_DERATE => ⟨0xF00008003C, 0x8000, 0x0, 0x0, 0x0, 0x0⟩
  | .COR_FADE => ⟨0xF000080040, 0x0, 0x0, 0x0, 0x0, 0x0⟩
  | .COR_CMAX c => ⟨0xF000080044 + 0x4 * c, 0xFFFFF, 0xFFFFF, 0x0, 0x0, 0x0⟩
  | .COR_ZCFG => ⟨0xF000080050, 0x9, 0x3F, 0x0, 0x0, 0x0⟩
  | .COR_ZDEF => ⟨0xF000080054, 0x190, 0xFFFF, 0x0, 0x0, 0x0⟩
  | .COR_ZMAP j => ⟨0xF000080058 + 0x4 * j, if j = 0 then 0x76543210 else 0xFEDCBA98, 0xFFFFFFFF, 0x0, 0x0, 0x0⟩
  | .COR_ZTEMP z => ⟨0xF000080060 + 0x4 * z, 0x0, 0x0, 0x0, 0x0, 0x0⟩
  | .COR_LOOPCFG => ⟨0xF0000800A0, 0x432, 0xFFF, 0x0, 0x0, 0x0⟩
  | .COR_LOOPLIM => ⟨0xF0000800A4, 0xA0006000, 0xFFFFFFFF, 0x0, 0x0, 0x0⟩
  | .COR_EMIN => ⟨0xF0000800A8, 0x3E8, 0xFFFFFFFF, 0x0, 0x0, 0x0⟩
  | .COR_LOOP c => ⟨0xF0000800B0 + 0x4 * c, 0x8000, 0xFFFF, 0x0, 0x0, 0x0⟩
  | .COR_CTXERR => ⟨0xF0000800C0, 0x0, 0x0, 0x0, 0xFFFFFFFF, 0x0⟩
  | .COR_LEDERR => ⟨0xF0000800C4, 0x0, 0x0, 0x0, 0xFFFFFFFF, 0x0⟩
  | .COR_SATCNT => ⟨0xF0000800C8, 0x0, 0x0, 0x0, 0xFFFFFFFF, 0x0⟩
  | .COR_DEADCNT => ⟨0xF0000800CC, 0x0, 0x0, 0x0, 0x0, 0x0⟩
  | .COR_CTIME => ⟨0xF0000800D0, 0x0, 0x0, 0x0, 0x0, 0x0⟩
  | .COR_LANEMAP => ⟨0xF0000800D4, 0x76543210, 0x0, 0x0, 0x0, 0x0⟩
  | .COR_WREF s c => ⟨0xF000080100 + 0x10 * s + 0x4 * c, 0x0, 0xFFFFFFFF, 0x0, 0x0, 0x0⟩
  | .COR_WEXP s c => ⟨0xF000080200 + 0x10 * s + 0x4 * c, 0x0, 0x0, 0x0, 0x0, 0x0⟩
  | .SCN_CTL => ⟨0xF000090000, 0x0, 0x1, 0x0, 0x0, 0x0⟩
  | .SCN_STAT => ⟨0xF000090004, 0x2, 0x0, 0x0, 0x0, 0x0⟩
  | .SCN_EV => ⟨0xF000090008, 0x0, 0x0, 0xF, 0x0, 0x0⟩
  | .SCN_GEOM => ⟨0xF00009000C, 0x23, 0x3F, 0x0, 0x0, 0x0⟩
  | .SCN_DIAGCFG => ⟨0xF000090010, 0x10001, 0x1FF01, 0x0, 0x0, 0x0⟩
  | .SCN_MISSCNT => ⟨0xF000090014, 0x0, 0x0, 0x0, 0xFFFFFFFF, 0x0⟩
  | .SCN_UNDERCNT => ⟨0xF000090018, 0x0, 0x0, 0x0, 0xFFFFFFFF, 0x0⟩
  | .SCN_DARKUS => ⟨0xF00009001C, 0x0, 0x0, 0x0, 0x0, 0x0⟩
  | .SCN_FRAMECNT => ⟨0xF000090020, 0x0, 0x0, 0x0, 0x0, 0x0⟩
  | .SCN_FADECTL => ⟨0xF000090024, 0x10000, 0x1FFFFFFF, 0x0, 0x0, 0x0⟩
  | .SCN_FADECID => ⟨0xF000090028, 0x0, 0xFFFFFFFF, 0x0, 0x0, 0x0⟩
  | .SCN_FADESTAT => ⟨0xF00009002C, 0x0, 0x0, 0x0, 0x0, 0x0⟩
  | .SCN_GCTL g => ⟨0xF000090100 + 0x10 * g, 0x0, 0x4, 0x0, 0x0, 0x0⟩
  | .SCN_GSTAT g => ⟨0xF000090104 + 0x10 * g, 0x0, 0x0, 0xF00000, 0x0, 0x0⟩
  | .SCN_GARM g => ⟨0xF000090108 + 0x10 * g, 0x0, 0x0, 0x0, 0x0, 0x0⟩
  | .SCN_GTIME g => ⟨0xF00009010C + 0x10 * g, 0x0, 0x0, 0x0, 0x0, 0x0⟩
  | .LMP_CFG => ⟨0xF0000A0000, 0x4, 0x5, 0x0, 0x0, 0x0⟩
  | .LMP_STAT => ⟨0xF0000A0004, 0x0, 0x0, 0x2, 0x0, 0x0⟩
  | .LMP_STBASE => ⟨0xF0000A0008, 0x0, 0xFFFFFFF, 0x0, 0x0, 0x0⟩
  | .LMP_VWIN => ⟨0xF0000A000C, 0x200, 0xFFFF, 0x0, 0x0, 0x0⟩
  | .LMP_EPOCH => ⟨0xF0000A0010, 0x0, 0x0, 0x0, 0x0, 0x0⟩
  | .LMP_HR g => ⟨0xF0000A0040 + 0x4 * g, 0x0, 0x0, 0x0, 0xF, 0x0⟩
  | .LMP_RBPTR g => ⟨0xF0000A0080 + 0x4 * g, 0x0, 0x0, 0x0, 0x0, 0x0⟩
  | .LMP_SWEEPS g => ⟨0xF0000A00C0 + 0x4 * g, 0x0, 0x0, 0x0, 0xFFFFFFFF, 0x0⟩
  | .LMP_PSTAT p => ⟨0xF0000A1000 + 0x10 * p, 0x0, 0x0, 0xF00, 0x0, 0x0⟩
  | .LMP_PCNT p => ⟨0xF0000A1004 + 0x10 * p, 0x0, 0x0, 0x0, 0xFFFFFFFF, 0x0⟩
  | .LMP_PADFAIL p => ⟨0xF0000A1008 + 0x10 * p, 0x0, 0x0, 0x0, 0xFFFFFFFF, 0x0⟩
  | .HRC_CTL n => ⟨0xF0000B0000 + 0x20 * n, 0x0, 0x0, 0x0, 0x0, 0x0⟩
  | .HRC_STAT n => ⟨0xF0000B0004 + 0x20 * n, if n = 0 then 1 else 0, 0x0, 0x0, 0x0, 0x0⟩
  | .HRC_PCLO n => ⟨0xF0000B0008 + 0x20 * n, 0xFFFF0000, 0xFFFFFFFC, 0x0, 0x0, 0x0⟩
  | .HRC_PCHI n => ⟨0xF0000B000C + 0x20 * n, 0xFF, 0xFF, 0x0, 0x0, 0x0⟩
  | .HRC_CFG n => ⟨0xF0000B0010 + 0x20 * n, 0x0, 0x1F, 0x0, 0x0, 0x0⟩
  | .HRC_MAP => ⟨0xF0000B0100, 0x4688, 0x0, 0x0, 0x0, 0x0⟩
  | .HRC_ECCCNT => ⟨0xF0000B0104, 0x0, 0x0, 0x0, 0xFFFFFFFF, 0x0⟩
  | .EVT_PEND j => ⟨0xF0000C0000 + 0x4 * j, 0x0, 0x0, 0xFFFFFFFF, 0x0, 0x0⟩
  | .EVT_FORCE => ⟨0xF0000C0040, 0x0, 0x0, 0x0, 0x0, 0x0⟩
  | .EVT_ALERTSRC => ⟨0xF0000C0044, 0x200, 0x0, 0x0, 0x0, 0x0⟩
  | .EVT_ROUTE k => ⟨0xF0000C1000 + 0x4 * k, 0x7, 0x7, 0x0, 0x0, 0x0⟩
  | .HST_STAT => ⟨0xF0000D0000, 0x0, 0x0, 0x0, 0x0, 0x0⟩
  | .HST_LEASE => ⟨0xF0000D0004, 0x0, 0x0, 0x0, 0x0, 0x0⟩
  | .HST_HOLDER => ⟨0xF0000D0008, 0x0, 0x0, 0x0, 0x0, 0x0⟩
  | .HST_HOLDPORT => ⟨0xF0000D000C, 0x0, 0x0, 0x0, 0x0, 0x0⟩
  | .HST_HCPORT => ⟨0xF0000D0010, 0x7800, 0xFFFF, 0x0, 0x0, 0x0⟩
  | .HST_HCCFG => ⟨0xF0000D0014, 0x0, 0xF, 0x0, 0x0, 0x0⟩
  | .HST_IPADDR => ⟨0xF0000D0018, 0x0, 0xFFFFFFFF, 0x0, 0x0, 0x0⟩
  | .HST_DROPCNT => ⟨0xF0000D001C, 0x0, 0x0, 0x0, 0xFFFFFFFF, 0x0⟩
  | .HST_AUTHFAIL => ⟨0xF0000D0020, 0x0, 0x0, 0x0, 0xFFFFFFFF, 0x0⟩
  | .HST_SEQERR => ⟨0xF0000D0024, 0x0, 0x0, 0x0, 0xFFFFFFFF, 0x0⟩
  | .HST_LEASECTL => ⟨0xF0000D0028, 0x0, 0x0, 0x0, 0x0, 0x0⟩
  | .HST_DBVAL n => ⟨0xF0000D0040 + 0x4 * n, 0x0, 0x0, 0x0, 0x0, 0x0⟩
  | .MEM_CFG => ⟨0xF0000E0000, 0x8, 0x80, 0x0, 0x0, 0x7F⟩
  | .MEM_STAT => ⟨0xF0000E0004, 0x0, 0x0, 0x0, 0x0, 0x0⟩
  | .MEM_SIZE => ⟨0xF0000E0008, 0x0, 0x0, 0x0, 0x0, 0x0⟩
  | .MEM_SRCTL => ⟨0xF0000E000C, 0x0, 0xFFFF00, 0x0, 0x0, 0x0⟩
  | .MEM_SCRUB => ⟨0xF0000E0010, 0x18, 0xFFFF, 0x0, 0x0, 0x0⟩
  | .MEM_NBR => ⟨0xF0000E0014, 0xA, 0xF, 0x0, 0x0, 0x0⟩
  | .MEM_PORT i => ⟨0xF0000E0020 + 0x4 * i, if i = 0 then 0xC8 else if i = 1 then 0x3E8 else if i = 2 then 0x7D0 else if i = 3 then 0x5DC else if i = 4 then 0x5DC else if i = 6 then 0x3E8 else 0x2710, 0xFFFF, 0x0, 0x0, 0x0⟩
  | .MEM_PWAIT i => ⟨0xF0000E0040 + 0x4 * i, 0x0, 0x0, 0x0, 0xFFFF, 0x0⟩
  | .MEM_CHSTAT ch => ⟨0xF0000E0100 + 0x40 * ch, 0x0, 0x0, 0x0, 0x0, 0x0⟩
  | .MEM_CHEV ch => ⟨0xF0000E0104 + 0x40 * ch, 0x0, 0x0, 0x7F, 0x0, 0x0⟩
  | .MEM_ADJ ch => ⟨0xF0000E0108 + 0x40 * ch, 0x0, 0x3FFFFF, 0x0, 0x0, 0x0⟩
  | .MEM_CECNT ch => ⟨0xF0000E010C + 0x40 * ch, 0x0, 0x0, 0x0, 0xFFFFFFFF, 0x0⟩
  | .MEM_CETHR ch => ⟨0xF0000E0110 + 0x40 * ch, 0x100, 0xFFFF, 0x0, 0x0, 0x0⟩
  | .MEM_UECNT ch => ⟨0xF0000E0114 + 0x40 * ch, 0x0, 0x0, 0x0, 0xFFFFFFFF, 0x0⟩
  | .MEM_ECCLOG ch => ⟨0xF0000E0118 + 0x40 * ch, 0x0, 0x0, 0x0, 0x80000000, 0x0⟩
  | .MEM_CAPAR ch => ⟨0xF0000E011C + 0x40 * ch, 0x0, 0x0, 0x0, 0xFFFFFFFF, 0x0⟩
  | .MEM_NBRCNT ch => ⟨0xF0000E0120 + 0x40 * ch, 0x0, 0x0, 0x0, 0xFFFFFFFF, 0x0⟩
  | .MEM_PPR ch => ⟨0xF0000E0124 + 0x40 * ch, 0x0, 0xFFFFFE, 0x0, 0x0, 0x0⟩
  | .MEM_RMCTL ch => ⟨0xF0000E0128 + 0x40 * ch, 0x0, 0x0, 0x0, 0x0, 0x0⟩
  | .MEM_REMAP ch e => ⟨0xF0000E1000 + 0x100 * ch + 0x4 * e, 0x0, 0x3FFFFF, 0x0, 0x0, 0x0⟩
  | .PWR_STAT => ⟨0xF0000F0000, 0x0, 0x0, 0x0, 0x0, 0x0⟩
  | .PWR_EV => ⟨0xF0000F0004, 0x0, 0x0, 0xFFF, 0x0, 0x0⟩
  | .PWR_VSET => ⟨0xF0000F0008, 0x32, 0x3F, 0x0, 0x0, 0x0⟩
  | .PWR_VCORE => ⟨0xF0000F000C, 0x3520032, 0x0, 0x0, 0x0, 0x0⟩
  | .PWR_AVSLIM => ⟨0xF0000F0010, 0x3C00, 0x0, 0x0, 0x0, 0x3F3F⟩
  | .PWR_AVSCFG => ⟨0xF0000F0014, 0x640328C, 0xFFFFFFFF, 0x0, 0x0, 0x0⟩
  | .PWR_AVSPRE => ⟨0xF0000F0018, 0x0, 0x3F, 0x0, 0x0, 0x0⟩
  | .PWR_AVSPCID => ⟨0xF0000F001C, 0x0, 0xFFFFFFFF, 0x0, 0x0, 0x0⟩
  | .PWR_SPEED => ⟨0xF0000F0020, 0x0, 0x0, 0x0, 0x0, 0x0⟩
  | .PWR_SLACK => ⟨0xF0000F0024, 0x0, 0x0, 0x0, 0x0, 0x0⟩
  | .PWR_SLACKMIN => ⟨0xF0000F0028, 0xFFFF, 0x0, 0x0, 0xFFFF, 0x0⟩
  | .PWR_MID => ⟨0xF0000F002C, 0x11E, 0x3F, 0x0, 0x0, 0x100⟩
  | .PWR_VIN => ⟨0xF0000F0030, 0x0, 0xFFF0000, 0x0, 0x0, 0xFFF⟩
  | .PWR_VINVAL => ⟨0xF0000F0034, 0x0, 0x0, 0x0, 0x0, 0x0⟩
  | .PWR_PHLIMCNT => ⟨0xF0000F0038, 0x0, 0x0, 0x0, 0xFFFFFFFF, 0x0⟩
  | .PWR_LEDSAFE => ⟨0xF0000F003C, 0x0, 0x0, 0x0, 0xFFFFFFFF, 0x0⟩
  | .PWR_PHASE k => ⟨0xF0000F0040 + 0x4 * k, if k = 0 then 1 else if k = 1 then 1 else 0, 0x0, 0x0, 0x0, 0x7⟩
  | .PWR_SNS i => ⟨0xF0000F0080 + 0x4 * i, if i = 0 then 0x0FFF0401 else if i = 1 then 0x0FFF0405 else 0x0FFF0400, 0x0, 0x0, 0x0, 0xFFFFFFF⟩
  | .PWR_SVAL i => ⟨0xF0000F00C0 + 0x4 * i, 0x0, 0x0, 0x0, 0x0, 0x0⟩
  | .PWR_PER k => ⟨0xF0000F0100 + 0x4 * k, 0xFA0, 0x0, 0x0, 0x0, 0x3FFF⟩
  | .PWR_COMP k => ⟨0xF0000F0120 + 0x4 * k, 0x400800, 0xFFFFFFFF, 0x0, 0x0, 0x0⟩
  | .PWR_LEDMAP r => ⟨0xF0000F0200 + 0x20 * r, 0x0, 0x8007FFFF, 0x0, 0x0, 0x0⟩
  | .PWR_LEDLIM r => ⟨0xF0000F0204 + 0x20 * r, 0x0, 0x0, 0x0, 0x0, 0xFFFFFFFF⟩
  | .PWR_LEDCFG r => ⟨0xF0000F0208 + 0x20 * r, 0x0, 0xFFFFFFFF, 0x0, 0x0, 0x0⟩
  | .PWR_LEDHR r => ⟨0xF0000F020C + 0x20 * r, 0x14400532, 0xFFFFFFFF, 0x0, 0x0, 0x0⟩
  | .PWR_LEDIDLE r => ⟨0xF0000F0210 + 0x20 * r, 0x1F40000, 0xFFFFFFFF, 0x0, 0x0, 0x0⟩
  | .PWR_LEDSTAT r => ⟨0xF0000F0214 + 0x20 * r, 0x0, 0x0, 0x0, 0x0, 0x0⟩
  | .PWR_LEDPK r => ⟨0xF0000F0218 + 0x20 * r, 0x0, 0x0, 0x0, 0x0, 0x0⟩
  | .HKP_CTL => ⟨0xF000100000, 0x0, 0x0, 0x0, 0x0, 0x0⟩
  | .HKP_STAT => ⟨0xF000100004, 0x0, 0x0, 0x0, 0x0, 0x0⟩
  | .HKP_EV => ⟨0xF000100008, 0x0, 0x0, 0x7FF, 0x0, 0x0⟩
  | .HKP_TJ => ⟨0xF00010000C, 0x0, 0x0, 0x0, 0x0, 0x0⟩
  | .HKP_TLB => ⟨0xF000100010, 0x0, 0x0, 0x0, 0x0, 0x0⟩
  | .HKP_JLIM => ⟨0xF000100014, 0x7300640, 0x0, 0x0, 0x0, 0xFFFFFFFF⟩
  | .HKP_LLIM => ⟨0xF000100018, 0x4B00460, 0x0, 0x0, 0x0, 0xFFFFFFFF⟩
  | .HKP_LTRIP => ⟨0xF00010001C, 0x200550, 0x0, 0x0, 0x0, 0xFFFFFFFF⟩
  | .HKP_RISE => ⟨0xF000100020, 0x20, 0x0, 0x0, 0x0, 0xFFFF⟩
  | .HKP_DERATE => ⟨0xF000100024, 0x8000, 0x0, 0x0, 0x0, 0x0⟩
  | .HKP_THVALID => ⟨0xF000100028, 0xFC00040, 0x0, 0x0, 0x0, 0xFFF0FFF⟩
  | .HKP_ROUNDS => ⟨0xF00010002C, 0x0, 0x0, 0x0, 0x0, 0x0⟩
  | .HKP_TRIPCNT => ⟨0xF000100030, 0x0, 0x0, 0x0, 0xFFFFFFFF, 0x0⟩
  | .HKP_DIEMAP => ⟨0xF000100034, 0x76543210, 0x0, 0x0, 0x0, 0x0⟩
  | .HKP_CH i => ⟨0xF000100040 + 0x4 * i, 0x0, 0x0, 0x0, 0x0, 0x3⟩
  | .HKP_VAL i => ⟨0xF0001000C0 + 0x4 * i, 0x0, 0x0, 0x0, 0x0, 0x0⟩
  | .HKP_DIE k => ⟨0xF000100140 + 0x4 * k, 0x0, 0x0, 0x0, 0x0, 0x0⟩
  | .HKP_TTAB k => ⟨0xF000100180 + 0x4 * k, 0x0, 0x0, 0x0, 0x0, 0xFFFF⟩
  | .HKP_I2CCFG => ⟨0xF000100200, 0x5000, 0x7F01, 0x0, 0x0, 0x0⟩
  | .HKP_I2CCMD => ⟨0xF000100204, 0x10000, 0x7FFFF, 0x0, 0x0, 0x0⟩
  | .HKP_I2CDATA => ⟨0xF000100208, 0x0, 0xFFFFFFFF, 0x0, 0x0, 0x0⟩
  | .HKP_I2CSTAT => ⟨0xF00010020C, 0x0, 0x0, 0x0, 0x0, 0x0⟩
  | .HKP_CSADDR s => ⟨0xF000100210 + 0x4 * s, 0x0, 0x8000007F, 0x0, 0x0, 0x0⟩
  | .HKP_CSM s c => ⟨0xF000100240 + 0x10 * s + 0x4 * c, 0x0, 0x0, 0x0, 0x0, 0x0⟩
  | .HKP_ID k => ⟨0xF000100300 + 0x4 * k, 0x0, 0x0, 0x0, 0x0, 0x0⟩
  | .HKP_SDCTL => ⟨0xF000100800, 0x0, 0x4, 0x0, 0x0, 0x0⟩
  | .HKP_SDSTAT => ⟨0xF000100804, 0x0, 0x0, 0x0, 0x0, 0x0⟩
  | .HKP_SDEV => ⟨0xF000100808, 0x0, 0x0, 0xF, 0x0, 0x0⟩
  | .HKP_SDLBA => ⟨0xF00010080C, 0x0, 0xFFFFFFFF, 0x0, 0x0, 0x0⟩
  | .HKP_SDCNT => ⟨0xF000100810, 0x1, 0xFFFF, 0x0, 0x0, 0x0⟩
  | .HKP_SDADDR => ⟨0xF000100814, 0x0, 0x7FFFFFFF, 0x0, 0x0, 0x0⟩
  | .HKP_SDCAP => ⟨0xF000100818, 0x0, 0x0, 0x0, 0x0, 0x0⟩
  | .HKP_SDPART => ⟨0xF00010081C, 0x0, 0x0, 0x0, 0x0, 0x0⟩
  | .HKP_SDPLEN => ⟨0xF000100820, 0x0, 0x0, 0x0, 0x0, 0x0⟩
  | .HKP_SDCRC => ⟨0xF000100824, 0x0, 0x0, 0x0, 0xFFFFFFFF, 0x0⟩
  | .ASR_STAT => ⟨0xF000110000, 0x0, 0x0, 0x0, 0x0, 0x0⟩
  | .ASR_EV => ⟨0xF000110004, 0x0, 0x0, 0xFF, 0x0, 0x0⟩
  | .ASR_CTL => ⟨0xF000110008, 0x0, 0x0, 0x0, 0x0, 0x0⟩
  | .ASR_NVGUARD => ⟨0xF00011000C, 0xE10000C, 0x0, 0x0, 0x0, 0xFFFF000F⟩
  | .ASR_NVSTAT => ⟨0xF000110010, 0xC, 0x0, 0x0, 0xFFFF0000, 0x0⟩
  | .ASR_NVQ => ⟨0xF000110014, 0x0, 0x7F, 0x0, 0x0, 0x0⟩
  | .ASR_CALCNT => ⟨0xF000110018, 0x0, 0x0, 0x0, 0x0, 0x0⟩
  | .ASR_CALTIME => ⟨0xF00011001C, 0x0, 0x0, 0x0, 0x0, 0x0⟩
  | .ASR_TRIMSTAT => ⟨0xF000110020, 0x0, 0x0, 0x0, 0x0, 0x0⟩
  | .ASR_SLICECFG => ⟨0xF000110024, 0x14, 0xFF, 0x0, 0x0, 0x0⟩
  | .ASR_SLICECTL => ⟨0xF000110028, 0x400, 0xFFFFF, 0x0, 0x0, 0x0⟩
  | .ASR_SLICESTAT => ⟨0xF00011002C, 0x0, 0x0, 0x0, 0x0, 0x0⟩
  | .ASR_FAILROW => ⟨0xF000110030, 0x0, 0x0, 0x0, 0x80000000, 0x0⟩
  | .ASR_TESTFAIL => ⟨0xF000110034, 0x0, 0x0, 0x0, 0xFFFFFFFF, 0x0⟩
  | .ASR_MAPSTAT => ⟨0xF000110038, 0x0, 0x0, 0xF0000, 0x0, 0x0⟩
  | .ASR_PROOFCFG => ⟨0xF00011003C, 0xA0400, 0xFFFFF01, 0x0, 0x0, 0x0⟩
  | .ASR_PROOFSTAT => ⟨0xF000110040, 0x0, 0x0, 0x0, 0x0, 0x0⟩
  | .ASR_STEPS => ⟨0xF000110044, 0x0, 0x0, 0x0, 0x0, 0x0⟩
  | .ASR_SIGHI => ⟨0xF000110048, 0x0, 0x0, 0x0, 0x0, 0x0⟩
  | .ASR_SIGLO => ⟨0xF00011004C, 0x0, 0x0, 0x0, 0x0, 0x0⟩
  | .ASR_ANCHSEQ => ⟨0xF000110050, 0x0, 0x0, 0x0, 0x0, 0x0⟩
  | .ASR_HEAD k => ⟨0xF000110060 + 0x4 * k, 0x0, 0x0, 0x0, 0x0, 0x0⟩
  | .ASR_DEVID k => ⟨0xF000110080 + 0x4 * k, 0x0, 0x0, 0x0, 0x0, 0x0⟩
  | .ASR_HKHASH k => ⟨0xF000110090 + 0x4 * k, 0x0, 0x0, 0x0, 0x0, 0x0⟩
  | .ASR_MKHASH k => ⟨0xF0001100B0 + 0x4 * k, 0x0, 0x0, 0x0, 0x0, 0x0⟩
  | .ASR_DEVPUB k => ⟨0xF000110100 + 0x4 * k, 0x0, 0x0, 0x0, 0x0, 0x0⟩
  | .ASR_TRIM k => ⟨0xF000110200 + 0x4 * k, 0x0, 0xFFFFFFFF, 0x0, 0x0, 0x0⟩
  | .ASR_TRIMF k => ⟨0xF000110300 + 0x4 * k, 0x0, 0x0, 0x0, 0x0, 0x0⟩
  | .MIR_CTL => ⟨0xF000120000, 0x0, 0x0, 0x0, 0x0, 0x0⟩
  | .MIR_CFG => ⟨0xF000120004, 0x2EE3207, 0xFFFFFF07, 0x0, 0x0, 0x0⟩
  | .MIR_STAT => ⟨0xF000120008, 0x0, 0x0, 0x800, 0x0, 0x0⟩
  | .MIR_EV => ⟨0xF00012000C, 0x0, 0x0, 0xFF, 0x0, 0x0⟩
  | .MIR_PEPOCH => ⟨0xF000120010, 0x0, 0x0, 0x0, 0x0, 0x0⟩
  | .MIR_HOSEC => ⟨0xF000120014, 0x0, 0xFFFFFFFF, 0x0, 0x0, 0x0⟩
  | .MIR_HONS => ⟨0xF000120018, 0x0, 0x3FFFFFFF, 0x0, 0x0, 0x0⟩
  | .MIR_HRBASE => ⟨0xF00012001C, 0x0, 0x8FFFFFFF, 0x0, 0x0, 0x0⟩
  | .MIR_HRHEAD => ⟨0xF000120020, 0x0, 0x0, 0x0, 0x0, 0x0⟩
  | .MIR_HRTAIL => ⟨0xF000120024, 0x0, 0x3F, 0x0, 0x0, 0x0⟩
  | .MIR_HRDROP => ⟨0xF000120028, 0x0, 0x0, 0x0, 0xFFFFFFFF, 0x0⟩
  | .MIR_CKSRC => ⟨0xF00012002C, 0x0, 0xFFFFFFF, 0x0, 0x0, 0x0⟩
  | .MIR_CKDST => ⟨0xF000120030, 0x0, 0xFFFFFFF, 0x0, 0x0, 0x0⟩
  | .MIR_CKLEN => ⟨0xF000120034, 0x1, 0x1FFF, 0x0, 0x0, 0x0⟩
  | .MIR_CKSTAT => ⟨0xF000120038, 0x0, 0x0, 0x0, 0x20000, 0x0⟩
  | .MIR_XCOK => ⟨0xF00012003C, 0x0, 0x0, 0x0, 0xFFFFFFFF, 0x0⟩
  | .MIR_XCERR => ⟨0xF000120040, 0x0, 0x0, 0x0, 0xFFFFFFFF, 0x0⟩
  | .MIR_XCLAST => ⟨0xF000120044, 0x0, 0x0, 0x0, 0x0, 0x0⟩
  | .MIR_HBMISS => ⟨0xF000120048, 0x0, 0x0, 0x0, 0xFFFFFFFF, 0x0⟩
  | .MIR_TAKES => ⟨0xF00012004C, 0x0, 0x0, 0x0, 0xFFFFFFFF, 0x0⟩
  | .MIR_ORPHAN => ⟨0xF000120050, 0x0, 0x0, 0x0, 0xFFFFFFFF, 0x0⟩
  | .BOT_STAT => ⟨0xF000130000, 0x1, 0x0, 0x0, 0x0, 0x0⟩
  | .BOT_EV => ⟨0xF000130004, 0x0, 0x0, 0x3F, 0x0, 0x0⟩
  | .BOT_CTL => ⟨0xF000130008, 0x0, 0x0, 0x0, 0x0, 0x0⟩
  | .BOT_RESET => ⟨0xF00013000C, 0x0, 0x0, 0x0, 0x0, 0x0⟩
  | .BOT_LCS => ⟨0xF000130010, 0x0, 0x0, 0x0, 0x0, 0x0⟩
  | .BOT_LCTL => ⟨0xF000130014, 0x0, 0x0, 0x0, 0x0, 0x0⟩
  | .BOT_NONCE => ⟨0xF000130018, 0x0, 0x0, 0x0, 0x0, 0x0⟩
  | .BOT_MVER => ⟨0xF00013001C, 0x0, 0x0, 0x0, 0x0, 0x0⟩
  | .BOT_MDIG => ⟨0xF000130020, 0x0, 0x0, 0x0, 0x0, 0x0⟩
  | .BOT_MARKER => ⟨0xF000130024, 0x0, 0x0, 0x0, 0x0, 0x0⟩
  | .BOT_DAWNCFG => ⟨0xF000130028, 0x1E01F4, 0xFFFFFFFF, 0x0, 0x0, 0x0⟩
  | .BOT_DUSKCFG => ⟨0xF00013002C, 0xC8, 0xFFFF, 0x0, 0x0, 0x0⟩
  | .BOT_DUSKSTAT => ⟨0xF000130030, 0x0, 0x0, 0x0, 0x0, 0x0⟩
  | .BOT_SEAL => ⟨0xF000130034, 0x0, 0x0, 0x0, 0x0, 0x0⟩
  | .BOT_MCHK => ⟨0xF000130038, 0x0, 0x0, 0x0, 0x0, 0x0⟩
  | .BOT_MCHKSTAT => ⟨0xF00013003C, 0x0, 0x0, 0x0, 0x0, 0x0⟩
  | .BOT_FLOOR j => ⟨0xF000130040 + 0x4 * j, 0x0, 0x0, 0x0, 0x0, 0x0⟩

/-- The local address of a word (R523). -/
def Reg.addr (r : Reg) : Nat := r.info.addr

/-- The indices of an array word lie in the range its table gives. -/
def Reg.inRange : Reg → Bool
  | .LAN_CTL n => decide (n < 36)
  | .LAN_STAT n => decide (n < 36)
  | .LAN_TXEQ n => decide (n < 36)
  | .LAN_RXEQ n => decide (n < 36)
  | .LAN_EYE n => decide (n < 36)
  | .LAN_EYEMIN n => decide (n < 36)
  | .LAN_EYEAVG n => decide (n < 36)
  | .LAN_PEYE n => decide (n < 36)
  | .LAN_RXALIGN n => decide (n < 36)
  | .LAN_ERRCNT n => decide (n < 36)
  | .LAN_RETRY n => decide (n < 36)
  | .LAN_PARTNER n => decide (n < 36)
  | .LAN_PSUB p => decide (p < 9)
  | .LNK_PCTL p => decide (p < 9)
  | .LNK_PSTAT p => decide (p < 9)
  | .LNK_CRCERR p => decide (p < 9)
  | .LNK_RETRYCNT p => decide (p < 9)
  | .LNK_DROP p => decide (p < 9)
  | .LNK_STALE p => decide (p < 9)
  | .LNK_TAGS p => decide (p < 9)
  | .LNK_TXNERR p => decide (p < 9)
  | .LNK_EPOCH c => decide (c < 8)
  | .LNK_ANNOUNCE c => decide (c < 8)
  | .LNK_RING c => decide (c < 8)
  | .LNK_GENKEY c e => decide (c < 8) && decide (e < 16)
  | .LNK_GENDONE c e j => decide (c < 8) && decide (e < 16) && decide (j < 4)
  | .LNK_GENMISS c e j => decide (c < 8) && decide (e < 16) && decide (j < 4)
  | .TIM_LDELAY p => decide (p < 9)
  | .TIM_ASYM p => decide (p < 9)
  | .TIM_LDCNT p => decide (p < 9)
  | .TIM_LQPUSH p => decide (p < 8)
  | .TIM_LQSTAT p => decide (p < 8)
  | .TIM_LQCTL p => decide (p < 8)
  | .TIM_LQCNT p => decide (p < 8)
  | .TIM_CAPCFG i => decide (i < 4)
  | .TIM_CAPSEC i => decide (i < 4)
  | .TIM_CAPNS i => decide (i < 4)
  | .TIM_CAPFR i => decide (i < 4)
  | .TIM_PULCFG i => decide (i < 4)
  | .TIM_PULOFF i => decide (i < 4)
  | .TIM_PULWID i => decide (i < 4)
  | .CLK_DSTAT d => decide (d < 5)
  | .ING_QCFG q => decide (q < 2)
  | .ING_QFEC q => decide (q < 2)
  | .ING_PADDR i => decide (i < 8)
  | .ING_PSTAT i => decide (i < 8)
  | .ING_PDROP i => decide (i < 8)
  | .ING_SCTL s => decide (s < 16)
  | .ING_SSTAT s => decide (s < 16)
  | .ING_SFMT s => decide (s < 16)
  | .ING_SSIZE s => decide (s < 16)
  | .ING_SRATE s => decide (s < 16)
  | .ING_SHANDLE s => decide (s < 16)
  | .ING_SFILL s => decide (s < 16)
  | .ING_SSTAGE s => decide (s < 16)
  | .ING_SDSTA s => decide (s < 16)
  | .ING_SPORTA s => decide (s < 16)
  | .ING_SDSTB s => decide (s < 16)
  | .ING_SPORTB s => decide (s < 16)
  | .ING_SLAST s => decide (s < 16)
  | .ING_SCAPHI s => decide (s < 16)
  | .ING_SCAPLO s => decide (s < 16)
  | .ING_SROWS s => decide (s < 16)
  | .ING_SLOSTPKT s => decide (s < 16)
  | .ING_SDUP s => decide (s < 16)
  | .ING_SFRDROP s => decide (s < 16)
  | .ING_SBADPKT s => decide (s < 16)
  | .SRF_QGEN j => decide (j < 4)
  | .CMP_BIND s => decide (s < 2)
  | .CMP_LSTAT l => decide (l < 16)
  | .CMP_LCHK l => decide (l < 16)
  | .COR_ACC j => decide (j < 4)
  | .COR_MGAIN c => decide (c < 3)
  | .COR_CMAX c => decide (c < 3)
  | .COR_ZMAP j => decide (j < 2)
  | .COR_ZTEMP z => decide (z < 16)
  | .COR_LOOP c => decide (c < 3)
  | .COR_WREF s c => decide (s < 8) && decide (c < 3)
  | .COR_WEXP s c => decide (s < 8) && decide (c < 3)
  | .SCN_GCTL g => decide (g < 16)
  | .SCN_GSTAT g => decide (g < 16)
  | .SCN_GARM g => decide (g < 16)
  | .SCN_GTIME g => decide (g < 16)
  | .LMP_HR g => decide (g < 16)
  | .LMP_RBPTR g => decide (g < 16)
  | .LMP_SWEEPS g => decide (g < 16)
  | .LMP_PSTAT p => decide (p < 128)
  | .LMP_PCNT p => decide (p < 128)
  | .LMP_PADFAIL p => decide (p < 128)
  | .HRC_CTL n => decide (n < 5)
  | .HRC_STAT n => decide (n < 5)
  | .HRC_PCLO n => decide (n < 5)
  | .HRC_PCHI n => decide (n < 5)
  | .HRC_CFG n => decide (n < 5)
  | .EVT_PEND j => decide (j < 16)
  | .EVT_ROUTE k => decide (k < 512)
  | .HST_DBVAL n => decide (n < 12)
  | .MEM_PORT i => decide (i < 8)
  | .MEM_PWAIT i => decide (i < 8)
  | .MEM_CHSTAT ch => decide (ch < 2)
  | .MEM_CHEV ch => decide (ch < 2)
  | .MEM_ADJ ch => decide (ch < 2)
  | .MEM_CECNT ch => decide (ch < 2)
  | .MEM_CETHR ch => decide (ch < 2)
  | .MEM_UECNT ch => decide (ch < 2)
  | .MEM_ECCLOG ch => decide (ch < 2)
  | .MEM_CAPAR ch => decide (ch < 2)
  | .MEM_NBRCNT ch => decide (ch < 2)
  | .MEM_PPR ch => decide (ch < 2)
  | .MEM_RMCTL ch => decide (ch < 2)
  | .MEM_REMAP ch e => decide (ch < 2) && decide (e < 64)
  | .PWR_PHASE k => decide (k < 12)
  | .PWR_SNS i => decide (i < 16)
  | .PWR_SVAL i => decide (i < 16)
  | .PWR_PER k => decide (k < 5)
  | .PWR_COMP k => decide (k < 5)
  | .PWR_LEDMAP r => decide (r < 4)
  | .PWR_LEDLIM r => decide (r < 4)
  | .PWR_LEDCFG r => decide (r < 4)
  | .PWR_LEDHR r => decide (r < 4)
  | .PWR_LEDIDLE r => decide (r < 4)
  | .PWR_LEDSTAT r => decide (r < 4)
  | .PWR_LEDPK r => decide (r < 4)
  | .HKP_CH i => decide (i < 32)
  | .HKP_VAL i => decide (i < 32)
  | .HKP_DIE k => decide (k < 10)
  | .HKP_TTAB k => decide (k < 17)
  | .HKP_CSADDR s => decide (s < 8)
  | .HKP_CSM s c => decide (s < 8) && decide (c < 3)
  | .HKP_ID k => decide (k < 8)
  | .ASR_HEAD k => decide (k < 8)
  | .ASR_DEVID k => decide (k < 4)
  | .ASR_HKHASH k => decide (k < 8)
  | .ASR_MKHASH k => decide (k < 12)
  | .ASR_DEVPUB k => decide (k < 16)
  | .ASR_TRIM k => decide (k < 59)
  | .ASR_TRIMF k => decide (k < 59)
  | .BOT_FLOOR j => decide (j < 8)
  | _ => true

/-- The unit number of a word block (Table 22.1). -/
def Reg.unit (r : Reg) : Nat := (r.addr / 0x10000) % 0x10000

/-- The word at an offset of the LAN block, if its table lists one. -/
def Reg.ofLAN (o : Nat) : Option Reg :=
  if 0x0 ≤ o ∧ o < 0x900 ∧ (o - 0x0) % 0x40 = 0 then some (.LAN_CTL ((o - 0x0) / 0x40)) else
  if 0x4 ≤ o ∧ o < 0x904 ∧ (o - 0x4) % 0x40 = 0 then some (.LAN_STAT ((o - 0x4) / 0x40)) else
  if 0x8 ≤ o ∧ o < 0x908 ∧ (o - 0x8) % 0x40 = 0 then some (.LAN_TXEQ ((o - 0x8) / 0x40)) else
  if 0xC ≤ o ∧ o < 0x90C ∧ (o - 0xC) % 0x40 = 0 then some (.LAN_RXEQ ((o - 0xC) / 0x40)) else
  if 0x10 ≤ o ∧ o < 0x910 ∧ (o - 0x10) % 0x40 = 0 then some (.LAN_EYE ((o - 0x10) / 0x40)) else
  if 0x14 ≤ o ∧ o < 0x914 ∧ (o - 0x14) % 0x40 = 0 then some (.LAN_EYEMIN ((o - 0x14) / 0x40)) else
  if 0x18 ≤ o ∧ o < 0x918 ∧ (o - 0x18) % 0x40 = 0 then some (.LAN_EYEAVG ((o - 0x18) / 0x40)) else
  if 0x1C ≤ o ∧ o < 0x91C ∧ (o - 0x1C) % 0x40 = 0 then some (.LAN_PEYE ((o - 0x1C) / 0x40)) else
  if 0x20 ≤ o ∧ o < 0x920 ∧ (o - 0x20) % 0x40 = 0 then some (.LAN_RXALIGN ((o - 0x20) / 0x40)) else
  if 0x24 ≤ o ∧ o < 0x924 ∧ (o - 0x24) % 0x40 = 0 then some (.LAN_ERRCNT ((o - 0x24) / 0x40)) else
  if 0x28 ≤ o ∧ o < 0x928 ∧ (o - 0x28) % 0x40 = 0 then some (.LAN_RETRY ((o - 0x28) / 0x40)) else
  if 0x2C ≤ o ∧ o < 0x92C ∧ (o - 0x2C) % 0x40 = 0 then some (.LAN_PARTNER ((o - 0x2C) / 0x40)) else
  if 0x1000 ≤ o ∧ o < 0x1024 ∧ (o - 0x1000) % 0x4 = 0 then some (.LAN_PSUB ((o - 0x1000) / 0x4)) else
  if o = 0x2000 then some .LAN_SURV else
  if o = 0x2004 then some .LAN_EYELIM else
  none

/-- The word at an offset of the LNK block, if its table lists one. -/
def Reg.ofLNK (o : Nat) : Option Reg :=
  if 0x0 ≤ o ∧ o < 0x240 ∧ (o - 0x0) % 0x40 = 0 then some (.LNK_PCTL ((o - 0x0) / 0x40)) else
  if 0x4 ≤ o ∧ o < 0x244 ∧ (o - 0x4) % 0x40 = 0 then some (.LNK_PSTAT ((o - 0x4) / 0x40)) else
  if 0x8 ≤ o ∧ o < 0x248 ∧ (o - 0x8) % 0x40 = 0 then some (.LNK_CRCERR ((o - 0x8) / 0x40)) else
  if 0xC ≤ o ∧ o < 0x24C ∧ (o - 0xC) % 0x40 = 0 then some (.LNK_RETRYCNT ((o - 0xC) / 0x40)) else
  if 0x10 ≤ o ∧ o < 0x250 ∧ (o - 0x10) % 0x40 = 0 then some (.LNK_DROP ((o - 0x10) / 0x40)) else
  if 0x14 ≤ o ∧ o < 0x254 ∧ (o - 0x14) % 0x40 = 0 then some (.LNK_STALE ((o - 0x14) / 0x40)) else
  if 0x18 ≤ o ∧ o < 0x258 ∧ (o - 0x18) % 0x40 = 0 then some (.LNK_TAGS ((o - 0x18) / 0x40)) else
  if 0x1C ≤ o ∧ o < 0x25C ∧ (o - 0x1C) % 0x40 = 0 then some (.LNK_TXNERR ((o - 0x1C) / 0x40)) else
  if o = 0x400 then some .LNK_CFG else
  if o = 0x404 then some .LNK_TXTIMEOUT else
  if o = 0x408 then some .LNK_VC2RATE else
  if o = 0x40C then some .LNK_MRXBASE else
  if o = 0x410 then some .LNK_MRXCFG else
  if o = 0x414 then some .LNK_MRXHEAD else
  if o = 0x418 then some .LNK_MRXTAIL else
  if o = 0x41C then some .LNK_MRXDROP else
  if o = 0x420 then some .LNK_RPLBASE else
  if o = 0x424 then some .LNK_POS else
  if o = 0x428 then some .LNK_MASTER else
  if o = 0x42C then some .LNK_TOKCNT else
  if 0x440 ≤ o ∧ o < 0x460 ∧ (o - 0x440) % 0x4 = 0 then some (.LNK_EPOCH ((o - 0x440) / 0x4)) else
  if 0x460 ≤ o ∧ o < 0x480 ∧ (o - 0x460) % 0x4 = 0 then some (.LNK_ANNOUNCE ((o - 0x460) / 0x4)) else
  if 0x480 ≤ o ∧ o < 0x4A0 ∧ (o - 0x480) % 0x4 = 0 then some (.LNK_RING ((o - 0x480) / 0x4)) else
  if 0x4000 ≤ o ∧ (o - 0x4000) / 0x400 < 8 ∧ (o - 0x4000) % 0x400 / 0x40 < 16 ∧ (o - 0x4000) % 0x400 % 0x40 = 0 then
    some (.LNK_GENKEY ((o - 0x4000) / 0x400) ((o - 0x4000) % 0x400 / 0x40)) else
  if 0x4004 ≤ o ∧ (o - 0x4004) / 0x400 < 8 ∧ (o - 0x4004) % 0x400 / 0x40 < 16 ∧ (o - 0x4004) % 0x400 % 0x40 / 0x4 < 4 ∧ (o - 0x4004) % 0x400 % 0x40 % 0x4 = 0 then
    some (.LNK_GENDONE ((o - 0x4004) / 0x400) ((o - 0x4004) % 0x400 / 0x40) ((o - 0x4004) % 0x400 % 0x40 / 0x4)) else
  if 0x4014 ≤ o ∧ (o - 0x4014) / 0x400 < 8 ∧ (o - 0x4014) % 0x400 / 0x40 < 16 ∧ (o - 0x4014) % 0x400 % 0x40 / 0x4 < 4 ∧ (o - 0x4014) % 0x400 % 0x40 % 0x4 = 0 then
    some (.LNK_GENMISS ((o - 0x4014) / 0x400) ((o - 0x4014) % 0x400 / 0x40) ((o - 0x4014) % 0x400 % 0x40 / 0x4)) else
  none

/-- The word at an offset of the TIM block, if its table lists one. -/
def Reg.ofTIM (o : Nat) : Option Reg :=
  if o = 0x0 then some .TIM_CFG else
  if o = 0x4 then some .TIM_STAT else
  if o = 0x8 then some .TIM_EV else
  if o = 0xC then some .TIM_JUMPLIM else
  if o = 0x10 then some .TIM_RATE else
  if o = 0x14 then some .TIM_OFFSET else
  if o = 0x18 then some .TIM_STEPS else
  if o = 0x1C then some .TIM_STEPNS else
  if o = 0x20 then some .TIM_TCPER else
  if o = 0x24 then some .TIM_LDPER else
  if o = 0x28 then some .TIM_HOLDMAX else
  if o = 0x2C then some .TIM_LOCKLIM else
  if o = 0x30 then some .TIM_TCSTAT else
  if o = 0x34 then some .TIM_TCCNT else
  if o = 0x38 then some .TIM_FPER else
  if o = 0x3C then some .TIM_FPERFR else
  if o = 0x40 then some .TIM_FPERCID else
  if o = 0x44 then some .TIM_SNAP else
  if o = 0x48 then some .TIM_SNAPSH else
  if o = 0x4C then some .TIM_SNAPSL else
  if o = 0x50 then some .TIM_SNAPNS else
  if o = 0x54 then some .TIM_SNAPFR else
  if 0x100 ≤ o ∧ o < 0x190 ∧ (o - 0x100) % 0x10 = 0 then some (.TIM_LDELAY ((o - 0x100) / 0x10)) else
  if 0x104 ≤ o ∧ o < 0x194 ∧ (o - 0x104) % 0x10 = 0 then some (.TIM_ASYM ((o - 0x104) / 0x10)) else
  if 0x108 ≤ o ∧ o < 0x198 ∧ (o - 0x108) % 0x10 = 0 then some (.TIM_LDCNT ((o - 0x108) / 0x10)) else
  if 0x200 ≤ o ∧ o < 0x280 ∧ (o - 0x200) % 0x10 = 0 then some (.TIM_LQPUSH ((o - 0x200) / 0x10)) else
  if 0x204 ≤ o ∧ o < 0x284 ∧ (o - 0x204) % 0x10 = 0 then some (.TIM_LQSTAT ((o - 0x204) / 0x10)) else
  if 0x208 ≤ o ∧ o < 0x288 ∧ (o - 0x208) % 0x10 = 0 then some (.TIM_LQCTL ((o - 0x208) / 0x10)) else
  if 0x20C ≤ o ∧ o < 0x28C ∧ (o - 0x20C) % 0x10 = 0 then some (.TIM_LQCNT ((o - 0x20C) / 0x10)) else
  if 0x300 ≤ o ∧ o < 0x340 ∧ (o - 0x300) % 0x10 = 0 then some (.TIM_CAPCFG ((o - 0x300) / 0x10)) else
  if 0x304 ≤ o ∧ o < 0x344 ∧ (o - 0x304) % 0x10 = 0 then some (.TIM_CAPSEC ((o - 0x304) / 0x10)) else
  if 0x308 ≤ o ∧ o < 0x348 ∧ (o - 0x308) % 0x10 = 0 then some (.TIM_CAPNS ((o - 0x308) / 0x10)) else
  if 0x30C ≤ o ∧ o < 0x34C ∧ (o - 0x30C) % 0x10 = 0 then some (.TIM_CAPFR ((o - 0x30C) / 0x10)) else
  if 0x400 ≤ o ∧ o < 0x440 ∧ (o - 0x400) % 0x10 = 0 then some (.TIM_PULCFG ((o - 0x400) / 0x10)) else
  if 0x404 ≤ o ∧ o < 0x444 ∧ (o - 0x404) % 0x10 = 0 then some (.TIM_PULOFF ((o - 0x404) / 0x10)) else
  if 0x408 ≤ o ∧ o < 0x448 ∧ (o - 0x408) % 0x10 = 0 then some (.TIM_PULWID ((o - 0x408) / 0x10)) else
  none

/-- The word at an offset of the CLK block, if its table lists one. -/
def Reg.ofCLK (o : Nat) : Option Reg :=
  if o = 0x0 then some .CLK_STAT else
  if o = 0x4 then some .CLK_EV else
  if o = 0x8 then some .CLK_START else
  if o = 0xC then some .CLK_GATE else
  if 0x10 ≤ o ∧ o < 0x24 ∧ (o - 0x10) % 0x4 = 0 then some (.CLK_DSTAT ((o - 0x10) / 0x4)) else
  none

/-- The word at an offset of the ING block, if its table lists one. -/
def Reg.ofING (o : Nat) : Option Reg :=
  if 0x0 ≤ o ∧ o < 0x8 ∧ (o - 0x0) % 0x4 = 0 then some (.ING_QCFG ((o - 0x0) / 0x4)) else
  if 0x8 ≤ o ∧ o < 0x10 ∧ (o - 0x8) % 0x4 = 0 then some (.ING_QFEC ((o - 0x8) / 0x4)) else
  if o = 0x10 then some .ING_MACLO else
  if o = 0x14 then some .ING_MACHI else
  if 0x20 ≤ o ∧ o < 0x40 ∧ (o - 0x20) % 0x4 = 0 then some (.ING_PADDR ((o - 0x20) / 0x4)) else
  if 0x40 ≤ o ∧ o < 0x60 ∧ (o - 0x40) % 0x4 = 0 then some (.ING_PSTAT ((o - 0x40) / 0x4)) else
  if 0x60 ≤ o ∧ o < 0x80 ∧ (o - 0x60) % 0x4 = 0 then some (.ING_PDROP ((o - 0x60) / 0x4)) else
  if o = 0x80 then some .ING_PTPCFG else
  if o = 0x84 then some .ING_PTPSTAT else
  if o = 0x88 then some .ING_PTPGMHI else
  if o = 0x8C then some .ING_PTPGMLO else
  if o = 0x90 then some .ING_PTPUTC else
  if o = 0x94 then some .ING_RATESUM else
  if 0x1000 ≤ o ∧ o < 0x1800 ∧ (o - 0x1000) % 0x80 = 0 then some (.ING_SCTL ((o - 0x1000) / 0x80)) else
  if 0x1004 ≤ o ∧ o < 0x1804 ∧ (o - 0x1004) % 0x80 = 0 then some (.ING_SSTAT ((o - 0x1004) / 0x80)) else
  if 0x1008 ≤ o ∧ o < 0x1808 ∧ (o - 0x1008) % 0x80 = 0 then some (.ING_SFMT ((o - 0x1008) / 0x80)) else
  if 0x100C ≤ o ∧ o < 0x180C ∧ (o - 0x100C) % 0x80 = 0 then some (.ING_SSIZE ((o - 0x100C) / 0x80)) else
  if 0x1010 ≤ o ∧ o < 0x1810 ∧ (o - 0x1010) % 0x80 = 0 then some (.ING_SRATE ((o - 0x1010) / 0x80)) else
  if 0x1014 ≤ o ∧ o < 0x1814 ∧ (o - 0x1014) % 0x80 = 0 then some (.ING_SHANDLE ((o - 0x1014) / 0x80)) else
  if 0x1018 ≤ o ∧ o < 0x1818 ∧ (o - 0x1018) % 0x80 = 0 then some (.ING_SFILL ((o - 0x1018) / 0x80)) else
  if 0x101C ≤ o ∧ o < 0x181C ∧ (o - 0x101C) % 0x80 = 0 then some (.ING_SSTAGE ((o - 0x101C) / 0x80)) else
  if 0x1020 ≤ o ∧ o < 0x1820 ∧ (o - 0x1020) % 0x80 = 0 then some (.ING_SDSTA ((o - 0x1020) / 0x80)) else
  if 0x1024 ≤ o ∧ o < 0x1824 ∧ (o - 0x1024) % 0x80 = 0 then some (.ING_SPORTA ((o - 0x1024) / 0x80)) else
  if 0x1028 ≤ o ∧ o < 0x1828 ∧ (o - 0x1028) % 0x80 = 0 then some (.ING_SDSTB ((o - 0x1028) / 0x80)) else
  if 0x102C ≤ o ∧ o < 0x182C ∧ (o - 0x102C) % 0x80 = 0 then some (.ING_SPORTB ((o - 0x102C) / 0x80)) else
  if 0x1030 ≤ o ∧ o < 0x1830 ∧ (o - 0x1030) % 0x80 = 0 then some (.ING_SLAST ((o - 0x1030) / 0x80)) else
  if 0x1034 ≤ o ∧ o < 0x1834 ∧ (o - 0x1034) % 0x80 = 0 then some (.ING_SCAPHI ((o - 0x1034) / 0x80)) else
  if 0x1038 ≤ o ∧ o < 0x1838 ∧ (o - 0x1038) % 0x80 = 0 then some (.ING_SCAPLO ((o - 0x1038) / 0x80)) else
  if 0x103C ≤ o ∧ o < 0x183C ∧ (o - 0x103C) % 0x80 = 0 then some (.ING_SROWS ((o - 0x103C) / 0x80)) else
  if 0x1040 ≤ o ∧ o < 0x1840 ∧ (o - 0x1040) % 0x80 = 0 then some (.ING_SLOSTPKT ((o - 0x1040) / 0x80)) else
  if 0x1044 ≤ o ∧ o < 0x1844 ∧ (o - 0x1044) % 0x80 = 0 then some (.ING_SDUP ((o - 0x1044) / 0x80)) else
  if 0x1048 ≤ o ∧ o < 0x1848 ∧ (o - 0x1048) % 0x80 = 0 then some (.ING_SFRDROP ((o - 0x1048) / 0x80)) else
  if 0x104C ≤ o ∧ o < 0x184C ∧ (o - 0x104C) % 0x80 = 0 then some (.ING_SBADPKT ((o - 0x104C) / 0x80)) else
  none

/-- The word at an offset of the SRF block, if its table lists one. -/
def Reg.ofSRF (o : Nat) : Option Reg :=
  if o = 0x0 then some .SRF_HTBASE else
  if o = 0x4 then some .SRF_CMD else
  if o = 0x8 then some .SRF_CMDSTAT else
  if o = 0xC then some .SRF_QSTAT else
  if o = 0x10 then some .SRF_QSLOTS else
  if 0x14 ≤ o ∧ o < 0x24 ∧ (o - 0x14) % 0x4 = 0 then some (.SRF_QGEN ((o - 0x14) / 0x4)) else
  if o = 0x24 then some .SRF_QNEWEST else
  if o = 0x28 then some .SRF_QRETR else
  if o = 0x30 then some .SRF_EV else
  if o = 0x34 then some .SRF_OCCPEND else
  if o = 0x38 then some .SRF_OCCPEAK else
  if o = 0x3C then some .SRF_RXCHK else
  if o = 0x40 then some .SRF_NOSLOT else
  if o = 0x44 then some .SRF_DROPCNT else
  if o = 0x48 then some .SRF_LATECNT else
  if o = 0x4C then some .SRF_FREEDCNT else
  none

/-- The word at an offset of the CMP block, if its table lists one. -/
def Reg.ofCMP (o : Nat) : Option Reg :=
  if o = 0x0 then some .CMP_CTL else
  if o = 0x4 then some .CMP_CFG else
  if o = 0x8 then some .CMP_STAT else
  if o = 0xC then some .CMP_EV else
  if o = 0x10 then some .CMP_CID else
  if 0x14 ≤ o ∧ o < 0x1C ∧ (o - 0x14) % 0x4 = 0 then some (.CMP_BIND ((o - 0x14) / 0x4)) else
  if o = 0x1C then some .CMP_LATETOK else
  if o = 0x20 then some .CMP_CIDERR else
  if o = 0x24 then some .CMP_OUTWIN else
  if o = 0x28 then some .CMP_FRAMES else
  if o = 0x2C then some .CMP_CTIME else
  if o = 0x30 then some .CMP_CTIMEMAX else
  if o = 0x34 then some .CMP_LANEMAP else
  if 0x100 ≤ o ∧ o < 0x180 ∧ (o - 0x100) % 0x8 = 0 then some (.CMP_LSTAT ((o - 0x100) / 0x8)) else
  if 0x104 ≤ o ∧ o < 0x184 ∧ (o - 0x104) % 0x8 = 0 then some (.CMP_LCHK ((o - 0x104) / 0x8)) else
  none

/-- The word at an offset of the COR block, if its table lists one. -/
def Reg.ofCOR (o : Nat) : Option Reg :=
  if o = 0x0 then some .COR_CFG else
  if o = 0x4 then some .COR_STAT else
  if o = 0x8 then some .COR_EV else
  if o = 0xC then some .COR_CTXBASE else
  if o = 0x10 then some .COR_ARMCID else
  if o = 0x14 then some .COR_LEDBASE else
  if o = 0x18 then some .COR_LEDCFG else
  if o = 0x1C then some .COR_LEDSEQ else
  if 0x20 ≤ o ∧ o < 0x30 ∧ (o - 0x20) % 0x4 = 0 then some (.COR_ACC ((o - 0x20) / 0x4)) else
  if 0x30 ≤ o ∧ o < 0x3C ∧ (o - 0x30) % 0x4 = 0 then some (.COR_MGAIN ((o - 0x30) / 0x4)) else
  if o = 0x3C then some .COR_DERATE else
  if o = 0x40 then some .COR_FADE else
  if 0x44 ≤ o ∧ o < 0x50 ∧ (o - 0x44) % 0x4 = 0 then some (.COR_CMAX ((o - 0x44) / 0x4)) else
  if o = 0x50 then some .COR_ZCFG else
  if o = 0x54 then some .COR_ZDEF else
  if 0x58 ≤ o ∧ o < 0x60 ∧ (o - 0x58) % 0x4 = 0 then some (.COR_ZMAP ((o - 0x58) / 0x4)) else
  if 0x60 ≤ o ∧ o < 0xA0 ∧ (o - 0x60) % 0x4 = 0 then some (.COR_ZTEMP ((o - 0x60) / 0x4)) else
  if o = 0xA0 then some .COR_LOOPCFG else
  if o = 0xA4 then some .COR_LOOPLIM else
  if o = 0xA8 then some .COR_EMIN else
  if 0xB0 ≤ o ∧ o < 0xBC ∧ (o - 0xB0) % 0x4 = 0 then some (.COR_LOOP ((o - 0xB0) / 0x4)) else
  if o = 0xC0 then some .COR_CTXERR else
  if o = 0xC4 then some .COR_LEDERR else
  if o = 0xC8 then some .COR_SATCNT else
  if o = 0xCC then some .COR_DEADCNT else
  if o = 0xD0 then some .COR_CTIME else
  if o = 0xD4 then some .COR_LANEMAP else
  if 0x100 ≤ o ∧ (o - 0x100) / 0x10 < 8 ∧ (o - 0x100) % 0x10 / 0x4 < 3 ∧ (o - 0x100) % 0x10 % 0x4 = 0 then
    some (.COR_WREF ((o - 0x100) / 0x10) ((o - 0x100) % 0x10 / 0x4)) else
  if 0x200 ≤ o ∧ (o - 0x200) / 0x10 < 8 ∧ (o - 0x200) % 0x10 / 0x4 < 3 ∧ (o - 0x200) % 0x10 % 0x4 = 0 then
    some (.COR_WEXP ((o - 0x200) / 0x10) ((o - 0x200) % 0x10 / 0x4)) else
  none

/-- The word at an offset of the SCN block, if its table lists one. -/
def Reg.ofSCN (o : Nat) : Option Reg :=
  if o = 0x0 then some .SCN_CTL else
  if o = 0x4 then some .SCN_STAT else
  if o = 0x8 then some .SCN_EV else
  if o = 0xC then some .SCN_GEOM else
  if o = 0x10 then some .SCN_DIAGCFG else
  if o = 0x14 then some .SCN_MISSCNT else
  if o = 0x18 then some .SCN_UNDERCNT else
  if o = 0x1C then some .SCN_DARKUS else
  if o = 0x20 then some .SCN_FRAMECNT else
  if o = 0x24 then some .SCN_FADECTL else
  if o = 0x28 then some .SCN_FADECID else
  if o = 0x2C then some .SCN_FADESTAT else
  if 0x100 ≤ o ∧ o < 0x200 ∧ (o - 0x100) % 0x10 = 0 then some (.SCN_GCTL ((o - 0x100) / 0x10)) else
  if 0x104 ≤ o ∧ o < 0x204 ∧ (o - 0x104) % 0x10 = 0 then some (.SCN_GSTAT ((o - 0x104) / 0x10)) else
  if 0x108 ≤ o ∧ o < 0x208 ∧ (o - 0x108) % 0x10 = 0 then some (.SCN_GARM ((o - 0x108) / 0x10)) else
  if 0x10C ≤ o ∧ o < 0x20C ∧ (o - 0x10C) % 0x10 = 0 then some (.SCN_GTIME ((o - 0x10C) / 0x10)) else
  none

/-- The word at an offset of the LMP block, if its table lists one. -/
def Reg.ofLMP (o : Nat) : Option Reg :=
  if o = 0x0 then some .LMP_CFG else
  if o = 0x4 then some .LMP_STAT else
  if o = 0x8 then some .LMP_STBASE else
  if o = 0xC then some .LMP_VWIN else
  if o = 0x10 then some .LMP_EPOCH else
  if 0x40 ≤ o ∧ o < 0x80 ∧ (o - 0x40) % 0x4 = 0 then some (.LMP_HR ((o - 0x40) / 0x4)) else
  if 0x80 ≤ o ∧ o < 0xC0 ∧ (o - 0x80) % 0x4 = 0 then some (.LMP_RBPTR ((o - 0x80) / 0x4)) else
  if 0xC0 ≤ o ∧ o < 0x100 ∧ (o - 0xC0) % 0x4 = 0 then some (.LMP_SWEEPS ((o - 0xC0) / 0x4)) else
  if 0x1000 ≤ o ∧ o < 0x1800 ∧ (o - 0x1000) % 0x10 = 0 then some (.LMP_PSTAT ((o - 0x1000) / 0x10)) else
  if 0x1004 ≤ o ∧ o < 0x1804 ∧ (o - 0x1004) % 0x10 = 0 then some (.LMP_PCNT ((o - 0x1004) / 0x10)) else
  if 0x1008 ≤ o ∧ o < 0x1808 ∧ (o - 0x1008) % 0x10 = 0 then some (.LMP_PADFAIL ((o - 0x1008) / 0x10)) else
  none

/-- The word at an offset of the HRC block, if its table lists one. -/
def Reg.ofHRC (o : Nat) : Option Reg :=
  if 0x0 ≤ o ∧ o < 0xA0 ∧ (o - 0x0) % 0x20 = 0 then some (.HRC_CTL ((o - 0x0) / 0x20)) else
  if 0x4 ≤ o ∧ o < 0xA4 ∧ (o - 0x4) % 0x20 = 0 then some (.HRC_STAT ((o - 0x4) / 0x20)) else
  if 0x8 ≤ o ∧ o < 0xA8 ∧ (o - 0x8) % 0x20 = 0 then some (.HRC_PCLO ((o - 0x8) / 0x20)) else
  if 0xC ≤ o ∧ o < 0xAC ∧ (o - 0xC) % 0x20 = 0 then some (.HRC_PCHI ((o - 0xC) / 0x20)) else
  if 0x10 ≤ o ∧ o < 0xB0 ∧ (o - 0x10) % 0x20 = 0 then some (.HRC_CFG ((o - 0x10) / 0x20)) else
  if o = 0x100 then some .HRC_MAP else
  if o = 0x104 then some .HRC_ECCCNT else
  none

/-- The word at an offset of the EVT block, if its table lists one. -/
def Reg.ofEVT (o : Nat) : Option Reg :=
  if 0x0 ≤ o ∧ o < 0x40 ∧ (o - 0x0) % 0x4 = 0 then some (.EVT_PEND ((o - 0x0) / 0x4)) else
  if o = 0x40 then some .EVT_FORCE else
  if o = 0x44 then some .EVT_ALERTSRC else
  if 0x1000 ≤ o ∧ o < 0x1800 ∧ (o - 0x1000) % 0x4 = 0 then some (.EVT_ROUTE ((o - 0x1000) / 0x4)) else
  none

/-- The word at an offset of the HST block, if its table lists one. -/
def Reg.ofHST (o : Nat) : Option Reg :=
  if o = 0x0 then some .HST_STAT else
  if o = 0x4 then some .HST_LEASE else
  if o = 0x8 then some .HST_HOLDER else
  if o = 0xC then some .HST_HOLDPORT else
  if o = 0x10 then some .HST_HCPORT else
  if o = 0x14 then some .HST_HCCFG else
  if o = 0x18 then some .HST_IPADDR else
  if o = 0x1C then some .HST_DROPCNT else
  if o = 0x20 then some .HST_AUTHFAIL else
  if o = 0x24 then some .HST_SEQERR else
  if o = 0x28 then some .HST_LEASECTL else
  if 0x40 ≤ o ∧ o < 0x70 ∧ (o - 0x40) % 0x4 = 0 then some (.HST_DBVAL ((o - 0x40) / 0x4)) else
  none

/-- The word at an offset of the MEM block, if its table lists one. -/
def Reg.ofMEM (o : Nat) : Option Reg :=
  if o = 0x0 then some .MEM_CFG else
  if o = 0x4 then some .MEM_STAT else
  if o = 0x8 then some .MEM_SIZE else
  if o = 0xC then some .MEM_SRCTL else
  if o = 0x10 then some .MEM_SCRUB else
  if o = 0x14 then some .MEM_NBR else
  if 0x20 ≤ o ∧ o < 0x40 ∧ (o - 0x20) % 0x4 = 0 then some (.MEM_PORT ((o - 0x20) / 0x4)) else
  if 0x40 ≤ o ∧ o < 0x60 ∧ (o - 0x40) % 0x4 = 0 then some (.MEM_PWAIT ((o - 0x40) / 0x4)) else
  if 0x100 ≤ o ∧ o < 0x180 ∧ (o - 0x100) % 0x40 = 0 then some (.MEM_CHSTAT ((o - 0x100) / 0x40)) else
  if 0x104 ≤ o ∧ o < 0x184 ∧ (o - 0x104) % 0x40 = 0 then some (.MEM_CHEV ((o - 0x104) / 0x40)) else
  if 0x108 ≤ o ∧ o < 0x188 ∧ (o - 0x108) % 0x40 = 0 then some (.MEM_ADJ ((o - 0x108) / 0x40)) else
  if 0x10C ≤ o ∧ o < 0x18C ∧ (o - 0x10C) % 0x40 = 0 then some (.MEM_CECNT ((o - 0x10C) / 0x40)) else
  if 0x110 ≤ o ∧ o < 0x190 ∧ (o - 0x110) % 0x40 = 0 then some (.MEM_CETHR ((o - 0x110) / 0x40)) else
  if 0x114 ≤ o ∧ o < 0x194 ∧ (o - 0x114) % 0x40 = 0 then some (.MEM_UECNT ((o - 0x114) / 0x40)) else
  if 0x118 ≤ o ∧ o < 0x198 ∧ (o - 0x118) % 0x40 = 0 then some (.MEM_ECCLOG ((o - 0x118) / 0x40)) else
  if 0x11C ≤ o ∧ o < 0x19C ∧ (o - 0x11C) % 0x40 = 0 then some (.MEM_CAPAR ((o - 0x11C) / 0x40)) else
  if 0x120 ≤ o ∧ o < 0x1A0 ∧ (o - 0x120) % 0x40 = 0 then some (.MEM_NBRCNT ((o - 0x120) / 0x40)) else
  if 0x124 ≤ o ∧ o < 0x1A4 ∧ (o - 0x124) % 0x40 = 0 then some (.MEM_PPR ((o - 0x124) / 0x40)) else
  if 0x128 ≤ o ∧ o < 0x1A8 ∧ (o - 0x128) % 0x40 = 0 then some (.MEM_RMCTL ((o - 0x128) / 0x40)) else
  if 0x1000 ≤ o ∧ (o - 0x1000) / 0x100 < 2 ∧ (o - 0x1000) % 0x100 / 0x4 < 64 ∧ (o - 0x1000) % 0x100 % 0x4 = 0 then
    some (.MEM_REMAP ((o - 0x1000) / 0x100) ((o - 0x1000) % 0x100 / 0x4)) else
  none

/-- The word at an offset of the PWR block, if its table lists one. -/
def Reg.ofPWR (o : Nat) : Option Reg :=
  if o = 0x0 then some .PWR_STAT else
  if o = 0x4 then some .PWR_EV else
  if o = 0x8 then some .PWR_VSET else
  if o = 0xC then some .PWR_VCORE else
  if o = 0x10 then some .PWR_AVSLIM else
  if o = 0x14 then some .PWR_AVSCFG else
  if o = 0x18 then some .PWR_AVSPRE else
  if o = 0x1C then some .PWR_AVSPCID else
  if o = 0x20 then some .PWR_SPEED else
  if o = 0x24 then some .PWR_SLACK else
  if o = 0x28 then some .PWR_SLACKMIN else
  if o = 0x2C then some .PWR_MID else
  if o = 0x30 then some .PWR_VIN else
  if o = 0x34 then some .PWR_VINVAL else
  if o = 0x38 then some .PWR_PHLIMCNT else
  if o = 0x3C then some .PWR_LEDSAFE else
  if 0x40 ≤ o ∧ o < 0x70 ∧ (o - 0x40) % 0x4 = 0 then some (.PWR_PHASE ((o - 0x40) / 0x4)) else
  if 0x80 ≤ o ∧ o < 0xC0 ∧ (o - 0x80) % 0x4 = 0 then some (.PWR_SNS ((o - 0x80) / 0x4)) else
  if 0xC0 ≤ o ∧ o < 0x100 ∧ (o - 0xC0) % 0x4 = 0 then some (.PWR_SVAL ((o - 0xC0) / 0x4)) else
  if 0x100 ≤ o ∧ o < 0x114 ∧ (o - 0x100) % 0x4 = 0 then some (.PWR_PER ((o - 0x100) / 0x4)) else
  if 0x120 ≤ o ∧ o < 0x134 ∧ (o - 0x120) % 0x4 = 0 then some (.PWR_COMP ((o - 0x120) / 0x4)) else
  if 0x200 ≤ o ∧ o < 0x280 ∧ (o - 0x200) % 0x20 = 0 then some (.PWR_LEDMAP ((o - 0x200) / 0x20)) else
  if 0x204 ≤ o ∧ o < 0x284 ∧ (o - 0x204) % 0x20 = 0 then some (.PWR_LEDLIM ((o - 0x204) / 0x20)) else
  if 0x208 ≤ o ∧ o < 0x288 ∧ (o - 0x208) % 0x20 = 0 then some (.PWR_LEDCFG ((o - 0x208) / 0x20)) else
  if 0x20C ≤ o ∧ o < 0x28C ∧ (o - 0x20C) % 0x20 = 0 then some (.PWR_LEDHR ((o - 0x20C) / 0x20)) else
  if 0x210 ≤ o ∧ o < 0x290 ∧ (o - 0x210) % 0x20 = 0 then some (.PWR_LEDIDLE ((o - 0x210) / 0x20)) else
  if 0x214 ≤ o ∧ o < 0x294 ∧ (o - 0x214) % 0x20 = 0 then some (.PWR_LEDSTAT ((o - 0x214) / 0x20)) else
  if 0x218 ≤ o ∧ o < 0x298 ∧ (o - 0x218) % 0x20 = 0 then some (.PWR_LEDPK ((o - 0x218) / 0x20)) else
  none

/-- The word at an offset of the HKP block, if its table lists one. -/
def Reg.ofHKP (o : Nat) : Option Reg :=
  if o = 0x0 then some .HKP_CTL else
  if o = 0x4 then some .HKP_STAT else
  if o = 0x8 then some .HKP_EV else
  if o = 0xC then some .HKP_TJ else
  if o = 0x10 then some .HKP_TLB else
  if o = 0x14 then some .HKP_JLIM else
  if o = 0x18 then some .HKP_LLIM else
  if o = 0x1C then some .HKP_LTRIP else
  if o = 0x20 then some .HKP_RISE else
  if o = 0x24 then some .HKP_DERATE else
  if o = 0x28 then some .HKP_THVALID else
  if o = 0x2C then some .HKP_ROUNDS else
  if o = 0x30 then some .HKP_TRIPCNT else
  if o = 0x34 then some .HKP_DIEMAP else
  if 0x40 ≤ o ∧ o < 0xC0 ∧ (o - 0x40) % 0x4 = 0 then some (.HKP_CH ((o - 0x40) / 0x4)) else
  if 0xC0 ≤ o ∧ o < 0x140 ∧ (o - 0xC0) % 0x4 = 0 then some (.HKP_VAL ((o - 0xC0) / 0x4)) else
  if 0x140 ≤ o ∧ o < 0x168 ∧ (o - 0x140) % 0x4 = 0 then some (.HKP_DIE ((o - 0x140) / 0x4)) else
  if 0x180 ≤ o ∧ o < 0x1C4 ∧ (o - 0x180) % 0x4 = 0 then some (.HKP_TTAB ((o - 0x180) / 0x4)) else
  if o = 0x200 then some .HKP_I2CCFG else
  if o = 0x204 then some .HKP_I2CCMD else
  if o = 0x208 then some .HKP_I2CDATA else
  if o = 0x20C then some .HKP_I2CSTAT else
  if 0x210 ≤ o ∧ o < 0x230 ∧ (o - 0x210) % 0x4 = 0 then some (.HKP_CSADDR ((o - 0x210) / 0x4)) else
  if 0x240 ≤ o ∧ (o - 0x240) / 0x10 < 8 ∧ (o - 0x240) % 0x10 / 0x4 < 3 ∧ (o - 0x240) % 0x10 % 0x4 = 0 then
    some (.HKP_CSM ((o - 0x240) / 0x10) ((o - 0x240) % 0x10 / 0x4)) else
  if 0x300 ≤ o ∧ o < 0x320 ∧ (o - 0x300) % 0x4 = 0 then some (.HKP_ID ((o - 0x300) / 0x4)) else
  if o = 0x800 then some .HKP_SDCTL else
  if o = 0x804 then some .HKP_SDSTAT else
  if o = 0x808 then some .HKP_SDEV else
  if o = 0x80C then some .HKP_SDLBA else
  if o = 0x810 then some .HKP_SDCNT else
  if o = 0x814 then some .HKP_SDADDR else
  if o = 0x818 then some .HKP_SDCAP else
  if o = 0x81C then some .HKP_SDPART else
  if o = 0x820 then some .HKP_SDPLEN else
  if o = 0x824 then some .HKP_SDCRC else
  none

/-- The word at an offset of the ASR block, if its table lists one. -/
def Reg.ofASR (o : Nat) : Option Reg :=
  if o = 0x0 then some .ASR_STAT else
  if o = 0x4 then some .ASR_EV else
  if o = 0x8 then some .ASR_CTL else
  if o = 0xC then some .ASR_NVGUARD else
  if o = 0x10 then some .ASR_NVSTAT else
  if o = 0x14 then some .ASR_NVQ else
  if o = 0x18 then some .ASR_CALCNT else
  if o = 0x1C then some .ASR_CALTIME else
  if o = 0x20 then some .ASR_TRIMSTAT else
  if o = 0x24 then some .ASR_SLICECFG else
  if o = 0x28 then some .ASR_SLICECTL else
  if o = 0x2C then some .ASR_SLICESTAT else
  if o = 0x30 then some .ASR_FAILROW else
  if o = 0x34 then some .ASR_TESTFAIL else
  if o = 0x38 then some .ASR_MAPSTAT else
  if o = 0x3C then some .ASR_PROOFCFG else
  if o = 0x40 then some .ASR_PROOFSTAT else
  if o = 0x44 then some .ASR_STEPS else
  if o = 0x48 then some .ASR_SIGHI else
  if o = 0x4C then some .ASR_SIGLO else
  if o = 0x50 then some .ASR_ANCHSEQ else
  if 0x60 ≤ o ∧ o < 0x80 ∧ (o - 0x60) % 0x4 = 0 then some (.ASR_HEAD ((o - 0x60) / 0x4)) else
  if 0x80 ≤ o ∧ o < 0x90 ∧ (o - 0x80) % 0x4 = 0 then some (.ASR_DEVID ((o - 0x80) / 0x4)) else
  if 0x90 ≤ o ∧ o < 0xB0 ∧ (o - 0x90) % 0x4 = 0 then some (.ASR_HKHASH ((o - 0x90) / 0x4)) else
  if 0xB0 ≤ o ∧ o < 0xE0 ∧ (o - 0xB0) % 0x4 = 0 then some (.ASR_MKHASH ((o - 0xB0) / 0x4)) else
  if 0x100 ≤ o ∧ o < 0x140 ∧ (o - 0x100) % 0x4 = 0 then some (.ASR_DEVPUB ((o - 0x100) / 0x4)) else
  if 0x200 ≤ o ∧ o < 0x2EC ∧ (o - 0x200) % 0x4 = 0 then some (.ASR_TRIM ((o - 0x200) / 0x4)) else
  if 0x300 ≤ o ∧ o < 0x3EC ∧ (o - 0x300) % 0x4 = 0 then some (.ASR_TRIMF ((o - 0x300) / 0x4)) else
  none

/-- The word at an offset of the MIR block, if its table lists one. -/
def Reg.ofMIR (o : Nat) : Option Reg :=
  if o = 0x0 then some .MIR_CTL else
  if o = 0x4 then some .MIR_CFG else
  if o = 0x8 then some .MIR_STAT else
  if o = 0xC then some .MIR_EV else
  if o = 0x10 then some .MIR_PEPOCH else
  if o = 0x14 then some .MIR_HOSEC else
  if o = 0x18 then some .MIR_HONS else
  if o = 0x1C then some .MIR_HRBASE else
  if o = 0x20 then some .MIR_HRHEAD else
  if o = 0x24 then some .MIR_HRTAIL else
  if o = 0x28 then some .MIR_HRDROP else
  if o = 0x2C then some .MIR_CKSRC else
  if o = 0x30 then some .MIR_CKDST else
  if o = 0x34 then some .MIR_CKLEN else
  if o = 0x38 then some .MIR_CKSTAT else
  if o = 0x3C then some .MIR_XCOK else
  if o = 0x40 then some .MIR_XCERR else
  if o = 0x44 then some .MIR_XCLAST else
  if o = 0x48 then some .MIR_HBMISS else
  if o = 0x4C then some .MIR_TAKES else
  if o = 0x50 then some .MIR_ORPHAN else
  none

/-- The word at an offset of the BOT block, if its table lists one. -/
def Reg.ofBOT (o : Nat) : Option Reg :=
  if o = 0x0 then some .BOT_STAT else
  if o = 0x4 then some .BOT_EV else
  if o = 0x8 then some .BOT_CTL else
  if o = 0xC then some .BOT_RESET else
  if o = 0x10 then some .BOT_LCS else
  if o = 0x14 then some .BOT_LCTL else
  if o = 0x18 then some .BOT_NONCE else
  if o = 0x1C then some .BOT_MVER else
  if o = 0x20 then some .BOT_MDIG else
  if o = 0x24 then some .BOT_MARKER else
  if o = 0x28 then some .BOT_DAWNCFG else
  if o = 0x2C then some .BOT_DUSKCFG else
  if o = 0x30 then some .BOT_DUSKSTAT else
  if o = 0x34 then some .BOT_SEAL else
  if o = 0x38 then some .BOT_MCHK else
  if o = 0x3C then some .BOT_MCHKSTAT else
  if 0x40 ≤ o ∧ o < 0x60 ∧ (o - 0x40) % 0x4 = 0 then some (.BOT_FLOOR ((o - 0x40) / 0x4)) else
  none

/-- R523: the unit numbers that Table 22.1 lists. -/
def unitListed (uu : Nat) : Bool := decide (1 ≤ uu ∧ uu ≤ 0x13)

/-- R523: the word at a local address; an offset that no table lists has none. -/
def Reg.ofAddr (a : Nat) : Option Reg :=
  if a < 0xF000000000 ∨ 0xF001000000 ≤ a then none else
  match (a - 0xF000000000) / 0x10000 with
  | 0x01 => Reg.ofLAN (a % 0x10000)
  | 0x02 => Reg.ofLNK (a % 0x10000)
  | 0x03 => Reg.ofTIM (a % 0x10000)
  | 0x04 => Reg.ofCLK (a % 0x10000)
  | 0x05 => Reg.ofING (a % 0x10000)
  | 0x06 => Reg.ofSRF (a % 0x10000)
  | 0x07 => Reg.ofCMP (a % 0x10000)
  | 0x08 => Reg.ofCOR (a % 0x10000)
  | 0x09 => Reg.ofSCN (a % 0x10000)
  | 0x0A => Reg.ofLMP (a % 0x10000)
  | 0x0B => Reg.ofHRC (a % 0x10000)
  | 0x0C => Reg.ofEVT (a % 0x10000)
  | 0x0D => Reg.ofHST (a % 0x10000)
  | 0x0E => Reg.ofMEM (a % 0x10000)
  | 0x0F => Reg.ofPWR (a % 0x10000)
  | 0x10 => Reg.ofHKP (a % 0x10000)
  | 0x11 => Reg.ofASR (a % 0x10000)
  | 0x12 => Reg.ofMIR (a % 0x10000)
  | 0x13 => Reg.ofBOT (a % 0x10000)
  | _ => none

/-- R533 and Table 22.25: the words powered in sender role (`tile = false`) or in tile role. -/
def Reg.powered (tile : Bool) (r : Reg) : Bool :=
  match tile, r with
  | false, .LNK_RPLBASE => false
  | false, .LNK_POS => false
  | false, .LNK_MASTER => false
  | false, .LNK_TOKCNT => false
  | false, .TIM_FPER => false
  | false, .TIM_FPERFR => false
  | false, .TIM_FPERCID => false
  | false, .CMP_CTL => false
  | false, .CMP_CFG => false
  | false, .CMP_STAT => false
  | false, .CMP_EV => false
  | false, .CMP_CID => false
  | false, .CMP_BIND _ => false
  | false, .CMP_LATETOK => false
  | false, .CMP_CIDERR => false
  | false, .CMP_OUTWIN => false
  | false, .CMP_FRAMES => false
  | false, .CMP_CTIME => false
  | false, .CMP_CTIMEMAX => false
  | false, .CMP_LANEMAP => false
  | false, .CMP_LSTAT _ => false
  | false, .CMP_LCHK _ => false
  | false, .COR_CFG => false
  | false, .COR_STAT => false
  | false, .COR_EV => false
  | false, .COR_CTXBASE => false
  | false, .COR_ARMCID => false
  | false, .COR_LEDBASE => false
  | false, .COR_LEDCFG => false
  | false, .COR_LEDSEQ => false
  | false, .COR_ACC _ => false
  | false, .COR_MGAIN _ => false
  | false, .COR_DERATE => false
  | false, .COR_FADE => false
  | false, .COR_CMAX _ => false
  | false, .COR_ZCFG => false
  | false, .COR_ZDEF => false
  | false, .COR_ZMAP _ => false
  | false, .COR_ZTEMP _ => false
  | false, .COR_LOOPCFG => false
  | false, .COR_LOOPLIM => false
  | false, .COR_EMIN => false
  | false, .COR_LOOP _ => false
  | false, .COR_CTXERR => false
  | false, .COR_LEDERR => false
  | false, .COR_SATCNT => false
  | false, .COR_DEADCNT => false
  | false, .COR_CTIME => false
  | false, .COR_LANEMAP => false
  | false, .COR_WREF _ _ => false
  | false, .COR_WEXP _ _ => false
  | false, .SCN_CTL => false
  | false, .SCN_STAT => false
  | false, .SCN_EV => false
  | false, .SCN_GEOM => false
  | false, .SCN_DIAGCFG => false
  | false, .SCN_MISSCNT => false
  | false, .SCN_UNDERCNT => false
  | false, .SCN_DARKUS => false
  | false, .SCN_FRAMECNT => false
  | false, .SCN_FADECTL => false
  | false, .SCN_FADECID => false
  | false, .SCN_FADESTAT => false
  | false, .SCN_GCTL _ => false
  | false, .SCN_GSTAT _ => false
  | false, .SCN_GARM _ => false
  | false, .SCN_GTIME _ => false
  | false, .LMP_CFG => false
  | false, .LMP_STAT => false
  | false, .LMP_STBASE => false
  | false, .LMP_VWIN => false
  | false, .LMP_EPOCH => false
  | false, .LMP_HR _ => false
  | false, .LMP_RBPTR _ => false
  | false, .LMP_SWEEPS _ => false
  | false, .LMP_PSTAT _ => false
  | false, .LMP_PCNT _ => false
  | false, .LMP_PADFAIL _ => false
  | false, .PWR_LEDMAP _ => false
  | false, .PWR_LEDLIM _ => false
  | false, .PWR_LEDCFG _ => false
  | false, .PWR_LEDHR _ => false
  | false, .PWR_LEDIDLE _ => false
  | false, .PWR_LEDSTAT _ => false
  | false, .PWR_LEDPK _ => false
  | false, .ASR_PROOFCFG => false
  | false, .ASR_PROOFSTAT => false
  | false, .ASR_STEPS => false
  | false, .ASR_SIGHI => false
  | false, .ASR_SIGLO => false
  | false, .ASR_ANCHSEQ => false
  | false, .ASR_HEAD _ => false
  | false, .PWR_PER k => decide (k = 0)
  | true, .LAN_CTL n => decide (8 ≤ n ∧ n < 14)
  | true, .LAN_STAT n => decide (8 ≤ n ∧ n < 14)
  | true, .LAN_TXEQ n => decide (8 ≤ n ∧ n < 14)
  | true, .LAN_RXEQ n => decide (8 ≤ n ∧ n < 14)
  | true, .LAN_EYE n => decide (8 ≤ n ∧ n < 14)
  | true, .LAN_EYEMIN n => decide (8 ≤ n ∧ n < 14)
  | true, .LAN_EYEAVG n => decide (8 ≤ n ∧ n < 14)
  | true, .LAN_PEYE n => decide (8 ≤ n ∧ n < 14)
  | true, .LAN_RXALIGN n => decide (8 ≤ n ∧ n < 14)
  | true, .LAN_ERRCNT n => decide (8 ≤ n ∧ n < 14)
  | true, .LAN_RETRY n => decide (8 ≤ n ∧ n < 14)
  | true, .LAN_PARTNER n => decide (8 ≤ n ∧ n < 14)
  | true, .LAN_PSUB p => decide (p < 2)
  | true, .LNK_PCTL p => decide (p < 2)
  | true, .LNK_PSTAT p => decide (p < 2)
  | true, .LNK_CRCERR p => decide (p < 2)
  | true, .LNK_RETRYCNT p => decide (p < 2)
  | true, .LNK_DROP p => decide (p < 2)
  | true, .LNK_STALE p => decide (p < 2)
  | true, .LNK_TAGS p => decide (p < 2)
  | true, .LNK_TXNERR p => decide (p < 2)
  | true, .LNK_EPOCH _ => false
  | true, .LNK_ANNOUNCE _ => false
  | true, .LNK_RING _ => false
  | true, .LNK_GENKEY _ _ => false
  | true, .LNK_GENDONE _ _ _ => false
  | true, .LNK_GENMISS _ _ _ => false
  | true, .TIM_LDELAY p => decide (p < 2)
  | true, .TIM_ASYM p => decide (p < 2)
  | true, .TIM_LDCNT p => decide (p < 2)
  | true, .TIM_LQPUSH _ => false
  | true, .TIM_LQSTAT _ => false
  | true, .TIM_LQCTL _ => false
  | true, .TIM_LQCNT _ => false
  | true, .ING_QCFG _ => false
  | true, .ING_QFEC _ => false
  | true, .ING_MACLO => false
  | true, .ING_MACHI => false
  | true, .ING_PADDR _ => false
  | true, .ING_PSTAT _ => false
  | true, .ING_PDROP _ => false
  | true, .ING_PTPCFG => false
  | true, .ING_PTPSTAT => false
  | true, .ING_PTPGMHI => false
  | true, .ING_PTPGMLO => false
  | true, .ING_PTPUTC => false
  | true, .ING_RATESUM => false
  | true, .ING_SCTL _ => false
  | true, .ING_SSTAT _ => false
  | true, .ING_SFMT _ => false
  | true, .ING_SSIZE _ => false
  | true, .ING_SRATE _ => false
  | true, .ING_SHANDLE _ => false
  | true, .ING_SFILL _ => false
  | true, .ING_SSTAGE _ => false
  | true, .ING_SDSTA _ => false
  | true, .ING_SPORTA _ => false
  | true, .ING_SDSTB _ => false
  | true, .ING_SPORTB _ => false
  | true, .ING_SLAST _ => false
  | true, .ING_SCAPHI _ => false
  | true, .ING_SCAPLO _ => false
  | true, .ING_SROWS _ => false
  | true, .ING_SLOSTPKT _ => false
  | true, .ING_SDUP _ => false
  | true, .ING_SFRDROP _ => false
  | true, .ING_SBADPKT _ => false
  | true, .MIR_CTL => false
  | true, .MIR_CFG => false
  | true, .MIR_STAT => false
  | true, .MIR_EV => false
  | true, .MIR_PEPOCH => false
  | true, .MIR_HOSEC => false
  | true, .MIR_HONS => false
  | true, .MIR_HRBASE => false
  | true, .MIR_HRHEAD => false
  | true, .MIR_HRTAIL => false
  | true, .MIR_HRDROP => false
  | true, .MIR_CKSRC => false
  | true, .MIR_CKDST => false
  | true, .MIR_CKLEN => false
  | true, .MIR_CKSTAT => false
  | true, .MIR_XCOK => false
  | true, .MIR_XCERR => false
  | true, .MIR_XCLAST => false
  | true, .MIR_HBMISS => false
  | true, .MIR_TAKES => false
  | true, .MIR_ORPHAN => false
  | _, _ => true

/-- A named field of a word: its word, its lowest bit and its width. -/
structure Fld where
  reg : Reg
  lo : Nat
  n : Nat
deriving DecidableEq, Repr

/-! The fields of the owning chapters' tables, by name. -/

namespace F

def LAN_CTL_EN (n : Nat) : Fld := ⟨(.LAN_CTL n), 0, 1⟩
def LAN_CTL_RATE (n : Nat) : Fld := ⟨(.LAN_CTL n), 1, 1⟩
def LAN_CTL_SURVEY (n : Nat) : Fld := ⟨(.LAN_CTL n), 2, 1⟩
def LAN_CTL_ADAPT (n : Nat) : Fld := ⟨(.LAN_CTL n), 3, 1⟩
def LAN_CTL_TXPOL (n : Nat) : Fld := ⟨(.LAN_CTL n), 4, 1⟩
def LAN_CTL_RXPOL (n : Nat) : Fld := ⟨(.LAN_CTL n), 5, 1⟩
def LAN_STAT_STATE (n : Nat) : Fld := ⟨(.LAN_STAT n), 0, 4⟩
def LAN_STAT_LASTFAIL (n : Nat) : Fld := ⟨(.LAN_STAT n), 4, 4⟩
def LAN_STAT_EVSTATE (n : Nat) : Fld := ⟨(.LAN_STAT n), 8, 1⟩
def LAN_STAT_EVEYE (n : Nat) : Fld := ⟨(.LAN_STAT n), 9, 1⟩
def LAN_STAT_EVSUB (n : Nat) : Fld := ⟨(.LAN_STAT n), 10, 1⟩
def LAN_STAT_RXINV (n : Nat) : Fld := ⟨(.LAN_STAT n), 11, 1⟩
def LAN_TXEQ_PRE (n : Nat) : Fld := ⟨(.LAN_TXEQ n), 0, 5⟩
def LAN_TXEQ_MAIN (n : Nat) : Fld := ⟨(.LAN_TXEQ n), 5, 6⟩
def LAN_TXEQ_POST (n : Nat) : Fld := ⟨(.LAN_TXEQ n), 11, 6⟩
def LAN_RXEQ_CTLE (n : Nat) : Fld := ⟨(.LAN_RXEQ n), 0, 4⟩
def LAN_RXEQ_CTLEAD (n : Nat) : Fld := ⟨(.LAN_RXEQ n), 4, 1⟩
def LAN_RXEQ_DFE1 (n : Nat) : Fld := ⟨(.LAN_RXEQ n), 8, 8⟩
def LAN_EYE_WIDTH (n : Nat) : Fld := ⟨(.LAN_EYE n), 0, 7⟩
def LAN_EYE_HEIGHT (n : Nat) : Fld := ⟨(.LAN_EYE n), 8, 8⟩
def LAN_EYE_SURVEYS (n : Nat) : Fld := ⟨(.LAN_EYE n), 16, 16⟩
def LAN_EYEMIN_WIDTH (n : Nat) : Fld := ⟨(.LAN_EYEMIN n), 0, 7⟩
def LAN_EYEMIN_HEIGHT (n : Nat) : Fld := ⟨(.LAN_EYEMIN n), 8, 8⟩
def LAN_EYEAVG_WIDTH (n : Nat) : Fld := ⟨(.LAN_EYEAVG n), 0, 16⟩
def LAN_EYEAVG_HEIGHT (n : Nat) : Fld := ⟨(.LAN_EYEAVG n), 16, 16⟩
def LAN_PEYE_WIDTH (n : Nat) : Fld := ⟨(.LAN_PEYE n), 0, 7⟩
def LAN_PEYE_HEIGHT (n : Nat) : Fld := ⟨(.LAN_PEYE n), 8, 8⟩
def LAN_PEYE_VALID (n : Nat) : Fld := ⟨(.LAN_PEYE n), 31, 1⟩
def LAN_RXALIGN_UI (n : Nat) : Fld := ⟨(.LAN_RXALIGN n), 0, 16⟩
def LAN_ERRCNT_COUNT (n : Nat) : Fld := ⟨(.LAN_ERRCNT n), 0, 32⟩
def LAN_RETRY_COUNT (n : Nat) : Fld := ⟨(.LAN_RETRY n), 0, 32⟩
def LAN_PARTNER_VERSION (n : Nat) : Fld := ⟨(.LAN_PARTNER n), 0, 4⟩
def LAN_PARTNER_ROLE (n : Nat) : Fld := ⟨(.LAN_PARTNER n), 4, 1⟩
def LAN_PARTNER_PORTKIND (n : Nat) : Fld := ⟨(.LAN_PARTNER n), 5, 3⟩
def LAN_PARTNER_LANE (n : Nat) : Fld := ⟨(.LAN_PARTNER n), 8, 2⟩
def LAN_PARTNER_RETIRED (n : Nat) : Fld := ⟨(.LAN_PARTNER n), 10, 4⟩
def LAN_PARTNER_FECREQ (n : Nat) : Fld := ⟨(.LAN_PARTNER n), 14, 1⟩
def LAN_PARTNER_VALID (n : Nat) : Fld := ⟨(.LAN_PARTNER n), 31, 1⟩
def LAN_PSUB_RETIRED (p : Nat) : Fld := ⟨(.LAN_PSUB p), 0, 4⟩
def LAN_PSUB_SPARE (p : Nat) : Fld := ⟨(.LAN_PSUB p), 4, 4⟩
def LAN_PSUB_RESULT (p : Nat) : Fld := ⟨(.LAN_PSUB p), 8, 3⟩
def LAN_PSUB_PENDING (p : Nat) : Fld := ⟨(.LAN_PSUB p), 11, 1⟩
def LAN_PSUB_FECREQ (p : Nat) : Fld := ⟨(.LAN_PSUB p), 12, 1⟩
def LAN_SURV_PERIOD : Fld := ⟨.LAN_SURV, 0, 16⟩
def LAN_EYELIM_WIDTH : Fld := ⟨.LAN_EYELIM, 0, 7⟩
def LAN_EYELIM_HEIGHT : Fld := ⟨.LAN_EYELIM, 8, 8⟩
def LNK_PCTL_EN (p : Nat) : Fld := ⟨(.LNK_PCTL p), 0, 1⟩
def LNK_PSTAT_STATE (p : Nat) : Fld := ⟨(.LNK_PSTAT p), 0, 2⟩
def LNK_PSTAT_FECON (p : Nat) : Fld := ⟨(.LNK_PSTAT p), 2, 1⟩
def LNK_PSTAT_MISROLE (p : Nat) : Fld := ⟨(.LNK_PSTAT p), 3, 1⟩
def LNK_PSTAT_PKIND (p : Nat) : Fld := ⟨(.LNK_PSTAT p), 4, 3⟩
def LNK_PSTAT_OUTRANKED (p : Nat) : Fld := ⟨(.LNK_PSTAT p), 7, 1⟩
def LNK_PSTAT_TILES (p : Nat) : Fld := ⟨(.LNK_PSTAT p), 8, 8⟩
def LNK_PSTAT_EVLINK (p : Nat) : Fld := ⟨(.LNK_PSTAT p), 16, 1⟩
def LNK_PSTAT_EVBREAK (p : Nat) : Fld := ⟨(.LNK_PSTAT p), 17, 1⟩
def LNK_PSTAT_EVTXN (p : Nat) : Fld := ⟨(.LNK_PSTAT p), 18, 1⟩
def LNK_PSTAT_EVOUT (p : Nat) : Fld := ⟨(.LNK_PSTAT p), 19, 1⟩
def LNK_CRCERR_COUNT (p : Nat) : Fld := ⟨(.LNK_CRCERR p), 0, 32⟩
def LNK_RETRYCNT_COUNT (p : Nat) : Fld := ⟨(.LNK_RETRYCNT p), 0, 32⟩
def LNK_DROP_COUNT (p : Nat) : Fld := ⟨(.LNK_DROP p), 0, 32⟩
def LNK_STALE_COUNT (p : Nat) : Fld := ⟨(.LNK_STALE p), 0, 32⟩
def LNK_TAGS_INUSE (p : Nat) : Fld := ⟨(.LNK_TAGS p), 0, 13⟩
def LNK_TAGS_PEAK (p : Nat) : Fld := ⟨(.LNK_TAGS p), 16, 13⟩
def LNK_TXNERR_COUNT (p : Nat) : Fld := ⟨(.LNK_TXNERR p), 0, 32⟩
def LNK_CFG_PAIR : Fld := ⟨.LNK_CFG, 0, 1⟩
def LNK_CFG_BEND : Fld := ⟨.LNK_CFG, 1, 1⟩
def LNK_CFG_RING : Fld := ⟨.LNK_CFG, 2, 4⟩
def LNK_CFG_AUTOHEAL : Fld := ⟨.LNK_CFG, 6, 1⟩
def LNK_TXTIMEOUT_TIMEOUT : Fld := ⟨.LNK_TXTIMEOUT, 0, 20⟩
def LNK_VC2RATE_RATE : Fld := ⟨.LNK_VC2RATE, 0, 8⟩
def LNK_MRXBASE_OFFSET : Fld := ⟨.LNK_MRXBASE, 12, 9⟩
def LNK_MRXCFG_EN : Fld := ⟨.LNK_MRXCFG, 0, 1⟩
def LNK_MRXHEAD_SLOT : Fld := ⟨.LNK_MRXHEAD, 0, 6⟩
def LNK_MRXTAIL_SLOT : Fld := ⟨.LNK_MRXTAIL, 0, 6⟩
def LNK_MRXDROP_COUNT : Fld := ⟨.LNK_MRXDROP, 0, 32⟩
def LNK_RPLBASE_ADDR : Fld := ⟨.LNK_RPLBASE, 0, 17⟩
def LNK_RPLBASE_EN : Fld := ⟨.LNK_RPLBASE, 31, 1⟩
def LNK_POS_POSITION : Fld := ⟨.LNK_POS, 0, 7⟩
def LNK_POS_VALID : Fld := ⟨.LNK_POS, 7, 1⟩
def LNK_POS_FEDB : Fld := ⟨.LNK_POS, 8, 1⟩
def LNK_MASTER_EPOCH : Fld := ⟨.LNK_MASTER, 0, 32⟩
def LNK_TOKCNT_COUNT : Fld := ⟨.LNK_TOKCNT, 0, 32⟩
def LNK_EPOCH_EPOCH (c : Nat) : Fld := ⟨(.LNK_EPOCH c), 0, 32⟩
def LNK_ANNOUNCE_AEND (c : Nat) : Fld := ⟨(.LNK_ANNOUNCE c), 0, 1⟩
def LNK_ANNOUNCE_BEND (c : Nat) : Fld := ⟨(.LNK_ANNOUNCE c), 1, 1⟩
def LNK_RING_BFIRST (c : Nat) : Fld := ⟨(.LNK_RING c), 0, 7⟩
def LNK_RING_SPLIT (c : Nat) : Fld := ⟨(.LNK_RING c), 7, 1⟩
def LNK_GENKEY_HANDLE (c e : Nat) : Fld := ⟨(.LNK_GENKEY c e), 0, 12⟩
def LNK_GENKEY_GEN (c e : Nat) : Fld := ⟨(.LNK_GENKEY c e), 12, 16⟩
def LNK_GENKEY_ARM (c e : Nat) : Fld := ⟨(.LNK_GENKEY c e), 31, 1⟩
def LNK_GENDONE_DONE (c e j : Nat) : Fld := ⟨(.LNK_GENDONE c e j), 0, 32⟩
def LNK_GENMISS_MISS (c e j : Nat) : Fld := ⟨(.LNK_GENMISS c e j), 0, 32⟩
def TIM_CFG_SRC : Fld := ⟨.TIM_CFG, 0, 2⟩
def TIM_CFG_FREE : Fld := ⟨.TIM_CFG, 2, 1⟩
def TIM_CFG_KI : Fld := ⟨.TIM_CFG, 4, 4⟩
def TIM_STAT_VALID : Fld := ⟨.TIM_STAT, 0, 1⟩
def TIM_STAT_LOCKED : Fld := ⟨.TIM_STAT, 1, 1⟩
def TIM_STAT_HOLD : Fld := ⟨.TIM_STAT, 2, 1⟩
def TIM_STAT_STEPPEND : Fld := ⟨.TIM_STAT, 3, 1⟩
def TIM_STAT_COAST : Fld := ⟨.TIM_STAT, 4, 1⟩
def TIM_STAT_FPERPEND : Fld := ⟨.TIM_STAT, 5, 1⟩
def TIM_EV_EV : Fld := ⟨.TIM_EV, 0, 11⟩
def TIM_JUMPLIM_NS : Fld := ⟨.TIM_JUMPLIM, 0, 30⟩
def TIM_RATE_RATE : Fld := ⟨.TIM_RATE, 0, 32⟩
def TIM_OFFSET_OFFSET : Fld := ⟨.TIM_OFFSET, 0, 32⟩
def TIM_STEPS_SEC : Fld := ⟨.TIM_STEPS, 0, 32⟩
def TIM_STEPNS_NS : Fld := ⟨.TIM_STEPNS, 0, 32⟩
def TIM_TCPER_US : Fld := ⟨.TIM_TCPER, 0, 16⟩
def TIM_LDPER_US : Fld := ⟨.TIM_LDPER, 0, 16⟩
def TIM_HOLDMAX_SEC : Fld := ⟨.TIM_HOLDMAX, 0, 16⟩
def TIM_LOCKLIM_NS : Fld := ⟨.TIM_LOCKLIM, 0, 16⟩
def TIM_TCSTAT_HOPS : Fld := ⟨.TIM_TCSTAT, 0, 8⟩
def TIM_TCSTAT_FROMB : Fld := ⟨.TIM_TCSTAT, 8, 1⟩
def TIM_TCSTAT_SEQ : Fld := ⟨.TIM_TCSTAT, 16, 16⟩
def TIM_TCCNT_COUNT : Fld := ⟨.TIM_TCCNT, 0, 32⟩
def TIM_FPER_NS : Fld := ⟨.TIM_FPER, 0, 32⟩
def TIM_FPERFR_FRAC : Fld := ⟨.TIM_FPERFR, 0, 16⟩
def TIM_FPERCID_CID : Fld := ⟨.TIM_FPERCID, 0, 32⟩
def TIM_SNAP_TAKE : Fld := ⟨.TIM_SNAP, 0, 1⟩
def TIM_SNAPSH_SEC : Fld := ⟨.TIM_SNAPSH, 0, 32⟩
def TIM_SNAPSL_SEC : Fld := ⟨.TIM_SNAPSL, 0, 32⟩
def TIM_SNAPNS_NS : Fld := ⟨.TIM_SNAPNS, 0, 32⟩
def TIM_SNAPFR_FRAC : Fld := ⟨.TIM_SNAPFR, 0, 16⟩
def TIM_SNAPFR_INVALID : Fld := ⟨.TIM_SNAPFR, 31, 1⟩
def TIM_LDELAY_DELAY (p : Nat) : Fld := ⟨(.TIM_LDELAY p), 0, 31⟩
def TIM_LDELAY_VALID (p : Nat) : Fld := ⟨(.TIM_LDELAY p), 31, 1⟩
def TIM_ASYM_ASYM (p : Nat) : Fld := ⟨(.TIM_ASYM p), 0, 32⟩
def TIM_LDCNT_COUNT (p : Nat) : Fld := ⟨(.TIM_LDCNT p), 0, 32⟩
def TIM_LQPUSH_ADDR (p : Nat) : Fld := ⟨(.TIM_LQPUSH p), 5, 16⟩
def TIM_LQSTAT_ENTRIES (p : Nat) : Fld := ⟨(.TIM_LQSTAT p), 0, 7⟩
def TIM_LQSTAT_EVLATE (p : Nat) : Fld := ⟨(.TIM_LQSTAT p), 8, 1⟩
def TIM_LQSTAT_EVDROP (p : Nat) : Fld := ⟨(.TIM_LQSTAT p), 9, 1⟩
def TIM_LQSTAT_EVFULL (p : Nat) : Fld := ⟨(.TIM_LQSTAT p), 10, 1⟩
def TIM_LQSTAT_EVBAD (p : Nat) : Fld := ⟨(.TIM_LQSTAT p), 11, 1⟩
def TIM_LQCTL_FLUSH (p : Nat) : Fld := ⟨(.TIM_LQCTL p), 0, 1⟩
def TIM_LQCNT_LATE (p : Nat) : Fld := ⟨(.TIM_LQCNT p), 0, 16⟩
def TIM_LQCNT_DROP (p : Nat) : Fld := ⟨(.TIM_LQCNT p), 16, 16⟩
def TIM_CAPCFG_EDGE (i : Nat) : Fld := ⟨(.TIM_CAPCFG i), 0, 2⟩
def TIM_CAPSEC_SEC (i : Nat) : Fld := ⟨(.TIM_CAPSEC i), 0, 32⟩
def TIM_CAPNS_NS (i : Nat) : Fld := ⟨(.TIM_CAPNS i), 0, 30⟩
def TIM_CAPFR_FRAC (i : Nat) : Fld := ⟨(.TIM_CAPFR i), 0, 16⟩
def TIM_CAPFR_FULL (i : Nat) : Fld := ⟨(.TIM_CAPFR i), 16, 1⟩
def TIM_CAPFR_RISE (i : Nat) : Fld := ⟨(.TIM_CAPFR i), 17, 1⟩
def TIM_CAPFR_OVERRUN (i : Nat) : Fld := ⟨(.TIM_CAPFR i), 18, 1⟩
def TIM_CAPFR_INVALID (i : Nat) : Fld := ⟨(.TIM_CAPFR i), 19, 1⟩
def TIM_PULCFG_MODE (i : Nat) : Fld := ⟨(.TIM_PULCFG i), 0, 2⟩
def TIM_PULCFG_POL (i : Nat) : Fld := ⟨(.TIM_PULCFG i), 2, 1⟩
def TIM_PULOFF_OFFSET (i : Nat) : Fld := ⟨(.TIM_PULOFF i), 0, 32⟩
def TIM_PULWID_WIDTH (i : Nat) : Fld := ⟨(.TIM_PULWID i), 0, 24⟩
def CLK_STAT_COAST : Fld := ⟨.CLK_STAT, 0, 1⟩
def CLK_STAT_ROOTLOCK : Fld := ⟨.CLK_STAT, 1, 1⟩
def CLK_STAT_REFOK : Fld := ⟨.CLK_STAT, 2, 1⟩
def CLK_STAT_REFFREQ : Fld := ⟨.CLK_STAT, 3, 2⟩
def CLK_STAT_QLOCK : Fld := ⟨.CLK_STAT, 5, 9⟩
def CLK_STAT_FORCED : Fld := ⟨.CLK_STAT, 16, 5⟩
def CLK_STAT_GATE_REFUSED : Fld := ⟨.CLK_STAT, 24, 5⟩
def CLK_EV_EV : Fld := ⟨.CLK_EV, 0, 4⟩
def CLK_START_OSCDLY : Fld := ⟨.CLK_START, 0, 2⟩
def CLK_START_TRIES : Fld := ⟨.CLK_START, 8, 8⟩
def CLK_START_RINGCNT : Fld := ⟨.CLK_START, 16, 16⟩
def CLK_GATE_CLOSE : Fld := ⟨.CLK_GATE, 0, 5⟩
def CLK_DSTAT_SRC (d : Nat) : Fld := ⟨(.CLK_DSTAT d), 0, 2⟩
def CLK_DSTAT_GATED (d : Nat) : Fld := ⟨(.CLK_DSTAT d), 2, 1⟩
def CLK_DSTAT_SWRST (d : Nat) : Fld := ⟨(.CLK_DSTAT d), 3, 1⟩
def CLK_DSTAT_SWITCHING (d : Nat) : Fld := ⟨(.CLK_DSTAT d), 4, 1⟩
def ING_QCFG_MODE (q : Nat) : Fld := ⟨(.ING_QCFG q), 0, 2⟩
def ING_QFEC_COUNT (q : Nat) : Fld := ⟨(.ING_QFEC q), 0, 32⟩
def ING_MACLO_MAC : Fld := ⟨.ING_MACLO, 0, 32⟩
def ING_MACHI_MAC : Fld := ⟨.ING_MACHI, 0, 16⟩
def ING_PADDR_ADDR (i : Nat) : Fld := ⟨(.ING_PADDR i), 0, 32⟩
def ING_PSTAT_UP (i : Nat) : Fld := ⟨(.ING_PSTAT i), 0, 1⟩
def ING_PSTAT_SPEED (i : Nat) : Fld := ⟨(.ING_PSTAT i), 1, 2⟩
def ING_PDROP_COUNT (i : Nat) : Fld := ⟨(.ING_PDROP i), 0, 32⟩
def ING_PTPCFG_EN : Fld := ⟨.ING_PTPCFG, 0, 1⟩
def ING_PTPCFG_DOMAIN : Fld := ⟨.ING_PTPCFG, 8, 8⟩
def ING_PTPCFG_PORTA : Fld := ⟨.ING_PTPCFG, 16, 3⟩
def ING_PTPCFG_PORTB : Fld := ⟨.ING_PTPCFG, 20, 3⟩
def ING_PTPCFG_BEN : Fld := ⟨.ING_PTPCFG, 23, 1⟩
def ING_PTPSTAT_STATE : Fld := ⟨.ING_PTPSTAT, 0, 2⟩
def ING_PTPSTAT_PORT : Fld := ⟨.ING_PTPSTAT, 2, 3⟩
def ING_PTPSTAT_CLASS : Fld := ⟨.ING_PTPSTAT, 8, 8⟩
def ING_PTPGMHI_ID : Fld := ⟨.ING_PTPGMHI, 0, 32⟩
def ING_PTPGMLO_ID : Fld := ⟨.ING_PTPGMLO, 0, 32⟩
def ING_PTPUTC_OFFSET : Fld := ⟨.ING_PTPUTC, 0, 16⟩
def ING_PTPUTC_VALID : Fld := ⟨.ING_PTPUTC, 16, 1⟩
def ING_RATESUM_KPXS : Fld := ⟨.ING_RATESUM, 0, 23⟩
def ING_SCTL_EN (s : Nat) : Fld := ⟨(.ING_SCTL s), 0, 1⟩
def ING_SCTL_INCPOL (s : Nat) : Fld := ⟨(.ING_SCTL s), 1, 1⟩
def ING_SCTL_SKEW (s : Nat) : Fld := ⟨(.ING_SCTL s), 4, 4⟩
def ING_SCTL_LOSS (s : Nat) : Fld := ⟨(.ING_SCTL s), 8, 8⟩
def ING_SCTL_PT (s : Nat) : Fld := ⟨(.ING_SCTL s), 16, 7⟩
def ING_SSTAT_STATE (s : Nat) : Fld := ⟨(.ING_SSTAT s), 0, 2⟩
def ING_SSTAT_REFUSED (s : Nat) : Fld := ⟨(.ING_SSTAT s), 2, 1⟩
def ING_SSTAT_PATHA (s : Nat) : Fld := ⟨(.ING_SSTAT s), 3, 1⟩
def ING_SSTAT_PATHB (s : Nat) : Fld := ⟨(.ING_SSTAT s), 4, 1⟩
def ING_SSTAT_EVFRAME (s : Nat) : Fld := ⟨(.ING_SSTAT s), 8, 1⟩
def ING_SSTAT_EVLOSS (s : Nat) : Fld := ⟨(.ING_SSTAT s), 9, 1⟩
def ING_SSTAT_EVERR (s : Nat) : Fld := ⟨(.ING_SSTAT s), 10, 1⟩
def ING_SSTAT_EVPATH (s : Nat) : Fld := ⟨(.ING_SSTAT s), 11, 1⟩
def ING_SFMT_SAMP (s : Nat) : Fld := ⟨(.ING_SFMT s), 0, 2⟩
def ING_SFMT_DEPTH (s : Nat) : Fld := ⟨(.ING_SFMT s), 2, 2⟩
def ING_SFMT_COLOR (s : Nat) : Fld := ⟨(.ING_SFMT s), 4, 1⟩
def ING_SFMT_RANGE (s : Nat) : Fld := ⟨(.ING_SFMT s), 5, 1⟩
def ING_SFMT_PACK (s : Nat) : Fld := ⟨(.ING_SFMT s), 6, 1⟩
def ING_SSIZE_W (s : Nat) : Fld := ⟨(.ING_SSIZE s), 0, 13⟩
def ING_SSIZE_H (s : Nat) : Fld := ⟨(.ING_SSIZE s), 16, 13⟩
def ING_SRATE_NUM (s : Nat) : Fld := ⟨(.ING_SRATE s), 0, 20⟩
def ING_SRATE_DEN (s : Nat) : Fld := ⟨(.ING_SRATE s), 20, 12⟩
def ING_SHANDLE_HANDLE (s : Nat) : Fld := ⟨(.ING_SHANDLE s), 0, 12⟩
def ING_SFILL_B (s : Nat) : Fld := ⟨(.ING_SFILL s), 0, 10⟩
def ING_SFILL_G (s : Nat) : Fld := ⟨(.ING_SFILL s), 10, 10⟩
def ING_SFILL_R (s : Nat) : Fld := ⟨(.ING_SFILL s), 20, 10⟩
def ING_SSTAGE_ADDR (s : Nat) : Fld := ⟨(.ING_SSTAGE s), 0, 28⟩
def ING_SDSTA_ADDR (s : Nat) : Fld := ⟨(.ING_SDSTA s), 0, 32⟩
def ING_SPORTA_UDP (s : Nat) : Fld := ⟨(.ING_SPORTA s), 0, 16⟩
def ING_SPORTA_SRCPORT (s : Nat) : Fld := ⟨(.ING_SPORTA s), 16, 3⟩
def ING_SPORTA_EN (s : Nat) : Fld := ⟨(.ING_SPORTA s), 31, 1⟩
def ING_SDSTB_ADDR (s : Nat) : Fld := ⟨(.ING_SDSTB s), 0, 32⟩
def ING_SPORTB_UDP (s : Nat) : Fld := ⟨(.ING_SPORTB s), 0, 16⟩
def ING_SPORTB_SRCPORT (s : Nat) : Fld := ⟨(.ING_SPORTB s), 16, 3⟩
def ING_SPORTB_EN (s : Nat) : Fld := ⟨(.ING_SPORTB s), 31, 1⟩
def ING_SLAST_GEN (s : Nat) : Fld := ⟨(.ING_SLAST s), 0, 16⟩
def ING_SLAST_INC (s : Nat) : Fld := ⟨(.ING_SLAST s), 16, 1⟩
def ING_SCAPHI_TICKS (s : Nat) : Fld := ⟨(.ING_SCAPHI s), 0, 32⟩
def ING_SCAPLO_TICKS (s : Nat) : Fld := ⟨(.ING_SCAPLO s), 0, 32⟩
def ING_SROWS_ROWS (s : Nat) : Fld := ⟨(.ING_SROWS s), 0, 10⟩
def ING_SROWS_OPEN (s : Nat) : Fld := ⟨(.ING_SROWS s), 15, 1⟩
def ING_SROWS_GEN (s : Nat) : Fld := ⟨(.ING_SROWS s), 16, 16⟩
def ING_SLOSTPKT_COUNT (s : Nat) : Fld := ⟨(.ING_SLOSTPKT s), 0, 32⟩
def ING_SDUP_COUNT (s : Nat) : Fld := ⟨(.ING_SDUP s), 0, 32⟩
def ING_SFRDROP_COUNT (s : Nat) : Fld := ⟨(.ING_SFRDROP s), 0, 32⟩
def ING_SBADPKT_COUNT (s : Nat) : Fld := ⟨(.ING_SBADPKT s), 0, 32⟩
def SRF_HTBASE_ADDR : Fld := ⟨.SRF_HTBASE, 0, 28⟩
def SRF_CMD_OP : Fld := ⟨.SRF_CMD, 0, 4⟩
def SRF_CMD_HANDLE : Fld := ⟨.SRF_CMD, 4, 12⟩
def SRF_CMD_GEN : Fld := ⟨.SRF_CMD, 16, 16⟩
def SRF_CMDSTAT_RESULT : Fld := ⟨.SRF_CMDSTAT, 0, 4⟩
def SRF_CMDSTAT_SLOT : Fld := ⟨.SRF_CMDSTAT, 4, 3⟩
def SRF_CMDSTAT_BUSY : Fld := ⟨.SRF_CMDSTAT, 7, 1⟩
def SRF_CMDSTAT_LOST : Fld := ⟨.SRF_CMDSTAT, 8, 1⟩
def SRF_QSTAT_PRESENT : Fld := ⟨.SRF_QSTAT, 0, 1⟩
def SRF_QSTAT_FMT : Fld := ⟨.SRF_QSTAT, 1, 3⟩
def SRF_QSTAT_SLOTS : Fld := ⟨.SRF_QSTAT, 4, 3⟩
def SRF_QSTAT_RECLAIM : Fld := ⟨.SRF_QSTAT, 7, 1⟩
def SRF_QSLOTS_STATE : Fld := ⟨.SRF_QSLOTS, 0, 24⟩
def SRF_QGEN_GENLO (j : Nat) : Fld := ⟨(.SRF_QGEN j), 0, 16⟩
def SRF_QGEN_GENHI (j : Nat) : Fld := ⟨(.SRF_QGEN j), 16, 16⟩
def SRF_QNEWEST_OPENED : Fld := ⟨.SRF_QNEWEST, 0, 16⟩
def SRF_QNEWEST_USED : Fld := ⟨.SRF_QNEWEST, 16, 16⟩
def SRF_QRETR_GEN : Fld := ⟨.SRF_QRETR, 0, 16⟩
def SRF_QRETR_VALID : Fld := ⟨.SRF_QRETR, 16, 1⟩
def SRF_EV_EV : Fld := ⟨.SRF_EV, 0, 6⟩
def SRF_OCCPEND_PAGES : Fld := ⟨.SRF_OCCPEND, 0, 24⟩
def SRF_OCCPEAK_PAGES : Fld := ⟨.SRF_OCCPEAK, 0, 24⟩
def SRF_RXCHK_COUNT : Fld := ⟨.SRF_RXCHK, 0, 32⟩
def SRF_NOSLOT_COUNT : Fld := ⟨.SRF_NOSLOT, 0, 32⟩
def SRF_DROPCNT_COUNT : Fld := ⟨.SRF_DROPCNT, 0, 32⟩
def SRF_LATECNT_COUNT : Fld := ⟨.SRF_LATECNT, 0, 32⟩
def SRF_FREEDCNT_COUNT : Fld := ⟨.SRF_FREEDCNT, 0, 32⟩
def CMP_CTL_RESTART : Fld := ⟨.CMP_CTL, 0, 1⟩
def CMP_CFG_STALEMSG : Fld := ⟨.CMP_CFG, 0, 1⟩
def CMP_STAT_STATE : Fld := ⟨.CMP_STAT, 0, 2⟩
def CMP_STAT_SLOT : Fld := ⟨.CMP_STAT, 2, 2⟩
def CMP_STAT_STANDING : Fld := ⟨.CMP_STAT, 4, 1⟩
def CMP_STAT_ERRCODE : Fld := ⟨.CMP_STAT, 8, 4⟩
def CMP_STAT_ERRWORD : Fld := ⟨.CMP_STAT, 12, 14⟩
def CMP_STAT_ERRSLOT : Fld := ⟨.CMP_STAT, 26, 1⟩
def CMP_EV_EVHALT : Fld := ⟨.CMP_EV, 0, 1⟩
def CMP_EV_EVLATE : Fld := ⟨.CMP_EV, 1, 1⟩
def CMP_EV_EVCID : Fld := ⟨.CMP_EV, 2, 1⟩
def CMP_EV_EVSTAND : Fld := ⟨.CMP_EV, 3, 1⟩
def CMP_EV_EVWIN : Fld := ⟨.CMP_EV, 4, 1⟩
def CMP_EV_EVMSG : Fld := ⟨.CMP_EV, 5, 1⟩
def CMP_CID_ID : Fld := ⟨.CMP_CID, 0, 32⟩
def CMP_BIND_ID (s : Nat) : Fld := ⟨(.CMP_BIND s), 0, 32⟩
def CMP_LATETOK_COUNT : Fld := ⟨.CMP_LATETOK, 0, 32⟩
def CMP_CIDERR_COUNT : Fld := ⟨.CMP_CIDERR, 0, 32⟩
def CMP_OUTWIN_COUNT : Fld := ⟨.CMP_OUTWIN, 0, 32⟩
def CMP_FRAMES_COUNT : Fld := ⟨.CMP_FRAMES, 0, 32⟩
def CMP_CTIME_US : Fld := ⟨.CMP_CTIME, 0, 20⟩
def CMP_CTIMEMAX_US : Fld := ⟨.CMP_CTIMEMAX, 0, 20⟩
def CMP_LANEMAP_PHYS : Fld := ⟨.CMP_LANEMAP, 0, 32⟩
def CMP_LSTAT_USED (l : Nat) : Fld := ⟨(.CMP_LSTAT l), 0, 1⟩
def CMP_LSTAT_STALE (l : Nat) : Fld := ⟨(.CMP_LSTAT l), 1, 1⟩
def CMP_LSTAT_EVSTALE (l : Nat) : Fld := ⟨(.CMP_LSTAT l), 2, 1⟩
def CMP_LSTAT_EVCHK (l : Nat) : Fld := ⟨(.CMP_LSTAT l), 3, 1⟩
def CMP_LSTAT_HANDLE (l : Nat) : Fld := ⟨(.CMP_LSTAT l), 4, 12⟩
def CMP_LSTAT_GEN (l : Nat) : Fld := ⟨(.CMP_LSTAT l), 16, 16⟩
def CMP_LCHK_COUNT (l : Nat) : Fld := ⟨(.CMP_LCHK l), 0, 32⟩
def COR_CFG_LEDEN : Fld := ⟨.COR_CFG, 0, 1⟩
def COR_CFG_SATMODE : Fld := ⟨.COR_CFG, 1, 1⟩
def COR_CFG_LOOPEN : Fld := ⟨.COR_CFG, 2, 1⟩
def COR_STAT_ARMPEND : Fld := ⟨.COR_STAT, 0, 1⟩
def COR_STAT_LOOPLIM : Fld := ⟨.COR_STAT, 1, 1⟩
def COR_STAT_ZSUBST : Fld := ⟨.COR_STAT, 2, 1⟩
def COR_EV_EV : Fld := ⟨.COR_EV, 0, 6⟩
def COR_CTXBASE_ADDR : Fld := ⟨.COR_CTXBASE, 0, 28⟩
def COR_CTXBASE_BANK : Fld := ⟨.COR_CTXBASE, 28, 1⟩
def COR_ARMCID_CID : Fld := ⟨.COR_ARMCID, 0, 32⟩
def COR_LEDBASE_ADDR : Fld := ⟨.COR_LEDBASE, 0, 28⟩
def COR_LEDCFG_EVERY : Fld := ⟨.COR_LEDCFG, 0, 8⟩
def COR_LEDSEQ_COUNT : Fld := ⟨.COR_LEDSEQ, 0, 32⟩
def COR_ACC_ACC (j : Nat) : Fld := ⟨(.COR_ACC j), 0, 32⟩
def COR_MGAIN_GAIN (c : Nat) : Fld := ⟨(.COR_MGAIN c), 0, 16⟩
def COR_DERATE_GAIN : Fld := ⟨.COR_DERATE, 0, 16⟩
def COR_FADE_GAIN : Fld := ⟨.COR_FADE, 0, 16⟩
def COR_CMAX_CODE (c : Nat) : Fld := ⟨(.COR_CMAX c), 0, 20⟩
def COR_ZCFG_ZX : Fld := ⟨.COR_ZCFG, 0, 3⟩
def COR_ZCFG_ZY : Fld := ⟨.COR_ZCFG, 3, 3⟩
def COR_ZDEF_TEMP : Fld := ⟨.COR_ZDEF, 0, 16⟩
def COR_ZMAP_CH (j : Nat) : Fld := ⟨(.COR_ZMAP j), 0, 32⟩
def COR_ZTEMP_TEMP (z : Nat) : Fld := ⟨(.COR_ZTEMP z), 0, 16⟩
def COR_ZTEMP_SUBST (z : Nat) : Fld := ⟨(.COR_ZTEMP z), 16, 1⟩
def COR_LOOPCFG_PERIOD : Fld := ⟨.COR_LOOPCFG, 0, 8⟩
def COR_LOOPCFG_KL : Fld := ⟨.COR_LOOPCFG, 8, 4⟩
def COR_LOOPLIM_MIN : Fld := ⟨.COR_LOOPLIM, 0, 16⟩
def COR_LOOPLIM_MAX : Fld := ⟨.COR_LOOPLIM, 16, 16⟩
def COR_EMIN_COUNT : Fld := ⟨.COR_EMIN, 0, 32⟩
def COR_LOOP_GAIN (c : Nat) : Fld := ⟨(.COR_LOOP c), 0, 16⟩
def COR_CTXERR_COUNT : Fld := ⟨.COR_CTXERR, 0, 32⟩
def COR_LEDERR_COUNT : Fld := ⟨.COR_LEDERR, 0, 32⟩
def COR_SATCNT_COUNT : Fld := ⟨.COR_SATCNT, 0, 32⟩
def COR_DEADCNT_LAMPS : Fld := ⟨.COR_DEADCNT, 0, 20⟩
def COR_CTIME_US : Fld := ⟨.COR_CTIME, 0, 20⟩
def COR_LANEMAP_PHYS : Fld := ⟨.COR_LANEMAP, 0, 32⟩
def COR_WREF_REF (s c : Nat) : Fld := ⟨(.COR_WREF s c), 0, 32⟩
def COR_WEXP_EXP (s c : Nat) : Fld := ⟨(.COR_WEXP s c), 0, 32⟩
def SCN_CTL_DARK : Fld := ⟨.SCN_CTL, 0, 1⟩
def SCN_CTL_RELEASE : Fld := ⟨.SCN_CTL, 1, 1⟩
def SCN_STAT_HALF : Fld := ⟨.SCN_STAT, 0, 1⟩
def SCN_STAT_DARK : Fld := ⟨.SCN_STAT, 1, 1⟩
def SCN_STAT_TRIP : Fld := ⟨.SCN_STAT, 2, 1⟩
def SCN_STAT_FILLDONE : Fld := ⟨.SCN_STAT, 3, 1⟩
def SCN_EV_EVMISS : Fld := ⟨.SCN_EV, 0, 1⟩
def SCN_EV_EVFADE : Fld := ⟨.SCN_EV, 1, 1⟩
def SCN_EV_EVDARK : Fld := ⟨.SCN_EV, 2, 1⟩
def SCN_EV_EVUNDER : Fld := ⟨.SCN_EV, 3, 1⟩
def SCN_GEOM_PXL : Fld := ⟨.SCN_GEOM, 0, 3⟩
def SCN_GEOM_PYL : Fld := ⟨.SCN_GEOM, 3, 3⟩
def SCN_DIAGCFG_EN : Fld := ⟨.SCN_DIAGCFG, 0, 1⟩
def SCN_DIAGCFG_EVERY : Fld := ⟨.SCN_DIAGCFG, 8, 9⟩
def SCN_MISSCNT_COUNT : Fld := ⟨.SCN_MISSCNT, 0, 32⟩
def SCN_UNDERCNT_COUNT : Fld := ⟨.SCN_UNDERCNT, 0, 32⟩
def SCN_DARKUS_US : Fld := ⟨.SCN_DARKUS, 0, 32⟩
def SCN_FRAMECNT_COUNT : Fld := ⟨.SCN_FRAMECNT, 0, 32⟩
def SCN_FADECTL_TARGET : Fld := ⟨.SCN_FADECTL, 0, 16⟩
def SCN_FADECTL_FRAMES : Fld := ⟨.SCN_FADECTL, 16, 12⟩
def SCN_FADECTL_SHAPE : Fld := ⟨.SCN_FADECTL, 28, 1⟩
def SCN_FADECTL_GO : Fld := ⟨.SCN_FADECTL, 31, 1⟩
def SCN_FADECID_CID : Fld := ⟨.SCN_FADECID, 0, 32⟩
def SCN_FADESTAT_GAIN : Fld := ⟨.SCN_FADESTAT, 0, 16⟩
def SCN_FADESTAT_ACTIVE : Fld := ⟨.SCN_FADESTAT, 16, 1⟩
def SCN_FADESTAT_ARMED : Fld := ⟨.SCN_FADESTAT, 17, 1⟩
def SCN_FADESTAT_REMAIN : Fld := ⟨.SCN_FADESTAT, 18, 12⟩
def SCN_GCTL_START (g : Nat) : Fld := ⟨(.SCN_GCTL g), 0, 1⟩
def SCN_GCTL_STOP (g : Nat) : Fld := ⟨(.SCN_GCTL g), 1, 1⟩
def SCN_GCTL_SLOT (g : Nat) : Fld := ⟨(.SCN_GCTL g), 2, 1⟩
def SCN_GSTAT_STATE (g : Nat) : Fld := ⟨(.SCN_GSTAT g), 0, 2⟩
def SCN_GSTAT_INFORCE (g : Nat) : Fld := ⟨(.SCN_GSTAT g), 2, 1⟩
def SCN_GSTAT_ARMED (g : Nat) : Fld := ⟨(.SCN_GSTAT g), 3, 1⟩
def SCN_GSTAT_ERRCODE (g : Nat) : Fld := ⟨(.SCN_GSTAT g), 4, 4⟩
def SCN_GSTAT_ERRWORD (g : Nat) : Fld := ⟨(.SCN_GSTAT g), 8, 11⟩
def SCN_GSTAT_ERRSLOT (g : Nat) : Fld := ⟨(.SCN_GSTAT g), 19, 1⟩
def SCN_GSTAT_EVHALT (g : Nat) : Fld := ⟨(.SCN_GSTAT g), 20, 1⟩
def SCN_GSTAT_EVSW (g : Nat) : Fld := ⟨(.SCN_GSTAT g), 21, 1⟩
def SCN_GSTAT_EVREF (g : Nat) : Fld := ⟨(.SCN_GSTAT g), 22, 1⟩
def SCN_GSTAT_EVDIAG (g : Nat) : Fld := ⟨(.SCN_GSTAT g), 23, 1⟩
def SCN_GARM_CID (g : Nat) : Fld := ⟨(.SCN_GARM g), 0, 32⟩
def SCN_GTIME_NS (g : Nat) : Fld := ⟨(.SCN_GTIME g), 0, 24⟩
def LMP_CFG_MAPEN : Fld := ⟨.LMP_CFG, 0, 1⟩
def LMP_CFG_CLEAR : Fld := ⟨.LMP_CFG, 1, 1⟩
def LMP_CFG_RBEN : Fld := ⟨.LMP_CFG, 2, 1⟩
def LMP_STAT_CLEARING : Fld := ⟨.LMP_STAT, 0, 1⟩
def LMP_STAT_RBSHORT : Fld := ⟨.LMP_STAT, 1, 1⟩
def LMP_STBASE_ADDR : Fld := ⟨.LMP_STBASE, 0, 28⟩
def LMP_VWIN_FRAMES : Fld := ⟨.LMP_VWIN, 0, 16⟩
def LMP_EPOCH_COUNT : Fld := ⟨.LMP_EPOCH, 0, 32⟩
def LMP_HR_SHORT (g : Nat) : Fld := ⟨(.LMP_HR g), 0, 3⟩
def LMP_HR_NORESP (g : Nat) : Fld := ⟨(.LMP_HR g), 3, 1⟩
def LMP_RBPTR_BLOCK (g : Nat) : Fld := ⟨(.LMP_RBPTR g), 0, 3⟩
def LMP_RBPTR_DRV (g : Nat) : Fld := ⟨(.LMP_RBPTR g), 3, 3⟩
def LMP_RBPTR_PORT (g : Nat) : Fld := ⟨(.LMP_RBPTR g), 6, 3⟩
def LMP_RBPTR_ENTRIES (g : Nat) : Fld := ⟨(.LMP_RBPTR g), 16, 16⟩
def LMP_SWEEPS_COUNT (g : Nat) : Fld := ⟨(.LMP_SWEEPS g), 0, 32⟩
def LMP_PSTAT_SPARECELL (p : Nat) : Fld := ⟨(.LMP_PSTAT p), 0, 1⟩
def LMP_PSTAT_ARMED (p : Nat) : Fld := ⟨(.LMP_PSTAT p), 1, 1⟩
def LMP_PSTAT_EVFAULT (p : Nat) : Fld := ⟨(.LMP_PSTAT p), 8, 1⟩
def LMP_PSTAT_EVNORESP (p : Nat) : Fld := ⟨(.LMP_PSTAT p), 9, 1⟩
def LMP_PSTAT_EVPAD (p : Nat) : Fld := ⟨(.LMP_PSTAT p), 10, 1⟩
def LMP_PSTAT_EVCELL (p : Nat) : Fld := ⟨(.LMP_PSTAT p), 11, 1⟩
def LMP_PCNT_FAULTS (p : Nat) : Fld := ⟨(.LMP_PCNT p), 0, 16⟩
def LMP_PCNT_NORESP (p : Nat) : Fld := ⟨(.LMP_PCNT p), 16, 16⟩
def LMP_PADFAIL_COUNT (p : Nat) : Fld := ⟨(.LMP_PADFAIL p), 0, 32⟩
def HRC_CTL_START (n : Nat) : Fld := ⟨(.HRC_CTL n), 0, 1⟩
def HRC_CTL_HALT (n : Nat) : Fld := ⟨(.HRC_CTL n), 1, 1⟩
def HRC_STAT_STATE (n : Nat) : Fld := ⟨(.HRC_STAT n), 0, 2⟩
def HRC_STAT_HCAUSE (n : Nat) : Fld := ⟨(.HRC_STAT n), 2, 3⟩
def HRC_STAT_DTCODE (n : Nat) : Fld := ⟨(.HRC_STAT n), 8, 8⟩
def HRC_PCLO_ADDR (n : Nat) : Fld := ⟨(.HRC_PCLO n), 0, 32⟩
def HRC_PCHI_ADDR (n : Nat) : Fld := ⟨(.HRC_PCHI n), 0, 8⟩
def HRC_CFG_HEVT (n : Nat) : Fld := ⟨(.HRC_CFG n), 0, 4⟩
def HRC_CFG_HEVEN (n : Nat) : Fld := ⟨(.HRC_CFG n), 4, 1⟩
def HRC_MAP_PHYS : Fld := ⟨.HRC_MAP, 0, 15⟩
def HRC_MAP_SPAREUSED : Fld := ⟨.HRC_MAP, 15, 1⟩
def HRC_ECCCNT_COUNT : Fld := ⟨.HRC_ECCCNT, 0, 32⟩
def EVT_PEND_PEND (j : Nat) : Fld := ⟨(.EVT_PEND j), 0, 32⟩
def EVT_FORCE_EVENT : Fld := ⟨.EVT_FORCE, 0, 9⟩
def EVT_ALERTSRC_EVENT : Fld := ⟨.EVT_ALERTSRC, 0, 10⟩
def EVT_ROUTE_TARGET (k : Nat) : Fld := ⟨(.EVT_ROUTE k), 0, 3⟩
def HST_STAT_LEASED : Fld := ⟨.HST_STAT, 0, 1⟩
def HST_STAT_CARRIER : Fld := ⟨.HST_STAT, 1, 2⟩
def HST_STAT_CHALLENGE : Fld := ⟨.HST_STAT, 3, 1⟩
def HST_STAT_BOOTWAIT : Fld := ⟨.HST_STAT, 4, 1⟩
def HST_STAT_LOCKOUT : Fld := ⟨.HST_STAT, 5, 1⟩
def HST_STAT_ALERT : Fld := ⟨.HST_STAT, 6, 1⟩
def HST_LEASE_REMAIN : Fld := ⟨.HST_LEASE, 0, 16⟩
def HST_LEASE_ID : Fld := ⟨.HST_LEASE, 16, 16⟩
def HST_HOLDER_ADDR : Fld := ⟨.HST_HOLDER, 0, 32⟩
def HST_HOLDPORT_PORT : Fld := ⟨.HST_HOLDPORT, 0, 16⟩
def HST_HCPORT_PORT : Fld := ⟨.HST_HCPORT, 0, 16⟩
def HST_HCCFG_PORT : Fld := ⟨.HST_HCCFG, 0, 3⟩
def HST_HCCFG_EN : Fld := ⟨.HST_HCCFG, 3, 1⟩
def HST_IPADDR_ADDR : Fld := ⟨.HST_IPADDR, 0, 32⟩
def HST_DROPCNT_COUNT : Fld := ⟨.HST_DROPCNT, 0, 32⟩
def HST_AUTHFAIL_COUNT : Fld := ⟨.HST_AUTHFAIL, 0, 32⟩
def HST_SEQERR_COUNT : Fld := ⟨.HST_SEQERR, 0, 32⟩
def HST_LEASECTL_REVOKE : Fld := ⟨.HST_LEASECTL, 0, 1⟩
def HST_DBVAL_VALUE (n : Nat) : Fld := ⟨(.HST_DBVAL n), 0, 32⟩
def MEM_CFG_RATE : Fld := ⟨.MEM_CFG, 0, 2⟩
def MEM_CFG_WIDTH : Fld := ⟨.MEM_CFG, 2, 1⟩
def MEM_CFG_DENS : Fld := ⟨.MEM_CFG, 3, 2⟩
def MEM_CFG_RANKS : Fld := ⟨.MEM_CFG, 5, 1⟩
def MEM_CFG_RSV : Fld := ⟨.MEM_CFG, 6, 1⟩
def MEM_CFG_REF2X : Fld := ⟨.MEM_CFG, 7, 1⟩
def MEM_CFG_TRAIN : Fld := ⟨.MEM_CFG, 8, 1⟩
def MEM_STAT_READY : Fld := ⟨.MEM_STAT, 0, 1⟩
def MEM_STAT_SR : Fld := ⟨.MEM_STAT, 1, 2⟩
def MEM_SIZE_MIB : Fld := ⟨.MEM_SIZE, 0, 15⟩
def MEM_SRCTL_ENTER : Fld := ⟨.MEM_SRCTL, 0, 1⟩
def MEM_SRCTL_EXIT : Fld := ⟨.MEM_SRCTL, 1, 1⟩
def MEM_SRCTL_IDLE : Fld := ⟨.MEM_SRCTL, 8, 16⟩
def MEM_SCRUB_HOURS : Fld := ⟨.MEM_SCRUB, 0, 16⟩
def MEM_NBR_PROB : Fld := ⟨.MEM_NBR, 0, 4⟩
def MEM_PORT_TARGET (i : Nat) : Fld := ⟨(.MEM_PORT i), 0, 16⟩
def MEM_PWAIT_NS (i : Nat) : Fld := ⟨(.MEM_PWAIT i), 0, 16⟩
def MEM_CHSTAT_STATE (ch : Nat) : Fld := ⟨(.MEM_CHSTAT ch), 0, 2⟩
def MEM_CHSTAT_FAILSTEP (ch : Nat) : Fld := ⟨(.MEM_CHSTAT ch), 2, 4⟩
def MEM_CHSTAT_PPRBUSY (ch : Nat) : Fld := ⟨(.MEM_CHSTAT ch), 6, 1⟩
def MEM_CHSTAT_RMBUSY (ch : Nat) : Fld := ⟨(.MEM_CHSTAT ch), 7, 1⟩
def MEM_CHSTAT_RMUSED (ch : Nat) : Fld := ⟨(.MEM_CHSTAT ch), 8, 7⟩
def MEM_CHEV_EV (ch : Nat) : Fld := ⟨(.MEM_CHEV ch), 0, 7⟩
def MEM_ADJ_SEL (ch : Nat) : Fld := ⟨(.MEM_ADJ ch), 0, 5⟩
def MEM_ADJ_MASK (ch : Nat) : Fld := ⟨(.MEM_ADJ ch), 5, 17⟩
def MEM_CECNT_COUNT (ch : Nat) : Fld := ⟨(.MEM_CECNT ch), 0, 32⟩
def MEM_CETHR_COUNT (ch : Nat) : Fld := ⟨(.MEM_CETHR ch), 0, 16⟩
def MEM_UECNT_COUNT (ch : Nat) : Fld := ⟨(.MEM_UECNT ch), 0, 32⟩
def MEM_ECCLOG_ADDR (ch : Nat) : Fld := ⟨(.MEM_ECCLOG ch), 0, 30⟩
def MEM_ECCLOG_POISON (ch : Nat) : Fld := ⟨(.MEM_ECCLOG ch), 30, 1⟩
def MEM_ECCLOG_VALID (ch : Nat) : Fld := ⟨(.MEM_ECCLOG ch), 31, 1⟩
def MEM_CAPAR_COUNT (ch : Nat) : Fld := ⟨(.MEM_CAPAR ch), 0, 32⟩
def MEM_NBRCNT_COUNT (ch : Nat) : Fld := ⟨(.MEM_NBRCNT ch), 0, 32⟩
def MEM_PPR_GO (ch : Nat) : Fld := ⟨(.MEM_PPR ch), 0, 1⟩
def MEM_PPR_HARD (ch : Nat) : Fld := ⟨(.MEM_PPR ch), 1, 1⟩
def MEM_PPR_RANK (ch : Nat) : Fld := ⟨(.MEM_PPR ch), 2, 1⟩
def MEM_PPR_BG (ch : Nat) : Fld := ⟨(.MEM_PPR ch), 3, 2⟩
def MEM_PPR_BANK (ch : Nat) : Fld := ⟨(.MEM_PPR ch), 5, 2⟩
def MEM_PPR_ROW (ch : Nat) : Fld := ⟨(.MEM_PPR ch), 7, 17⟩
def MEM_PPR_RESULT (ch : Nat) : Fld := ⟨(.MEM_PPR ch), 24, 3⟩
def MEM_RMCTL_ENTRY (ch : Nat) : Fld := ⟨(.MEM_RMCTL ch), 0, 6⟩
def MEM_RMCTL_GO (ch : Nat) : Fld := ⟨(.MEM_RMCTL ch), 6, 1⟩
def MEM_REMAP_ROW (ch e : Nat) : Fld := ⟨(.MEM_REMAP ch e), 0, 17⟩
def MEM_REMAP_BANK (ch e : Nat) : Fld := ⟨(.MEM_REMAP ch e), 17, 2⟩
def MEM_REMAP_BG (ch e : Nat) : Fld := ⟨(.MEM_REMAP ch e), 19, 2⟩
def MEM_REMAP_RANK (ch e : Nat) : Fld := ⟨(.MEM_REMAP ch e), 21, 1⟩
def MEM_REMAP_VALID (ch e : Nat) : Fld := ⟨(.MEM_REMAP ch e), 31, 1⟩
def PWR_STAT_COLD : Fld := ⟨.PWR_STAT, 0, 1⟩
def PWR_STAT_ATMAX : Fld := ⟨.PWR_STAT, 1, 1⟩
def PWR_STAT_ATMIN : Fld := ⟨.PWR_STAT, 2, 1⟩
def PWR_STAT_MIDNIGHT : Fld := ⟨.PWR_STAT, 3, 1⟩
def PWR_STAT_HALTOK : Fld := ⟨.PWR_STAT, 4, 1⟩
def PWR_STAT_PFAIL : Fld := ⟨.PWR_STAT, 5, 1⟩
def PWR_STAT_VINLOW : Fld := ⟨.PWR_STAT, 6, 1⟩
def PWR_STAT_PREARM : Fld := ⟨.PWR_STAT, 7, 1⟩
def PWR_STAT_RAILFLT : Fld := ⟨.PWR_STAT, 8, 4⟩
def PWR_STAT_LEDON : Fld := ⟨.PWR_STAT, 12, 4⟩
def PWR_EV_EV : Fld := ⟨.PWR_EV, 0, 12⟩
def PWR_VSET_CODE : Fld := ⟨.PWR_VSET, 0, 6⟩
def PWR_VCORE_CODE : Fld := ⟨.PWR_VCORE, 0, 6⟩
def PWR_VCORE_MV : Fld := ⟨.PWR_VCORE, 16, 10⟩
def PWR_AVSLIM_VMIN : Fld := ⟨.PWR_AVSLIM, 0, 6⟩
def PWR_AVSLIM_VMAX : Fld := ⟨.PWR_AVSLIM, 8, 6⟩
def PWR_AVSCFG_EN : Fld := ⟨.PWR_AVSCFG, 0, 1⟩
def PWR_AVSCFG_UPMISS : Fld := ⟨.PWR_AVSCFG, 1, 3⟩
def PWR_AVSCFG_HOLDN : Fld := ⟨.PWR_AVSCFG, 4, 4⟩
def PWR_AVSCFG_SLACKLO : Fld := ⟨.PWR_AVSCFG, 8, 12⟩
def PWR_AVSCFG_SLACKHI : Fld := ⟨.PWR_AVSCFG, 20, 12⟩
def PWR_AVSPRE_CODE : Fld := ⟨.PWR_AVSPRE, 0, 6⟩
def PWR_AVSPCID_CID : Fld := ⟨.PWR_AVSPCID, 0, 32⟩
def PWR_SPEED_S : Fld := ⟨.PWR_SPEED, 0, 16⟩
def PWR_SLACK_US : Fld := ⟨.PWR_SLACK, 0, 16⟩
def PWR_SLACK_MISS : Fld := ⟨.PWR_SLACK, 16, 1⟩
def PWR_SLACKMIN_US : Fld := ⟨.PWR_SLACKMIN, 0, 16⟩
def PWR_MID_CODE : Fld := ⟨.PWR_MID, 0, 6⟩
def PWR_MID_VINEN : Fld := ⟨.PWR_MID, 8, 1⟩
def PWR_VIN_FAIL : Fld := ⟨.PWR_VIN, 0, 12⟩
def PWR_VIN_WARN : Fld := ⟨.PWR_VIN, 16, 12⟩
def PWR_VINVAL_CODE : Fld := ⟨.PWR_VINVAL, 0, 12⟩
def PWR_PHLIMCNT_COUNT : Fld := ⟨.PWR_PHLIMCNT, 0, 32⟩
def PWR_LEDSAFE_COUNT : Fld := ⟨.PWR_LEDSAFE, 0, 32⟩
def PWR_PHASE_RAIL (k : Nat) : Fld := ⟨(.PWR_PHASE k), 0, 3⟩
def PWR_SNS_KIND (i : Nat) : Fld := ⟨(.PWR_SNS i), 0, 2⟩
def PWR_SNS_INDEX (i : Nat) : Fld := ⟨(.PWR_SNS i), 2, 4⟩
def PWR_SNS_RATIO (i : Nat) : Fld := ⟨(.PWR_SNS i), 6, 10⟩
def PWR_SNS_LIM (i : Nat) : Fld := ⟨(.PWR_SNS i), 16, 12⟩
def PWR_SVAL_CODE (i : Nat) : Fld := ⟨(.PWR_SVAL i), 0, 12⟩
def PWR_PER_PER (k : Nat) : Fld := ⟨(.PWR_PER k), 0, 14⟩
def PWR_COMP_KP (k : Nat) : Fld := ⟨(.PWR_COMP k), 0, 16⟩
def PWR_COMP_KI (k : Nat) : Fld := ⟨(.PWR_COMP k), 16, 16⟩
def PWR_LEDMAP_GMASK (r : Nat) : Fld := ⟨(.PWR_LEDMAP r), 0, 16⟩
def PWR_LEDMAP_CMASK (r : Nat) : Fld := ⟨(.PWR_LEDMAP r), 16, 3⟩
def PWR_LEDMAP_EN (r : Nat) : Fld := ⟨(.PWR_LEDMAP r), 31, 1⟩
def PWR_LEDLIM_VMAX (r : Nat) : Fld := ⟨(.PWR_LEDLIM r), 0, 16⟩
def PWR_LEDLIM_VMIN (r : Nat) : Fld := ⟨(.PWR_LEDLIM r), 16, 16⟩
def PWR_LEDCFG_VBASE (r : Nat) : Fld := ⟨(.PWR_LEDCFG r), 0, 16⟩
def PWR_LEDCFG_RSLOPE (r : Nat) : Fld := ⟨(.PWR_LEDCFG r), 16, 16⟩
def PWR_LEDHR_HRUP (r : Nat) : Fld := ⟨(.PWR_LEDHR r), 0, 8⟩
def PWR_LEDHR_HRDN (r : Nat) : Fld := ⟨(.PWR_LEDHR r), 8, 8⟩
def PWR_LEDHR_HRN (r : Nat) : Fld := ⟨(.PWR_LEDHR r), 16, 8⟩
def PWR_LEDHR_ADV (r : Nat) : Fld := ⟨(.PWR_LEDHR r), 24, 8⟩
def PWR_LEDIDLE_VIDLE (r : Nat) : Fld := ⟨(.PWR_LEDIDLE r), 0, 16⟩
def PWR_LEDIDLE_OFFMAX (r : Nat) : Fld := ⟨(.PWR_LEDIDLE r), 16, 16⟩
def PWR_LEDSTAT_SETMV (r : Nat) : Fld := ⟨(.PWR_LEDSTAT r), 0, 16⟩
def PWR_LEDSTAT_OFF (r : Nat) : Fld := ⟨(.PWR_LEDSTAT r), 16, 16⟩
def PWR_LEDPK_DMAX (r : Nat) : Fld := ⟨(.PWR_LEDPK r), 0, 16⟩
def HKP_CTL_TRIPCLR : Fld := ⟨.HKP_CTL, 0, 1⟩
def HKP_CTL_IDREAD : Fld := ⟨.HKP_CTL, 1, 1⟩
def HKP_STAT_TRIP : Fld := ⟨.HKP_STAT, 0, 1⟩
def HKP_STAT_TRIPSRC : Fld := ⟨.HKP_STAT, 1, 1⟩
def HKP_STAT_JWARN : Fld := ⟨.HKP_STAT, 2, 1⟩
def HKP_STAT_LWARN : Fld := ⟨.HKP_STAT, 3, 1⟩
def HKP_STAT_DERATING : Fld := ⟨.HKP_STAT, 4, 1⟩
def HKP_STAT_RISE : Fld := ⟨.HKP_STAT, 5, 1⟩
def HKP_STAT_NOPROOF : Fld := ⟨.HKP_STAT, 6, 1⟩
def HKP_STAT_RECPEND : Fld := ⟨.HKP_STAT, 7, 1⟩
def HKP_STAT_IDVALID : Fld := ⟨.HKP_STAT, 8, 1⟩
def HKP_EV_EV : Fld := ⟨.HKP_EV, 0, 11⟩
def HKP_TJ_MAX : Fld := ⟨.HKP_TJ, 0, 16⟩
def HKP_TJ_MIN : Fld := ⟨.HKP_TJ, 16, 16⟩
def HKP_TLB_MAX : Fld := ⟨.HKP_TLB, 0, 16⟩
def HKP_JLIM_WARN : Fld := ⟨.HKP_JLIM, 0, 16⟩
def HKP_JLIM_TRIP : Fld := ⟨.HKP_JLIM, 16, 16⟩
def HKP_LLIM_WARN : Fld := ⟨.HKP_LLIM, 0, 16⟩
def HKP_LLIM_DERATE : Fld := ⟨.HKP_LLIM, 16, 16⟩
def HKP_LTRIP_TRIP : Fld := ⟨.HKP_LTRIP, 0, 16⟩
def HKP_LTRIP_HYST : Fld := ⟨.HKP_LTRIP, 16, 16⟩
def HKP_RISE_LIMIT : Fld := ⟨.HKP_RISE, 0, 16⟩
def HKP_DERATE_GAIN : Fld := ⟨.HKP_DERATE, 0, 16⟩
def HKP_THVALID_MIN : Fld := ⟨.HKP_THVALID, 0, 12⟩
def HKP_THVALID_MAX : Fld := ⟨.HKP_THVALID, 16, 12⟩
def HKP_ROUNDS_COUNT : Fld := ⟨.HKP_ROUNDS, 0, 32⟩
def HKP_TRIPCNT_COUNT : Fld := ⟨.HKP_TRIPCNT, 0, 32⟩
def HKP_DIEMAP_PHYS : Fld := ⟨.HKP_DIEMAP, 0, 32⟩
def HKP_CH_KIND (i : Nat) : Fld := ⟨(.HKP_CH i), 0, 2⟩
def HKP_VAL_CODE (i : Nat) : Fld := ⟨(.HKP_VAL i), 0, 12⟩
def HKP_VAL_VALID (i : Nat) : Fld := ⟨(.HKP_VAL i), 12, 1⟩
def HKP_VAL_TEMP (i : Nat) : Fld := ⟨(.HKP_VAL i), 16, 16⟩
def HKP_DIE_TEMP (k : Nat) : Fld := ⟨(.HKP_DIE k), 0, 16⟩
def HKP_DIE_VALID (k : Nat) : Fld := ⟨(.HKP_DIE k), 16, 1⟩
def HKP_TTAB_TEMP (k : Nat) : Fld := ⟨(.HKP_TTAB k), 0, 16⟩
def HKP_I2CCFG_SPEED : Fld := ⟨.HKP_I2CCFG, 0, 1⟩
def HKP_I2CCFG_IDADDR : Fld := ⟨.HKP_I2CCFG, 8, 7⟩
def HKP_I2CCMD_ADDR : Fld := ⟨.HKP_I2CCMD, 0, 7⟩
def HKP_I2CCMD_RD : Fld := ⟨.HKP_I2CCMD, 7, 1⟩
def HKP_I2CCMD_REG : Fld := ⟨.HKP_I2CCMD, 8, 8⟩
def HKP_I2CCMD_LEN : Fld := ⟨.HKP_I2CCMD, 16, 3⟩
def HKP_I2CCMD_GO : Fld := ⟨.HKP_I2CCMD, 31, 1⟩
def HKP_I2CDATA_DATA : Fld := ⟨.HKP_I2CDATA, 0, 32⟩
def HKP_I2CSTAT_BUSY : Fld := ⟨.HKP_I2CSTAT, 0, 1⟩
def HKP_I2CSTAT_RESULT : Fld := ⟨.HKP_I2CSTAT, 1, 2⟩
def HKP_CSADDR_ADDR (s : Nat) : Fld := ⟨(.HKP_CSADDR s), 0, 7⟩
def HKP_CSADDR_EN (s : Nat) : Fld := ⟨(.HKP_CSADDR s), 31, 1⟩
def HKP_CSM_COUNT (s c : Nat) : Fld := ⟨(.HKP_CSM s c), 0, 24⟩
def HKP_CSM_VALID (s c : Nat) : Fld := ⟨(.HKP_CSM s c), 31, 1⟩
def HKP_ID_BYTES (k : Nat) : Fld := ⟨(.HKP_ID k), 0, 32⟩
def HKP_SDCTL_INIT : Fld := ⟨.HKP_SDCTL, 0, 1⟩
def HKP_SDCTL_GO : Fld := ⟨.HKP_SDCTL, 1, 1⟩
def HKP_SDCTL_WRITE : Fld := ⟨.HKP_SDCTL, 2, 1⟩
def HKP_SDSTAT_STATE : Fld := ⟨.HKP_SDSTAT, 0, 2⟩
def HKP_SDSTAT_BUSY : Fld := ⟨.HKP_SDSTAT, 2, 1⟩
def HKP_SDSTAT_PRESENT : Fld := ⟨.HKP_SDSTAT, 3, 1⟩
def HKP_SDSTAT_SDR50 : Fld := ⟨.HKP_SDSTAT, 4, 1⟩
def HKP_SDSTAT_PARTOK : Fld := ⟨.HKP_SDSTAT, 5, 1⟩
def HKP_SDSTAT_RESULT : Fld := ⟨.HKP_SDSTAT, 8, 3⟩
def HKP_SDEV_EV : Fld := ⟨.HKP_SDEV, 0, 4⟩
def HKP_SDLBA_SECTOR : Fld := ⟨.HKP_SDLBA, 0, 32⟩
def HKP_SDCNT_SECTORS : Fld := ⟨.HKP_SDCNT, 0, 16⟩
def HKP_SDADDR_ADDR : Fld := ⟨.HKP_SDADDR, 0, 31⟩
def HKP_SDCAP_SECTORS : Fld := ⟨.HKP_SDCAP, 0, 32⟩
def HKP_SDPART_SECTOR : Fld := ⟨.HKP_SDPART, 0, 32⟩
def HKP_SDPLEN_SECTORS : Fld := ⟨.HKP_SDPLEN, 0, 32⟩
def HKP_SDCRC_COUNT : Fld := ⟨.HKP_SDCRC, 0, 32⟩
def ASR_STAT_TRIMBAD : Fld := ⟨.ASR_STAT, 0, 1⟩
def ASR_STAT_FLOORBAD : Fld := ⟨.ASR_STAT, 1, 1⟩
def ASR_STAT_MAPBAD : Fld := ⟨.ASR_STAT, 2, 1⟩
def ASR_STAT_MAPHELD : Fld := ⟨.ASR_STAT, 3, 1⟩
def ASR_STAT_SLICE : Fld := ⟨.ASR_STAT, 4, 1⟩
def ASR_STAT_NVBUSY : Fld := ⟨.ASR_STAT, 5, 1⟩
def ASR_EV_EV : Fld := ⟨.ASR_EV, 0, 8⟩
def ASR_CTL_TRIMCOMMIT : Fld := ⟨.ASR_CTL, 0, 1⟩
def ASR_CTL_CALSAVE : Fld := ⟨.ASR_CTL, 1, 1⟩
def ASR_NVGUARD_BURST : Fld := ⟨.ASR_NVGUARD, 0, 4⟩
def ASR_NVGUARD_REFILL : Fld := ⟨.ASR_NVGUARD, 16, 16⟩
def ASR_NVSTAT_CREDITS : Fld := ⟨.ASR_NVSTAT, 0, 4⟩
def ASR_NVSTAT_SPARES : Fld := ⟨.ASR_NVSTAT, 4, 8⟩
def ASR_NVSTAT_LASTRES : Fld := ⟨.ASR_NVSTAT, 12, 3⟩
def ASR_NVSTAT_REFCNT : Fld := ⟨.ASR_NVSTAT, 16, 16⟩
def ASR_NVQ_PAGE : Fld := ⟨.ASR_NVQ, 0, 7⟩
def ASR_NVQ_COUNT : Fld := ⟨.ASR_NVQ, 8, 16⟩
def ASR_NVQ_SPARE : Fld := ⟨.ASR_NVQ, 24, 1⟩
def ASR_NVQ_FAILED : Fld := ⟨.ASR_NVQ, 25, 1⟩
def ASR_CALCNT_COUNT : Fld := ⟨.ASR_CALCNT, 0, 32⟩
def ASR_CALTIME_SEC : Fld := ⟨.ASR_CALTIME, 0, 32⟩
def ASR_TRIMSTAT_PEND : Fld := ⟨.ASR_TRIMSTAT, 0, 6⟩
def ASR_TRIMSTAT_SAVERES : Fld := ⟨.ASR_TRIMSTAT, 8, 3⟩
def ASR_SLICECFG_BUDGET : Fld := ⟨.ASR_SLICECFG, 0, 8⟩
def ASR_SLICECTL_UNIT : Fld := ⟨.ASR_SLICECTL, 0, 10⟩
def ASR_SLICECTL_COUNT : Fld := ⟨.ASR_SLICECTL, 10, 10⟩
def ASR_SLICECTL_GO : Fld := ⟨.ASR_SLICECTL, 31, 1⟩
def ASR_SLICESTAT_UNIT : Fld := ⟨.ASR_SLICESTAT, 0, 10⟩
def ASR_SLICESTAT_RESULT : Fld := ⟨.ASR_SLICESTAT, 10, 3⟩
def ASR_SLICESTAT_BUSY : Fld := ⟨.ASR_SLICESTAT, 13, 1⟩
def ASR_FAILROW_ROW : Fld := ⟨.ASR_FAILROW, 0, 23⟩
def ASR_FAILROW_VALID : Fld := ⟨.ASR_FAILROW, 31, 1⟩
def ASR_TESTFAIL_COUNT : Fld := ⟨.ASR_TESTFAIL, 0, 32⟩
def ASR_MAPSTAT_SEQ : Fld := ⟨.ASR_MAPSTAT, 0, 16⟩
def ASR_MAPSTAT_FULL : Fld := ⟨.ASR_MAPSTAT, 16, 4⟩
def ASR_PROOFCFG_EN : Fld := ⟨.ASR_PROOFCFG, 0, 1⟩
def ASR_PROOFCFG_FREEZEN : Fld := ⟨.ASR_PROOFCFG, 8, 8⟩
def ASR_PROOFCFG_PERIOD : Fld := ⟨.ASR_PROOFCFG, 16, 12⟩
def ASR_PROOFSTAT_RUN : Fld := ⟨.ASR_PROOFSTAT, 0, 8⟩
def ASR_PROOFSTAT_FREEZE : Fld := ⟨.ASR_PROOFSTAT, 8, 1⟩
def ASR_PROOFSTAT_ANCHPEND : Fld := ⟨.ASR_PROOFSTAT, 9, 1⟩
def ASR_STEPS_COUNT : Fld := ⟨.ASR_STEPS, 0, 32⟩
def ASR_SIGHI_SIG : Fld := ⟨.ASR_SIGHI, 0, 32⟩
def ASR_SIGLO_SIG : Fld := ⟨.ASR_SIGLO, 0, 32⟩
def ASR_ANCHSEQ_SEQ : Fld := ⟨.ASR_ANCHSEQ, 0, 32⟩
def ASR_HEAD_BYTES (k : Nat) : Fld := ⟨(.ASR_HEAD k), 0, 32⟩
def ASR_DEVID_BYTES (k : Nat) : Fld := ⟨(.ASR_DEVID k), 0, 32⟩
def ASR_HKHASH_BYTES (k : Nat) : Fld := ⟨(.ASR_HKHASH k), 0, 32⟩
def ASR_MKHASH_BYTES (k : Nat) : Fld := ⟨(.ASR_MKHASH k), 0, 32⟩
def ASR_DEVPUB_BYTES (k : Nat) : Fld := ⟨(.ASR_DEVPUB k), 0, 32⟩
def ASR_TRIM_BYTES (k : Nat) : Fld := ⟨(.ASR_TRIM k), 0, 32⟩
def ASR_TRIMF_BYTES (k : Nat) : Fld := ⟨(.ASR_TRIMF k), 0, 32⟩
def MIR_CTL_BECOME : Fld := ⟨.MIR_CTL, 0, 2⟩
def MIR_CTL_HANDOVER : Fld := ⟨.MIR_CTL, 2, 1⟩
def MIR_CTL_CKGO : Fld := ⟨.MIR_CTL, 3, 1⟩
def MIR_CFG_AUTOTAKE : Fld := ⟨.MIR_CFG, 0, 1⟩
def MIR_CFG_SILEN : Fld := ⟨.MIR_CFG, 1, 1⟩
def MIR_CFG_TSRC : Fld := ⟨.MIR_CFG, 2, 1⟩
def MIR_CFG_HBPER : Fld := ⟨.MIR_CFG, 8, 8⟩
def MIR_CFG_SILENCE : Fld := ⟨.MIR_CFG, 16, 16⟩
def MIR_STAT_ROLE : Fld := ⟨.MIR_STAT, 0, 2⟩
def MIR_STAT_PROLE : Fld := ⟨.MIR_STAT, 2, 2⟩
def MIR_STAT_PARTNER : Fld := ⟨.MIR_STAT, 4, 1⟩
def MIR_STAT_READY : Fld := ⟨.MIR_STAT, 5, 1⟩
def MIR_STAT_ALONE : Fld := ⟨.MIR_STAT, 6, 1⟩
def MIR_STAT_HOARMED : Fld := ⟨.MIR_STAT, 7, 1⟩
def MIR_STAT_HORES : Fld := ⟨.MIR_STAT, 8, 3⟩
def MIR_STAT_HOSTGAP : Fld := ⟨.MIR_STAT, 11, 1⟩
def MIR_STAT_READYAT : Fld := ⟨.MIR_STAT, 12, 1⟩
def MIR_EV_EV : Fld := ⟨.MIR_EV, 0, 8⟩
def MIR_PEPOCH_EPOCH : Fld := ⟨.MIR_PEPOCH, 0, 32⟩
def MIR_HOSEC_SEC : Fld := ⟨.MIR_HOSEC, 0, 32⟩
def MIR_HONS_NS : Fld := ⟨.MIR_HONS, 0, 30⟩
def MIR_HRBASE_ADDR : Fld := ⟨.MIR_HRBASE, 0, 28⟩
def MIR_HRBASE_EN : Fld := ⟨.MIR_HRBASE, 31, 1⟩
def MIR_HRHEAD_SLOT : Fld := ⟨.MIR_HRHEAD, 0, 6⟩
def MIR_HRTAIL_SLOT : Fld := ⟨.MIR_HRTAIL, 0, 6⟩
def MIR_HRDROP_COUNT : Fld := ⟨.MIR_HRDROP, 0, 32⟩
def MIR_CKSRC_ADDR : Fld := ⟨.MIR_CKSRC, 0, 28⟩
def MIR_CKDST_ADDR : Fld := ⟨.MIR_CKDST, 0, 28⟩
def MIR_CKLEN_PAGES : Fld := ⟨.MIR_CKLEN, 0, 13⟩
def MIR_CKSTAT_SEQ : Fld := ⟨.MIR_CKSTAT, 0, 16⟩
def MIR_CKSTAT_BUSY : Fld := ⟨.MIR_CKSTAT, 16, 1⟩
def MIR_CKSTAT_FAIL : Fld := ⟨.MIR_CKSTAT, 17, 1⟩
def MIR_XCOK_COUNT : Fld := ⟨.MIR_XCOK, 0, 32⟩
def MIR_XCERR_COUNT : Fld := ⟨.MIR_XCERR, 0, 32⟩
def MIR_XCLAST_HANDLE : Fld := ⟨.MIR_XCLAST, 0, 12⟩
def MIR_XCLAST_GEN : Fld := ⟨.MIR_XCLAST, 12, 16⟩
def MIR_XCLAST_CHAIN : Fld := ⟨.MIR_XCLAST, 28, 3⟩
def MIR_XCLAST_TOKEN : Fld := ⟨.MIR_XCLAST, 31, 1⟩
def MIR_HBMISS_COUNT : Fld := ⟨.MIR_HBMISS, 0, 32⟩
def MIR_TAKES_COUNT : Fld := ⟨.MIR_TAKES, 0, 32⟩
def MIR_ORPHAN_COUNT : Fld := ⟨.MIR_ORPHAN, 0, 32⟩
def BOT_STAT_STAGE : Fld := ⟨.BOT_STAT, 0, 3⟩
def BOT_STAT_BOOTSEL : Fld := ⟨.BOT_STAT, 3, 2⟩
def BOT_STAT_ROLE : Fld := ⟨.BOT_STAT, 5, 1⟩
def BOT_STAT_FALLBACK : Fld := ⟨.BOT_STAT, 6, 1⟩
def BOT_STAT_ERR : Fld := ⟨.BOT_STAT, 8, 4⟩
def BOT_STAT_FLOORRES : Fld := ⟨.BOT_STAT, 12, 3⟩
def BOT_EV_EV : Fld := ⟨.BOT_EV, 0, 6⟩
def BOT_CTL_PUSHGO : Fld := ⟨.BOT_CTL, 0, 1⟩
def BOT_CTL_DAWNDONE : Fld := ⟨.BOT_CTL, 1, 1⟩
def BOT_CTL_DUSK : Fld := ⟨.BOT_CTL, 2, 1⟩
def BOT_CTL_FLOORUP : Fld := ⟨.BOT_CTL, 3, 1⟩
def BOT_RESET_KEY : Fld := ⟨.BOT_RESET, 0, 8⟩
def BOT_LCS_STATE : Fld := ⟨.BOT_LCS, 0, 3⟩
def BOT_LCS_BUSY : Fld := ⟨.BOT_LCS, 3, 1⟩
def BOT_LCS_RESULT : Fld := ⟨.BOT_LCS, 4, 3⟩
def BOT_LCTL_OP : Fld := ⟨.BOT_LCTL, 0, 3⟩
def BOT_LCTL_ADDR : Fld := ⟨.BOT_LCTL, 8, 16⟩
def BOT_LCTL_KEY : Fld := ⟨.BOT_LCTL, 24, 8⟩
def BOT_NONCE_NONCE : Fld := ⟨.BOT_NONCE, 0, 32⟩
def BOT_MVER_VERSION : Fld := ⟨.BOT_MVER, 0, 16⟩
def BOT_MVER_SLOT : Fld := ⟨.BOT_MVER, 16, 1⟩
def BOT_MVER_PUSHED : Fld := ⟨.BOT_MVER, 17, 1⟩
def BOT_MDIG_DIGEST : Fld := ⟨.BOT_MDIG, 0, 32⟩
def BOT_MARKER_SEQ : Fld := ⟨.BOT_MARKER, 0, 32⟩
def BOT_DAWNCFG_TWAIT : Fld := ⟨.BOT_DAWNCFG, 0, 16⟩
def BOT_DAWNCFG_LIMIT : Fld := ⟨.BOT_DAWNCFG, 16, 16⟩
def BOT_DUSKCFG_BUDGET : Fld := ⟨.BOT_DUSKCFG, 0, 16⟩
def BOT_DUSKSTAT_DONE : Fld := ⟨.BOT_DUSKSTAT, 0, 1⟩
def BOT_DUSKSTAT_SEALED : Fld := ⟨.BOT_DUSKSTAT, 1, 1⟩
def BOT_DUSKSTAT_NOSEAL : Fld := ⟨.BOT_DUSKSTAT, 2, 1⟩
def BOT_DUSKSTAT_SLICES : Fld := ⟨.BOT_DUSKSTAT, 8, 8⟩
def BOT_DUSKSTAT_MS : Fld := ⟨.BOT_DUSKSTAT, 16, 16⟩
def BOT_SEAL_STATE : Fld := ⟨.BOT_SEAL, 0, 3⟩
def BOT_SEAL_POST : Fld := ⟨.BOT_SEAL, 3, 1⟩
def BOT_SEAL_POSTFAIL : Fld := ⟨.BOT_SEAL, 4, 1⟩
def BOT_MCHK_OFFSET : Fld := ⟨.BOT_MCHK, 0, 9⟩
def BOT_MCHKSTAT_RESULT : Fld := ⟨.BOT_MCHKSTAT, 0, 4⟩
def BOT_MCHKSTAT_BUSY : Fld := ⟨.BOT_MCHKSTAT, 4, 1⟩
def BOT_MCHKSTAT_VALID : Fld := ⟨.BOT_MCHKSTAT, 5, 1⟩
def BOT_FLOOR_LO (j : Nat) : Fld := ⟨(.BOT_FLOOR j), 0, 16⟩
def BOT_FLOOR_HI (j : Nat) : Fld := ⟨(.BOT_FLOOR j), 16, 16⟩

end F

end Sys2Proof.Machine
end

