-- ==== Sys2Proof/Machine/StateTypes.lean ====
section
/-! DEFINITION. The records that State is built of: what each unit of the part holds beside its device state words. -/

namespace Sys2Proof.Machine

/-! ### Hour cores and the transfer engine (chapters 3 and 4) -/

/-- What a waiting core waits for (R76, R79, R83, R82, R87). The instruction's own operands are kept, since its
result is written when the wait ends. -/
inductive Wait where
  | await (gd : BitVec 5) (timeout : Nat)
  | waitt (gd : BitVec 5) (quad : BitVec 5)
  | xwait (gd : BitVec 5) (ticket : Nat)
  | xfer (gd ga : BitVec 5)
  | nvwr (gd : BitVec 5) (page : Nat) (data : List Byte)
deriving DecidableEq, Repr

/-- One piece of a PUT or GET (R102): its offset in the transfer, its length, whether its request was sent and the
status it ended with. -/
structure Piece where
  off : Nat
  len : Nat
  sent : Bool
  status : Option Nat
deriving DecidableEq, Repr

/-- A transfer in progress (R100 to R104): the fields of its descriptor. -/
structure Transfer where
  kind : Nat
  even : Bool
  evt : Nat
  len : Nat
  src : Nat
  dst : Nat
  pieces : List Piece
deriving DecidableEq, Repr

/-- One of a core's 16 tickets: the transfer in progress under it and the stored status of the last one. -/
structure Ticket where
  busy : Option Transfer
  status : Nat
deriving DecidableEq, Repr

/-- An Hour core (R46 to R91): general registers g0 to g31 (the place of g0 is never read), the program counter, the
core status words of Table 3.6, the wait it is in, a halt request not yet carried out and its tickets. The running
state, halt cause and resume address are in the HRC words. -/
structure Core where
  g : Vector Word 32
  pc : BitVec 40
  sup : Bool
  psup : Bool
  inTrap : Bool
  epc : BitVec 40
  causeCode : Byte
  causeDetail : Byte
  tvec : BitVec 40
  evmask : BitVec 16
  instret : BitVec 64
  wait : Option Wait
  haltReq : Bool
  tickets : Vector Ticket 16
deriving DecidableEq, Repr

/-- The state of a core after a full reset (R93, R554, Tables 3.7 and 3.8). -/
def Core.reset : Core where
  g := Vector.replicate 32 0
  pc := 0xFFFFFF0000
  sup := true
  psup := false
  inTrap := false
  epc := 0
  causeCode := 0
  causeDetail := 0
  tvec := 0xFFFFFF0040
  evmask := 0
  instret := 0
  wait := none
  haltReq := false
  tickets := Vector.replicate 16 ⟨none, 0⟩

/-! ### Lanes (chapter 6) -/

/-- A lane substitution armed on a port (R148 to R152): the port lane to be retired, the spare, whether this end asked
for it, whether this end accepts, the SUBACKs sent and received, whether the swap blocks have gone out, and whether the
partner has sent capability blocks on the spare without SUBACK. -/
structure LaneSub where
  port : Nat
  lane : Nat
  spare : Nat
  own : Bool
  accept : Bool
  ackSent : Bool
  ackReceived : Bool
  swapped : Bool
  heard : Bool
deriving DecidableEq, Repr

/-- What the lanes hold beside the LAN words: the lanes with an eye survey in progress (R144), the last capability
block of each lane with the number of identical consecutive ones (R139), the substitutions in progress, the lanes at
whose pass of the exchange either end asked for FEC (R158), and the lanes whose DFE has gone on adapting since DFE1 was
last taken down (R142). -/
structure LanState where
  surveying : List Nat
  caps : List (Nat × BitVec 56 × Nat)
  subs : List LaneSub
  fec : List Nat
  adapting : List Nat
deriving DecidableEq, Repr

/-! ### The wall link (chapter 7) -/

/-- Content of VC0 waiting to be sent; the times that the port inserts while a cell is sent are not yet in it (R203,
R204). A forwarded TIME cell comes with the local time r at which it reached the receive balls; its CORRECTION still
lacks x − r (R205). -/
inductive Vc0Item where
  | time (epoch : BitVec 32) (fromB : Bool) (seq : BitVec 16)
  | forward (cell : TimeCell) (r : Int)
  | ldreq (seq : BitVec 16)
  | ldrsp (seq : BitVec 16) (t2 : Nat)
deriving DecidableEq, Repr

/-- A VC1 or VC2 cell waiting to be sent: its units, the port whose credit is returned once it has been sent (R165;
none for a cell of the part's own), whether it counts against the 32 messages of R179, and the launch entry or, on the
mirror port, the held host response that it belongs to. -/
structure QCell where
  units : List (BitVec 64)
  via : Option Nat
  isMsg : Bool
  entry : Option Nat
deriving DecidableEq, Repr

/-- VC3 content waiting to be sent (R157, R174): units of a run at hand, blocks still to be read from the generation's
storage, or a generation end marker. `cont` says that the run has begun; `gran` is the credit to return to `via`. -/
inductive Vc3Item where
  | run (handle gen block : Nat) (units : List (BitVec 64)) (cont : Bool) (via : Option Nat) (gran : Nat)
  | source (handle gen block count : Nat) (cut : List (BitVec 64)) (cont : Bool) (entry : Nat)
  | genEnd (handle gen : Nat) (via : Option Nat) (entry : Option Nat)
deriving DecidableEq, Repr

/-- A frame kept until it is acknowledged (R161), and the descriptor that holds its VC0 cells, if any, which a resend
replaces by padding (R160). -/
structure KeptFrame where
  seq : Nat
  desc : Vector (BitVec 64) 4
  area : Vector (BitVec 64) 117
  credits : BitVec 32
  vc0 : Option Nat
deriving DecidableEq, Repr

/-- The picture run being received (R157): handle, generation, next block and the units of a block still cut. -/
structure RunRx where
  handle : Nat
  gen : Nat
  block : Nat
  units : List (BitVec 64)
deriving DecidableEq, Repr

/-- A chain port or the mirror port (R154 to R166, R186, R203, R204). `odd` says that the next block of its block stream
has an odd number (R154). -/
structure Port where
  txSeq : Nat
  rxNext : Nat
  nakDue : Bool
  nakOpen : Bool
  kept : List KeptFrame
  resend : List KeptFrame
  rounds : Nat
  credit1 : Nat
  credit2 : Nat
  credit3 : Nat
  return1 : Nat
  return2 : Nat
  return3 : Nat
  vc0 : List Vc0Item
  vc1 : List QCell
  vc2 : List QCell
  vc3 : List Vc3Item
  ownTurn : Bool
  cut : List (BitVec 64)
  cutEntry : Option Nat
  cellRx : List (BitVec 64)
  runRx : Option RunRx
  allowance : Nat
  announcing : Bool
  annEpoch : BitVec 32
  timeSeq : BitVec 16
  ldSeq : BitVec 16
  ldPending : Option (BitVec 16 × Nat)
  ldMean : Int
  ldKept : Nat
  posSent : Option (Nat × Bool)
  odd : Bool
deriving DecidableEq, Repr

/-- A port that has just come up or has never been up: SEQ from 0 and full credits (R162, Table 7.5). -/
def Port.reset : Port where
  txSeq := 0
  rxNext := 0
  nakDue := false
  nakOpen := false
  kept := []
  resend := []
  rounds := 0
  credit1 := 256
  credit2 := 512
  credit3 := 1024
  return1 := 0
  return2 := 0
  return3 := 0
  vc0 := []
  vc1 := []
  vc2 := []
  vc3 := []
  ownTurn := false
  cut := []
  cutEntry := none
  cellRx := []
  runRx := none
  allowance := 0
  announcing := false
  annEpoch := 0
  timeSeq := 0
  ldSeq := 0
  ldPending := none
  ldMean := 0
  ldKept := 0
  posSent := none
  odd := false

/-- For whom a sender's tag is held (R27, R102): a relayed transaction of a carrier, a piece of a transfer, or a
request of the partner taken over (R398). -/
inductive TagOwner where
  | relay (carrier : Carrier)
  | piece (core ticket index : Nat)
  | partner (origin : Nat)
deriving DecidableEq, Repr

/-- A tag of a chain that is OUTSTANDING or PROBING (Table 7.10). -/
structure SendTag where
  chain : Nat
  tag : Nat
  tgen : Nat
  probing : Bool
  probeDue : Bool
  req : Nat
  position : Nat
  addr : Nat
  words : Nat
  hostTag : Nat
  owner : TagOwner
deriving DecidableEq, Repr

/-- A tile's record of the last request under a tag (R182). -/
structure TileTag where
  tag : Nat
  tgen : Nat
  req : Nat
  addr : Nat
  words : Nat
  status : Nat
  keptData : Bool
deriving DecidableEq, Repr

/-- A show token as accepted (R177): its show instant in 1/65,536 ns, its content, and whether the composition of its
frame has finished (R267). -/
structure Token where
  instant : Nat
  commit : Nat
  layers : List (BitVec 32)
  finished : Bool
deriving DecidableEq, Repr

/-- What the wall link holds beside the LNK words: the nine ports, the sender's tags and tag generations, the tile's
tag records and refused requests, the device identity of a tile's master, the accepted tokens whose instants have not
passed, those accepted since the last TSTEP whose instants have passed (R177), and the latest show instant accepted since
then. -/
structure LnkState where
  ports : Vector Port 9
  tags : List SendTag
  tgens : List (Nat × Nat × Nat)
  tileTags : List TileTag
  refusedTags : List (Nat × Nat)
  masterId : BitVec 128
  tokens : List Token
  shown : List Token
  lastShow : Option Nat
deriving DecidableEq, Repr

/-! ### Wall time (chapter 8) -/

/-- An entry of a launch queue (R207 to R209, Table 8.4); its launch time in 1/65,536 ns. -/
structure LaunchEntry where
  id : Nat
  kind : Nat
  len : Nat
  src : Nat
  time : Nat
  handle : Nat
  gen : Nat
  started : Bool
deriving DecidableEq, Repr

/-- A pulse output TS_OUTi (R216), in edges of the local clock's 160 ps grid since reset: the edge at which an active
pulse returns, and the first edge at which the next may begin. -/
structure Pulse where
  ends : Option Nat
  next : Nat
deriving DecidableEq, Repr

/-- A frame placed on a tile's grid (R211, R212): its show instant and period in 1/65,536 ns, and its refreshes. -/
structure GridFrame where
  instant : Nat
  period : Nat
  n : Nat
deriving DecidableEq, Repr

/-- What the timekeeper holds beside the TIM words: the wall time in 2^-32 ns (R193), the tick phase modulo 5, the
ticks since reset, the slew per tick and the ticks it still runs, the first-measurement flag, the held step in
1/65,536 ns, the tick of the last accepted measurement, the magnitudes of the last applied offsets, the epoch of the
last accepted TIME cell, the tick at which HOLD began, the launch queues and the next entry number, the pending frame
period and the commit id that arms it, the last edge on each of TS_IN0 to TS_IN3 on the 160 ps grid of the local clock
(R215), the outputs TS_OUT0 to TS_OUT3, and the frames placed whose pulses may still be due, newest first (R216). -/
structure TimState where
  wall : Nat
  phase : Nat
  ticks : Nat
  slew : Int
  slewLeft : Nat
  first : Bool
  held : Int
  lastMeasure : Nat
  offsets : List Nat
  lastEpoch : Option (BitVec 32)
  holdSince : Nat
  queues : Vector (List LaunchEntry) 8
  nextEntry : Nat
  pendFper : Word
  pendFperFr : Word
  armedFper : Option (BitVec 32)
  edges : Vector (Option Nat) 4
  pulses : Vector Pulse 4
  placed : List GridFrame
deriving DecidableEq, Repr

/-! ### The non-volatile journal (chapter 21) -/

/-- The non-volatile journal: its bytes by physical page, the write count of each page, the spare page that stands
behind a page, and the pages that failed (R86, R497, R500). It survives every reset (R2). -/
structure NvjState where
  data : List Host.Cell
  counts : List (Nat × Nat)
  spares : List (Nat × Nat)
  failed : List Nat
deriving DecidableEq, Repr

/-! ### Surfaces (chapter 10) -/

/-- A slot of a handle (Table 10.6): its state code, its generation, the period between clearings of the records in
which it was opened (R260), and whether a composition that uses it has started (R264). -/
structure Slot where
  st : Nat
  gen : Nat
  era : Nat
  composed : Bool
deriving DecidableEq, Repr

/-- A surface handle (Table 10.3, R256, R260): its descriptor, its slots, and its records of the newest generation
opened, the newest used (on a sender, the newest completed) and the newest used by a composition that has finished, both
with the period between clearings in which they were opened, the retracted generation and the generations refused for
lack of a slot (R262). -/
structure Handle where
  fmt : Nat
  reclaim : Bool
  bw : Nat
  bh : Nat
  wx : Nat
  wy : Nat
  ww : Nat
  wh : Nat
  base : Nat
  slots : List Slot
  opened : Option Nat
  used : Option (Nat × Nat)
  done : Option (Nat × Nat)
  retracted : Option Nat
  noslot : List Nat
  era : Nat
deriving DecidableEq, Repr

/-! ### The sender pair (chapter 15) -/

/-- A mirrored tag (R389): chain, tag, tag generation, position, request type, host tag, address, words and whether a
transfer issued it. -/
structure MirTag where
  chain : Nat
  tag : Nat
  tgen : Nat
  position : Nat
  req : Nat
  hostTag : Nat
  addr : Nat
  words : Nat
  xfer : Bool
deriving DecidableEq, Repr

/-- A check code over the blocks of a generation's runs on a ring (R394), kept until it is compared: the ring, handle
and generation, the CRC so far, whether the generation end has come, and whether it is the silent queue's. -/
structure RunCrc where
  ring : Nat
  handle : Nat
  gen : Nat
  crc : BitVec 32
  ended : Bool
  silent : Bool
deriving DecidableEq, Repr

/-- A token without its counterpart (R394): the ring, the cell and whether it is the silent queue's. -/
structure LoneToken where
  ring : Nat
  cell : TokenCell
  silent : Bool
deriving DecidableEq, Repr

/-- What the pair function holds beside the MIR words: the heartbeat SEQ, the ticks at which a heartbeat and a lead's
heartbeat were last accepted, the partner's pair epoch and SEQ, the mirrored tags, the checkpoint being received with
the bytes written, the checkpoint being sent, tokens and runs awaiting comparison, the last comparison of each ring,
the partner's READY, and the handover in force: its time, and the instant at which the lead first sent it to a ready
shadow or a ready shadow first received it, if that was so yet, both in 1/65,536 ns; and whether this sender has become
lead by a handover and awaits the end of the old lead's host records (R401). -/
structure MirState where
  hbSeq : Nat
  lastHb : Option Nat
  lastLead : Option Nat
  partnerEpoch : BitVec 32
  tags : List MirTag
  ckRx : Option (Nat × Nat)
  ckTx : Option (Nat × Nat)
  tokens : List LoneToken
  runs : List RunCrc
  lastMatch : List (Nat × Bool)
  partnerReady : Bool
  handover : Option (Nat × Option Nat)
  hostLate : Bool
deriving DecidableEq, Repr

/-! ### The host (chapter 2) -/

/-- Where a host's messages come from, and where answers to them go: the source port of the part, the MAC, IPv4 and UDP
addresses of the host, and the IPv4 and MAC addresses of the part that the host used (R39, R44). -/
structure Peer where
  port : Nat
  mac : BitVec 48
  ip : BitVec 32
  udp : BitVec 16
  ownIp : BitVec 32
  ownMac : BitVec 48
deriving DecidableEq, Repr

/-- A transaction waiting to start (R556): its host, its request bytes, whether it met a full queue (R555), for a
message of the host channel the peer and the SEQ of the message, whether its host held the lease when it was received
(R32), and the tick of its receipt (R35). -/
structure HostTxn where
  who : Who
  bytes : List Byte
  busy : Bool
  peer : Option Peer
  seq : Nat
  held : Bool
  tick : Nat
deriving DecidableEq, Repr

/-- A request message whose transactions have not all completed: its SEQ, its peer, the transactions still to complete,
the responses so far (R40, R41), and the number of its last HOSTREC with the mirror frame that carried it, once sent
(R386). -/
structure HostMsg where
  seq : Nat
  peer : Peer
  left : Nat
  responses : List (List Byte)
  record : Option (Nat × Option Nat)
deriving DecidableEq, Repr

/-- Responses that wait until the partner has the record of their transactions (R386): the number of the record, the SEQ
of the mirror frame that carries it, once sent, the host, its peer and the SEQ of its message, and the response messages
of that message, or for a transaction without a message the response itself. -/
structure HeldResponse where
  id : Nat
  frame : Option Nat
  who : Who
  peer : Option Peer
  seq : Nat
  bytes : List (List Byte)
deriving DecidableEq, Repr

/-- What the host interface holds beside the HST words: waiting transactions of both carriers, the unread QSPI
responses, the relayed transaction in progress of each carrier, messages in progress, the last 16 responses by host and
SEQ as the messages that carry them, the expected SEQ, the part's own SEQ, the host's last ACK, the outstanding nonce
with its host, the ticks of recent failed responses, the tick at which the lease expires, the holder's peer, responses
held for the partner and their numbers. -/
structure HstState where
  waiting : List HostTxn
  responses : List (List Byte)
  inFlight : List HostTxn
  messages : List HostMsg
  stored : List (Who × Nat × List (List Byte))
  expected : Option Nat
  ownSeq : Nat
  hostAck : Nat
  nonce : Option (Who × List Byte)
  failures : List Nat
  expiry : Nat
  holderPeer : Option Peer
  held : List HeldResponse
  nextHeld : Nat
deriving DecidableEq, Repr

/-! ### Source ingest (chapter 9) -/

/-- A pixel as it was staged: its place in the frame and its three samples scaled to 12 bits (R235). In 4:2:2 the chroma
of an odd pixel is not used. -/
structure StagedPixel where
  place : Nat
  c0 : Nat
  c1 : Nat
  c2 : Nat
deriving DecidableEq, Repr

/-- A frame of a stream that is not yet complete (R231 to R240): its media tick count, its generation and staging slot,
whether the codec holds the generation, the highest sequence number, the pixels staged, the block rows the codec has
written, whether the frame has closed, whether it closed with pixels missing, and the tick of the first accepted packet of
a later frame (R234). -/
structure OpenFrame where
  m : Nat
  gen : Nat
  slot : Nat
  held : Bool
  hiSeq : Nat
  pixels : List StagedPixel
  rows : List Nat
  closed : Bool
  inc : Bool
  later : Option Nat
deriving DecidableEq, Repr

/-- What a stream holds beside its words: its frames in the order of opening, the sequence numbers remembered (R228),
those received that no closing frame has accounted for, the last generation opened (R233), the frames refused, the next
sequence number to account for, the capture instant of the last completed frame, and whether a read has latched the
capture words (R239). -/
structure Stream where
  frames : List OpenFrame
  seqs : List Nat
  received : List Nat
  lastGen : Option Nat
  refused : List Nat
  lostFrom : Option Nat
  cap : Nat
  latched : Bool
deriving DecidableEq, Repr

/-- A time transmitter heard from (R246): the port, its port identity, the data set of its Announce messages in the
order of comparison, the grandmaster, the clock class, its UTC offset with validity, and the ticks of its last two
messages. -/
structure Transmitter where
  port : Nat
  ident : BitVec 80
  rank : List Nat
  gm : BitVec 64
  cls : Nat
  utc : Nat
  utcValid : Bool
  heard : List Nat
  interval : Int
deriving DecidableEq, Repr

/-- What the PTP receiver holds (R245 to R247): the transmitters heard, the one selected, the Sync that waits for its
Follow_Up with its receive time and correction, the last pair (t1′, t2′), the Delay_Req sent with its SEQ and send
time, the last 16 delay values and the Delay_Req interval. Times are in 1/65,536 ns. -/
structure PtpState where
  heard : List Transmitter
  selected : Option (Nat × BitVec 80)
  sync : Option (Nat × Nat × Int)
  pair : Option (Int × Nat)
  request : Option (Nat × Nat)
  nextSeq : Nat
  delays : List Int
  interval : Option Int
deriving DecidableEq, Repr

/-- What the source ingest holds beside its words: the 16 streams, the ports whose last IGMP query was version 2
(R224), and the PTP receiver. -/
structure IngState where
  streams : Vector Stream 16
  igmpV2 : List Nat
  ptp : PtpState
deriving DecidableEq, Repr

/-! ### Assurance (chapter 21) -/

/-- Who writes a page of the journal, and with what (R498): a core's NVWR with its destination register; the floors;
the seal of a Dusk; a repair map record; a thermal trip record; a power-loss anchor; a life-cycle record; a trim copy
with its count and time; the calibration record that follows it; a write that Midnight has cut to the page in hand. -/
inductive NvjOwner where
  | core (n : Fin 5) (gd : BitVec 5)
  | floors
  | seal
  | map
  | trip
  | anchor
  | lifeCycle
  | trims (count : Nat) (sec : Nat)
  | calibration
  | cut
deriving DecidableEq, Repr

/-- Writes of the journal in hand (R498): the owner, the pages still to write in order, the first one being programmed,
and whether it is already repeated on a spare. -/
structure NvjJob where
  owner : NvjOwner
  pages : List (Nat × List Byte)
  repeated : Bool
deriving DecidableEq, Repr

/-- The substitutions that a repair map record carries (Table 21.10). -/
structure RepairMap where
  lanes : Nat
  hppr : Nat
  core : Nat
  cmpLane : Nat
  corLane : Nat
  sens8 : Nat
  sens9 : Nat
  cells : List Nat
  rows : List Nat
  dram : List Nat
deriving DecidableEq, Repr

/-- The map in which nothing is replaced. -/
def RepairMap.none : RepairMap := ⟨0, 0, 7, 15, 15, 15, 15, [], [], []⟩

/-- Test slices in hand (R508 to R513): what they are run for, 0 a request, 1 the power-on tests, 2 Dusk; the next unit;
the units left; the microseconds of Dusk's budget used; and the units of the slice that runs. -/
structure SliceRun where
  cause : Nat
  next : Nat
  left : Nat
  used : Nat
  slice : Option Nat
deriving DecidableEq, Repr

/-- An anchor of the proof chain that could not be queued yet (R520). -/
structure AnchorMsg where
  seq : Nat
  body : List Byte
deriving DecidableEq, Repr

/-- What the proof of display holds (R518 to R521): whether a chain runs and has formed its first step, the head, the
next step number and anchor number, the show instant of the last anchor, an anchor not yet queued, and the
generations and signature of the last composed frame. -/
structure ProofState where
  running : Bool
  started : Bool
  head : List Byte
  step : Nat
  anchors : Nat
  lastAnchor : Option Nat
  waiting : Option AnchorMsg
  gens : List (Nat × Nat)
  sig : Option (BitVec 64)
deriving DecidableEq, Repr

/-- What the assurance unit holds beside its words: journal writes in hand, the substitutions recorded, the SPARE
requests armed as class and index, the SRAM rows replaced, the slice in hand, the proof of display, and bytes 16 to 251
of the trims as applied to the taps (Table 21.5). -/
structure AsrState where
  jobs : List NvjJob
  map : RepairMap
  armed : List (Nat × Nat)
  rows : List Nat
  slice : Option SliceRun
  proof : ProofState
  taps : List Byte
deriving DecidableEq, Repr

/-- What is fused (R33, R492, R515): the life-cycle state, the host and manifest key hashes and the rows repaired. It
survives every reset. -/
structure FuseState where
  lifeCycle : Nat
  hostKey : List Byte
  manifestKey : List Byte
deriving DecidableEq, Repr

/-- The always-on domain (R447 to R449, R468, R515, R536): its supply; how far the start sequence has come (0 the supply
is absent, 1 start delay, 2 start check, 3 wait after a failed check, 4 the root PLL locks, 5 the core rail starts, 6 the
part runs); RESET_N held low; the straps sampled; the outcome of the start check; the trip record held with the trips
since, and the repair map held, until power goes. -/
structure AonState where
  supply : Bool
  phase : Nat
  resetLow : Bool
  role : Bool
  bootsel : Nat
  oscdly : Nat
  freq : Nat
  ringCount : Nat
  tries : Nat
  trip : Option (List Byte)
  tripCount : Nat
  mapHeld : Option RepairMap
deriving DecidableEq, Repr

/-! ### DRAM (chapter 16) -/

/-- What a DRAM channel holds beside its words: the MEM.PPR word of a repair in progress, the entry and the row of a
remap copy in progress, a parity alert that lasts, the replays in a row that met an alert, the refreshes of each rank
postponed, the tick at which its last tREFI ended, and that of the last ZQCS (R407, R411, R412, R417, R419). -/
structure DramChan where
  ppr : Option Word
  remap : Option (Nat × Word)
  alert : Bool
  replays : Nat
  postponed : List Nat
  refreshed : List Nat
  zqAt : Nat
deriving DecidableEq, Repr

/-- A channel after reset. -/
def DramChan.reset : DramChan := ⟨none, none, false, 0, [0, 0], [0, 0], 0⟩

/-! ### Boot, Dawn and Dusk (chapter 20) -/

/-- An SD transfer in progress (R495): its direction, first sector, sectors and local address. -/
structure SdTransfer where
  write : Bool
  lba : Nat
  count : Nat
  addr : Nat
deriving DecidableEq, Repr

/-- The SD card interface: the card present, and the transfer in progress. -/
structure SdState where
  card : Option SdCard
  transfer : Option SdTransfer
deriving DecidableEq, Repr

/-- How a write of BOT.RESET arrived, whose response the reset waits for (R560): by QSPI or the host channel, by a wall
transaction at a tile, or by a core. -/
inductive ResetPath where
  | host (carrier : Carrier)
  | wall
  | core
deriving DecidableEq, Repr

/-- What the boot and Dawn machine holds beside the BOT words: the tick of step 5 of Table 20.7; DAWNDONE or the limit
that waits for the power-on tests; Dawn has completed (R485, R530); a Dusk in progress with its first tick, the next
slice of the rotation and whether every slice passed; the reset requested, the tick of its write, and the QSPI responses
that GET has to end before it, its own the last, none where its own was dropped or cut short; a life-cycle transition in
progress with its target and the hashes to be fused; the result of a manifest check in progress; and the versions by class of the manifest
that was booted. -/
structure BotState where
  step5 : Option Nat
  dawnDue : Bool
  dawned : Bool
  dusk : Option (Nat × Nat × Bool)
  reset : Option ResetPath
  resetAt : Nat
  resetAfter : Option Nat
  lcs : Option (Nat × List Byte × List Byte)
  mchk : Option Nat
  booted : List (Nat × Nat)
deriving DecidableEq, Repr

/-! ### The test access port (chapter 23) -/

/-- Instructions of the test access port (R552). -/
inductive TapInstr where
  | bypass
  | idcode
  | sample
  | extest
  | clamp
  | highz
deriving DecidableEq, Repr

/-- What the balls follow: their functions, the boundary register, or high impedance (R552). -/
inductive PinDrive where
  | functions
  | boundary (cells : List Bool)
  | floating
deriving DecidableEq, Repr

/-- The test access port: the instruction in force, the cells held by the boundary register, and what the balls follow. -/
structure TapState where
  instr : TapInstr
  cells : List Bool
  drive : PinDrive
deriving DecidableEq, Repr

/-! ### Composition (chapter 11) -/

/-- The settings of a SCALE (Table 11.1): filter tables, steps and phases. -/
structure Scale where
  fh : Nat
  fv : Nat
  sx : Nat
  sy : Nat
  phx : Int
  phy : Int
deriving DecidableEq, Repr

/-- A layer part of a frame program (R281); an instruction it does not hold is none (R282). Places are DX, DY, DW and
DH; crops CX, CY, CW and CH; blends MODE, ALPHA and USEA; the pre-blend LUT EN and SET. -/
structure LayerPart where
  num : Nat
  place : Option (Int × Int × Nat × Nat)
  crop : Option (Nat × Nat × Nat × Nat)
  scale : Option Scale
  blend : Option (Nat × Nat × Bool)
  prelut : Option (Bool × Nat)
  policy : Option Nat
  fill : Option (Nat × Nat × Nat)
deriving DecidableEq, Repr

/-- The tile form of PLACE (R285). -/
structure TilePlace where
  rot : Nat
  mirror : Bool
  w : Nat
  h : Nat
  x : Nat
  y : Nat
deriving DecidableEq, Repr

/-- A frame program as far as it has been read: the word offset reached, its global part, its layer parts in program
order, whether ENDF was reached, and the first fault as ERRCODE and ERRWORD (R280 to R283). -/
structure FrameProg where
  pos : Nat
  tile : Option TilePlace
  bg : Option (Nat × Nat × Nat)
  post : Option (Bool × Nat × Bool × Nat)
  stand : Option (Nat × Nat × Nat)
  layers : List LayerPart
  ended : Bool
  fault : Option (Nat × Nat)
deriving DecidableEq, Repr

/-- A program of which nothing has been read. -/
def FrameProg.empty : FrameProg := ⟨0, none, none, none, none, [], false, none⟩

/-- A frame whose composition has started: its show instant in 1/65,536 ns, the tick of its compose start, its size and
the lines per scan in force for it, its composed pixels as R, G and B, its layers with the generation each used, the same
generations with their handles and slots, the masks of stale layers and of layers with failed blocks, whether its half is
complete, and the slack in microseconds once it is. -/
structure FrameRun where
  instant : Nat
  started : Nat
  w : Nat
  h : Nat
  lines : Nat
  pixels : List (Nat × Nat × Nat)
  gens : List (Nat × Nat)
  uses : List (Nat × Nat × Nat)
  stale : Nat
  failed : Nat
  complete : Bool
  slack : Nat
deriving DecidableEq, Repr

/-- What the compositor holds beside the CMP words: the program read, the size W and H of the tile in the program in
use, the frames being composed or waiting for their show instants, the earliest first, the consecutive show instants
without a token, the handle that each layer last used, the latest show instant whose commit window has closed, and the
commit ids taken into use for coming show instants. -/
structure CmpState where
  prog : FrameProg
  dims : Option (Nat × Nat)
  frames : List FrameRun
  silent : Nat
  handles : List (Nat × Nat)
  closed : Option Nat
  took : List (Nat × BitVec 32)
  held : Option Nat
deriving DecidableEq, Repr

/-! ### Lamp correction (chapter 12) -/

/-- What the correction engine holds beside the COR words: the pending context base, the armed commit id, the values
latched for the frame (R312) with the zones across and down, the composed frames since the last sample, that sample's
show instant and the dark ticks then, the sums of the witness codes of each half and of the window by sensor and colour,
and whether the lamps were dark in the window. -/
structure CorState where
  pendCtx : Word
  armed : Option (BitVec 32)
  gains : List Nat
  loops : List Nat
  zones : List Int
  grid : Nat × Nat
  ctxBase : Word
  sinceSample : Nat
  lastSample : Option (Nat × Nat)
  halfSums : List (List Nat)
  window : List Nat
  windowDark : Bool
deriving DecidableEq, Repr

/-! ### Greyscale and scan (chapters 13 and 14) -/

/-- A scan program's preamble and SYNC as read (R339): planes with LOW, gains by colour, N, LINES and T0. -/
structure ScanHead where
  planes : List (Nat × Bool)
  gains : List (Nat × Nat)
  n : Nat
  lines : Nat
  t0 : Nat
deriving DecidableEq, Repr

/-- A LOOP being executed: where its words begin and end, its count n and the counter i. -/
structure ScanLoop where
  first : Nat
  last : Nat
  n : Nat
  i : Nat
deriving DecidableEq, Repr

/-- A port group's scan sequencer and timing generator: a slot has come into force since reset; the program head in
force, the offset of its body in the slot and the body duration in 160 ps steps, the word offset reached in the body,
the loop, the current line while a visit runs and whether its data is ready, the refresh values of its ports' lamps, the
steps since the refresh boundary, the ON time of a slot whose interval has not ended, the last ON pulse of the refresh
as its first and last edge of the local clock's grid, the READBK FLAGS so far in the visit, the rotation pointer, a stop
or a dark hold that takes effect at the end of the line visit, and a test slice's hold. -/
structure Group where
  inForce : Bool
  head : ScanHead
  base : Nat
  duration : Nat
  pos : Nat
  loop : Option ScanLoop
  line : Option Nat
  ready : Bool
  values : List (List Nat)
  elapsed : Nat
  lit : Option Nat
  pulse : Option (Nat × Nat)
  reads : Nat
  pointer : Nat
  stopping : Bool
  held : Bool
  sliceHold : Bool
  startHeld : Option Bool
deriving DecidableEq, Repr

/-- A group after reset. -/
def Group.reset : Group where
  inForce := false
  head := ⟨[], [], 0, 0, 0⟩
  base := 0
  duration := 0
  pos := 0
  loop := none
  line := none
  ready := false
  values := []
  elapsed := 0
  lit := none
  pulse := none
  reads := 0
  pointer := 0
  stopping := false
  held := false
  sliceHold := false
  startHeld := none

/-- A fade running (R356): the gain it started from, its target, its frames, the compose starts so far and its shape. -/
structure Fade where
  g0 : Nat
  target : Nat
  frames : Nat
  k : Nat
  quadratic : Bool
deriving DecidableEq, Repr

/-- A halt that takes effect at a show instant (R347): the instant, the group, ERRCODE, ERRWORD and ERRSLOT. -/
structure ScanHalt where
  instant : Nat
  group : Nat
  code : Nat
  word : Nat
  slot : Nat
deriving DecidableEq, Repr

/-- A frame period of the grid (R518): its show instant, whether halves switched at it, whether the lamps were dark at
some time in it, whether it was a miss, whether the half shown was composed with a stale layer, and CMP.CID in it where
the next period's compose start came before its end. -/
structure Period where
  instant : Nat
  isNew : Bool
  dark : Bool
  miss : Bool
  stale : Bool
  cid : Option Word
deriving DecidableEq, Repr

/-- What the scan engine holds beside the SCN words: the 16 groups; the holds of Table 13.4 that are tile-wide (no half
shown since reset, invalid time, a step of time, a non-seamless switch, CTL.DARK, a trip, a trip release waiting for a
boundary, Midnight); the ticks for which the lamps were dark; whether the current refresh is a diagnostic one; the next
refresh boundary of the frame, and the edge of the local clock's grid at which the last one stood (R211); the switches,
as show instant and group, and the halts that take effect at coming show instants; the fade running and the fade armed
as target, frames and shape; the frame period in progress; the signature of each half and whether it was composed with a
stale layer; and the ports and groups whose lamps have flagged headroom since the last boundary, by group with the
colours flagged. -/
structure ScnState where
  groups : Vector Group 16
  noHalf : Bool
  timeHold : Bool
  stepHold : Bool
  switchHold : Bool
  darkHold : Bool
  tripHold : Bool
  releasing : Bool
  midnight : Bool
  darkTicks : Nat
  diag : Bool
  boundary : Nat
  edge : Nat
  switches : List (Nat × Nat)
  halts : List ScanHalt
  fade : Option Fade
  armedFade : Option (Nat × Nat × Bool)
  period : Option Period
  sigs : List (BitVec 64)
  staleHalf : List Bool
  headroom : List (Nat × Nat)
deriving DecidableEq, Repr

/-! ### Power (chapter 17) -/

/-- The control loop of a rail (R426): its set-point and duty cycle, and the last error. -/
structure Loop where
  set : Int
  duty : Int
  last : Int
deriving DecidableEq, Repr

/-- What the power manager holds beside the PWR words: the loops of VDD_CORE and the four LED rails, the measurements
in a row above SLACKHI, the armed preset's commit id, the LEDMAP words in force, the forecasts of the two halves, the
refreshes in a row without a headroom flag of each LED rail, and the VIN_SENSE samples below FAIL in a row. -/
structure PwrState where
  loops : List Loop
  above : Nat
  armed : Option (BitVec 32)
  ledMap : List Word
  forecast : List (List Nat)
  unflagged : List Nat
  vinLow : Nat
deriving DecidableEq, Repr

/-! ### Housekeeping (chapter 19) -/

/-- What the housekeeping unit holds beside the HKP words: the derating gain in units of 2^−23; the last values of each
thermistor and of each logical sensor, newest first (R464); the rounds since a fast rise; whether a thermistor rose too
fast in the last round; whether the last round allows TRIPCLR (R467); which of TJ and TLB had reached its trip value; and
the HKP.I2CCMD word of a command and an ID read in progress. -/
structure HkpState where
  derate : Nat
  thermHist : List (List (Option Int))
  dieHist : List (List (Option Int))
  calmRounds : Nat
  thermRise : Bool
  cool : Bool
  tripping : Bool × Bool
  i2c : Option Word
  idReading : Bool
deriving DecidableEq, Repr

/-! ### Outputs -/

/-- What the part has sent to the outside: link frames with the parity of their first block (R154), capability blocks
and swap blocks on its lanes, Ethernet frames on its source ports, bytes clocked out on QSPI, responses of transactions
whose carriage is not modelled, streams to the column drivers of a lamp port (R361), row frames, the first bit in bit 9
(R369), ON pulses of a group with their start after the refresh boundary in 20 ps and their length in 160 ps steps,
edges of OE_N that cut an ON pulse short, in 160 ps after the refresh boundary (R354), I²C writes, the nine pulses and
the STOP that free the I²C bus (R469), the drive of a power stage as period, start in the rail's period and high time in
160 ps steps, or none for the level mid (R426), refreshes and ZQCS of a rank (R407), rows that a neighbour refresh activates by
channel, rank, bank group, bank and row (R413), and bits shifted out of the test access port (R552). -/
inductive Sent where
  | frame (p : Nat) (odd : Bool) (f : LinkFrame)
  | capability (lane : Nat) (payload : BitVec 56)
  | swap (lane : Nat)
  | ethernet (port : Nat) (bytes : List Byte)
  | qspi (bytes : List Byte)
  | response (who : Who) (bytes : List Byte)
  | stream (port : Nat) (command : BitVec 16) (data : List Bool)
  | rowFrame (group : Nat) (bits : BitVec 10)
  | light (group : Nat) (start : Int) (steps : Nat)
  | cut (group : Nat) (edge : Int)
  | i2c (addr : Nat) (bytes : List Byte)
  | i2cRecover
  | pwm (phase : Nat) (drive : Option (Nat × Nat × Nat))
  | refresh (ch rank : Nat)
  | zqcs (ch rank : Nat)
  | activate (ch rank bg bank row : Nat)
  | tdo (shifted : List Bool)
deriving DecidableEq, Repr

end Sys2Proof.Machine
end

