-- ==== Sys2Proof/Machine/State.lean ====
section
/-! DEFINITION. The state of the part: every device state word, the memories, the Hour cores, what each unit holds
beside its words, the outputs sent so far and the queue of waiting commands; the state after reset; the reasons a
step can stop. -/

namespace Sys2Proof.Machine

/-- Why the machine stops with a fault. -/
inductive Fault where
  /-- Raised by a command whose operands no sender can form (WellFormed). Safe: the machine stops. -/
  | malformed (mnemonic : String)
deriving DecidableEq, Repr

/-- Why a command has no outcome. -/
inductive Refusal where
  /-- Raised by the arm of a command that has no meaning yet. Safe: the machine stops. -/
  | notModelled (mnemonic : String)
deriving DecidableEq, Repr

/-- The state of the part. `regs` holds the device state words that differ from their reset values, `mem` the bytes
of the addressed memories that differ from 0. `poison` lists the 8-byte words of memory whose error cannot be corrected,
true for poisoned ones, and `soft` those with an error that can. `ddrDiv` is the divider of the DDR domain (Table 18.2). `codec` is
the codec command in hand with the tick at which it ends (R258). -/
structure State where
  regs : List (Reg × Word)
  mem : List Host.Cell
  poison : List (Nat × Bool)
  soft : List Nat
  cores : Vector Core 5
  lan : LanState
  lnk : LnkState
  tim : TimState
  nvj : NvjState
  srf : List (Nat × Handle)
  codec : Option (Word × Nat)
  mir : MirState
  hst : HstState
  ing : IngState
  asr : AsrState
  fuse : FuseState
  aon : AonState
  dram : Vector DramChan 2
  ddrDiv : Nat
  sd : SdState
  bot : BotState
  tap : TapState
  cmp : CmpState
  cor : CorState
  scn : ScnState
  pwr : PwrState
  hkp : HkpState
  sent : List Sent
  freeCtr : Nat
  pending : List Instr
deriving DecidableEq, Repr

/-- The trims' bytes 16 to 251 with nominal values (R505): taps 32, ADC gain 32,768, all else 0. -/
def nominalTaps : List Byte :=
  List.replicate 41 32 ++ List.replicate 59 0 ++ [0, 0x80] ++ List.replicate 134 0

/-- A stream after reset. -/
def Stream.reset : Stream := ⟨[], [], [], none, [], none, 0, false⟩

/-- The state right after a full reset (R2, R531, Table 22.23) of a part in sender role (BOT.STAT.ROLE reads 0), with
nothing stored in its journal, nothing fused and no card in its socket: every word at its reset value, HC0 running from
the boot ROM, every memory empty and no command waiting. What the spec leaves open here is named in log entry 10. -/
def State.reset : State where
  regs := []
  mem := []
  poison := []
  soft := []
  cores := Vector.replicate 5 Core.reset
  lan := ⟨[], [], [], [], []⟩
  lnk := ⟨Vector.replicate 9 Port.reset, [], [], [], [], 0, [], [], none⟩
  tim := {
    wall := 0, phase := 0, ticks := 0, slew := 0, slewLeft := 0, first := true, held := 0, lastMeasure := 0,
    offsets := [], lastEpoch := none, holdSince := 0, queues := Vector.replicate 8 [], nextEntry := 0, pendFper := 0x01312D00,
    pendFperFr := 0, armedFper := none, edges := Vector.replicate 4 none, pulses := Vector.replicate 4 ⟨none, 0⟩
    placed := [] }
  nvj := ⟨[], [], [], []⟩
  srf := []
  codec := none
  mir := ⟨0, none, none, 0, [], none, none, [], [], [], false, none, false⟩
  hst := {
    waiting := [], responses := [], inFlight := [], messages := [], stored := [], expected := none, ownSeq := 1,
    hostAck := 0, nonce := none, failures := [], expiry := 0, holderPeer := none, held := [], nextHeld := 0 }
  ing := ⟨Vector.replicate 16 Stream.reset, [], ⟨[], none, none, none, none, 0, [], none⟩⟩
  asr := {
    jobs := [], map := RepairMap.none, armed := [], rows := [], slice := none,
    proof := ⟨false, false, List.replicate 32 0, 0, 0, none, none, [], none⟩, taps := nominalTaps }
  fuse := ⟨0, [], []⟩
  aon := ⟨true, 6, false, false, 0, 0, 0, 0, 0, none, 0, none⟩
  dram := Vector.replicate 2 DramChan.reset
  ddrDiv := 4
  sd := ⟨none, none⟩
  bot := ⟨none, false, false, none, none, 0, none, none, none, []⟩
  tap := ⟨.idcode, [], .functions⟩
  cmp := ⟨FrameProg.empty, none, [], 0, [], none, [], none⟩
  cor := ⟨0, none, [32768, 32768, 32768], [32768, 32768, 32768], [], (1, 1), 0, 0, none, [[], []], [], false⟩
  scn := {
    groups := Vector.replicate 16 Group.reset, noHalf := true, timeHold := true, stepHold := false, switchHold := false,
    darkHold := false, tripHold := false, releasing := false, midnight := false, darkTicks := 0, diag := false,
    boundary := 0, edge := 0, switches := [], halts := [], fade := none, armedFade := none, period := none, sigs := [0, 0],
    staleHalf := [false, false],
    headroom := [] }
  pwr := ⟨⟨850, 0, 0⟩ :: List.replicate 4 ⟨0, 0, 0⟩, 0, none, [0, 0, 0, 0], [[], []], [0, 0, 0, 0], 0⟩
  hkp := ⟨8388608, [], [], 0, false, false, (false, false), none, false⟩
  sent := []
  freeCtr := 0
  pending := []

end Sys2Proof.Machine
end

