-- ==== Sys2Proof/Machine/Ops.lean ====
section
/-! DEFINITION. The named operations over the state: device state words and their fields, counters and event flags,
the event fabric (R109 to R113), the addressed memories (R14 to R16), free values, wall time, and the running, ending
and trapping of a core instruction (R71 to R73). -/

namespace Sys2Proof.Machine

/-! ### Device state words -/

/-- A register file with one word put in, ordered by address; a word at its reset value is not listed. -/
def regsInsert (r : Reg) (v : Word) : List (Reg × Word) → List (Reg × Word)
  | [] => [(r, v)]
  | e :: l => if r.addr < e.1.addr then (r, v) :: e :: l else e :: regsInsert r v l

/-- The reset value of a word (R524). -/
def Reg.resetValue (r : Reg) : Word := BitVec.ofNat 32 r.info.reset

/-- A register file after a word is set. -/
def regsPut (r : Reg) (v : Word) (l : List (Reg × Word)) : List (Reg × Word) :=
  let l' := l.filter fun e => e.1 != r
  if v = r.resetValue then l' else regsInsert r v l'

/-- The value a register file holds for a word. -/
def regsGet (r : Reg) : List (Reg × Word) → Word
  | [] => r.resetValue
  | e :: l => if e.1 = r then e.2 else regsGet r l

/-- The value of a word. -/
def State.rd (s : State) (r : Reg) : Word := regsGet r s.regs

/-- The state with a word set. -/
def State.wr (s : State) (r : Reg) (v : Word) : State := { s with regs := regsPut r v s.regs }

/-- The value of a field. -/
def State.get (s : State) (f : Fld) : Nat := getBits (s.rd f.reg) f.lo f.n

/-- The state with a field set; a value too wide for the field loses its upper bits. -/
def State.set (s : State) (f : Fld) (v : Nat) : State := s.wr f.reg (setBits (s.rd f.reg) f.lo f.n v)

/-- A one-bit field is 1. -/
def State.on (s : State) (f : Fld) : Bool := s.get f != 0

/-- A saturating counter field counts `k` occurrences (R526). -/
def State.count (s : State) (f : Fld) (k : Nat) : State := s.set f (satN f.n (s.get f + k))

/-- A wrapping counter field counts one occurrence. -/
def State.wrapUp (s : State) (f : Fld) : State := s.set f (s.get f + 1)

/-- The part is in tile role (R1). -/
def State.isTile (s : State) : Bool := s.on F.BOT_STAT_ROLE

/-- Midnight is in progress or has ended (R441): no cell, launch, transfer or host transaction begins any more (Table
20.10). -/
def State.midnight (s : State) : Bool := s.on F.PWR_STAT_MIDNIGHT

/-! ### The event fabric -/

/-- The word whose flags hold the condition of an event, with their mask: the condition sources of the owning
chapters (R153, R217, R277, R304, R331, R357, R379, R402, R424, R445, R459, R473, R496, R522, Tables 7.13 and 9.4). -/
def eventSource (k : Nat) : List (Reg × Nat) :=
  if k < 128 then [(.LMP_PSTAT k, 0xF00)]
  else if k = 128 then [(.SCN_GSTAT 0, 0xF00000), (.SCN_EV, 0xF)]
  else if k < 144 then [(.SCN_GSTAT (k - 128), 0xF00000)]
  else if k < 180 then [(.LAN_STAT (k - 144), 0x700)]
  else if k < 196 then [(.LNK_PSTAT ((k - 180) / 2), if k % 2 = 0 then 0xB0000 else 0x40000)]
  else if k < 204 then [(.MIR_EV, 2 ^ (k - 196))]
  else if k = 204 then [(.LNK_PSTAT 8, 0xB0000)]
  else if k = 205 then [(.LNK_PSTAT 8, 0x40000)]
  else if k < 212 then []
  else if k < 223 then [(.TIM_EV, 2 ^ (k - 212))]
  else if k < 231 then [(.TIM_LQSTAT (k - 223), 0xF00)]
  else if k < 240 then []
  else if k < 272 then [(.ING_SSTAT ((k - 240) / 2), if k % 2 = 0 then 0x100 else 0xE00)]
  else if k < 278 then [(.SRF_EV, 2 ^ (k - 272))]
  else if k < 304 then []
  else if k = 304 then [(.CMP_LSTAT 0, 4), (.CMP_EV, 0x3F)]
  else if k < 336 then [(.CMP_LSTAT ((k - 304) / 2), if k % 2 = 0 then 4 else 8)]
  else if k < 342 then [(.COR_EV, 2 ^ (k - 336))]
  else if k < 352 then []
  else if k < 359 then [(.MEM_CHEV 0, 2 ^ (k - 352))]
  else if k = 359 then []
  else if k < 367 then [(.MEM_CHEV 1, 2 ^ (k - 360))]
  else if k = 367 then []
  else if k < 380 then [(.PWR_EV, 2 ^ (k - 368))]
  else if k < 400 then []
  else if k < 411 then [(.HKP_EV, 2 ^ (k - 400))]
  else if k < 424 then []
  else if k < 428 then [(.HKP_SDEV, 2 ^ (k - 424))]
  else if k < 432 then []
  else if k < 440 then [(.ASR_EV, 2 ^ (k - 432))]
  else if k < 456 then []
  else if k < 462 then [(.BOT_EV, 2 ^ (k - 456))]
  else if k < 496 then []
  else if k < 500 then [(.CLK_EV, 2 ^ (k - 496))]
  else []

/-- The events without a condition: host events 464 to 479 (Table 2.10) and software events 480 to 495 (R96). -/
def plainEvent (k : Nat) : Bool := decide (464 ≤ k ∧ k < 496)

/-- R332: lamp port `p` carries lamps: its number is below nx × ny. -/
def lampPortUsed (s : State) (p : Nat) : Bool :=
  decide (p < 2 ^ (s.get F.SCN_GEOM_PXL + s.get F.SCN_GEOM_PYL)) && decide (p < 128)

/-- R7, R113, R379: an event can become pending only if its chapter lists it and its source is powered in the role; the
event of a lamp port without lamps never is. -/
def State.eventLive (s : State) (k : Nat) : Bool :=
  plainEvent k || (((eventSource k).any fun e => e.1.powered s.isTile) && (decide (128 ≤ k) || lampPortUsed s k))

/-- Event `k` is pending (R109). -/
def State.isPending (s : State) (k : Nat) : Bool := bit (s.rd (.EVT_PEND (k / 32))).toNat (k % 32)

/-- Event `k` becomes pending (R109, R113). -/
def State.raise (s : State) (k : Nat) : State :=
  if s.eventLive k then s.set ⟨.EVT_PEND (k / 32), k % 32, 1⟩ 1 else s

/-- The condition of a condition source holds (R109). -/
def State.condition (s : State) (k : Nat) : Bool :=
  (eventSource k).any fun e => e.1.powered s.isTile && decide (((s.rd e.1).toNat &&& e.2) ≠ 0)

/-- The event a flag belongs to; 511, which is reserved, for a bit that is no flag. -/
def flagEvent (r : Reg) (b : Nat) : Nat :=
  match r with
  | .LMP_PSTAT p => p
  | .SCN_GSTAT g => 128 + g
  | .SCN_EV => 128
  | .LAN_STAT n => 144 + n
  | .LNK_PSTAT c => if c = 8 then (if b = 18 then 205 else 204) else (if b = 18 then 181 + 2 * c else 180 + 2 * c)
  | .MIR_EV => 196 + b
  | .TIM_EV => 212 + b
  | .TIM_LQSTAT p => 223 + p
  | .ING_SSTAT i => if b = 8 then 240 + 2 * i else 241 + 2 * i
  | .SRF_EV => 272 + b
  | .CMP_LSTAT l => if b = 2 then 304 + 2 * l else 305 + 2 * l
  | .CMP_EV => 304
  | .COR_EV => 336 + b
  | .MEM_CHEV ch => 352 + 8 * ch + b
  | .PWR_EV => 368 + b
  | .HKP_EV => 400 + b
  | .HKP_SDEV => 424 + b
  | .ASR_EV => 432 + b
  | .BOT_EV => 456 + b
  | .CLK_EV => 496 + b
  | _ => 511

/-- A flag bit is set and its event becomes pending. -/
def State.flag (s : State) (r : Reg) (b : Nat) : State := (s.set ⟨r, b, 1⟩ 1).raise (flagEvent r b)

/-- A flag given as a field. -/
def State.flagF (s : State) (f : Fld) : State := s.flag f.reg f.lo

/-- R109, R110: a write of `mask` to a pending word clears its events, and a condition source whose condition still
holds makes its event pending again at once. -/
def State.clearPending (s : State) (j : Nat) (mask : Word) : State :=
  let s := s.wr (.EVT_PEND j) (s.rd (.EVT_PEND j) &&& ~~~mask)
  (List.range 32).foldl
    (fun s i => if mask.getLsbD i && s.condition (32 * j + i) then s.raise (32 * j + i) else s) s

/-- The lowest pending event of word `j` that satisfies `p`. -/
def State.lowestIn (s : State) (p : Nat → Bool) (j : Nat) : Option Nat :=
  if s.rd (.EVT_PEND j) = 0 then none
  else (List.range 32).findSome? fun i => if s.isPending (32 * j + i) && p (32 * j + i) then some (32 * j + i) else none

/-- The lowest pending event that satisfies `p`. -/
def State.lowestPending (s : State) (p : Nat → Bool) : Option Nat := (List.range 16).findSome? (s.lowestIn p)

/-- The route of an event (R111). -/
def State.route (s : State) (k : Nat) : Nat := s.get (F.EVT_ROUTE_TARGET k)

/-- EVT.ALERTSRC (Table 4.8): the lowest pending event routed to ALERT_N, if any. -/
def State.alertSource (s : State) : Option Nat := s.lowestPending fun k => s.route k == 5

/-- R43: ALERT_N is driven low while any event routed to it is pending. -/
def State.alert (s : State) : Bool := s.alertSource.isSome

/-! ### Free values and outputs -/

/-- A free 32-bit value, and the state after it is drawn. -/
def State.draw (s : State) : Word × State := (Config.freeWord s.freeCtr, { s with freeCtr := s.freeCtr + 1 })

/-- `n` free bytes, and the state after they are drawn. -/
def State.drawBytes (s : State) (n : Nat) : List Byte × State :=
  ((List.range n).map fun i => (Config.freeWord (s.freeCtr + i)).setWidth 8, { s with freeCtr := s.freeCtr + n })

/-- The part sends something to the outside. -/
def State.emit (s : State) (x : Sent) : State := { s with sent := s.sent ++ [x] }

/-! ### Time -/

/-- A wall time in 1/65,536 ns, the unit of cells and tokens. -/
def State.now (s : State) : Nat := s.tim.wall / 65536

/-- The number of ticks of the 156.25 MHz clock in `n` microseconds, halves dropped. -/
def usTicks (n : Nat) : Nat := n * 625 / 4

/-- Seconds of an instant in 1/65,536 ns. -/
def wuSec (t : Nat) : Nat := t / (65536 * 1000000000)

/-- Nanoseconds within the second. -/
def wuNs (t : Nat) : Nat := t / 65536 % 1000000000

/-- The fraction in 1/65,536 ns. -/
def wuFrac (t : Nat) : Nat := t % 65536

/-- An instant in 1/65,536 ns. -/
def wuOf (sec ns frac : Nat) : Nat := (sec * 1000000000 + ns) * 65536 + frac

/-! ### Roles and access (R14 to R16) -/

/-- The bytes of usable DRAM (Table 16.6, MEM.SIZE). -/
def State.dramBytes (s : State) : Nat := s.get F.MEM_SIZE_MIB * 0x100000

/-- The number of core local memories that answer: four once HC4 is absent (R108). -/
def State.localCores (s : State) : Nat := if s.get (F.HRC_STAT_STATE 4) = 3 then 4 else 5

/-- Where the contiguous accessible area that holds an address ends (Table 1.6, R15); none for an address that is
refused. Device state words, the NVJ window and the boot ROM are not among these memories. -/
def State.memEnd (s : State) (a : Nat) : Option Nat :=
  if a < 0x400000000 then (if a < s.dramBytes then some s.dramBytes else none)
  else if a < 0xE000000000 then none
  else if a < 0xE000000000 + s.localCores * 0x40000 then some (0xE000000000 + s.localCores * 0x40000)
  else if a < 0xE100000000 then none
  else if a < 0xE100200000 then some 0xE100200000
  else if s.isTile then
    if a < 0xE200000000 then none
    else if a < 0xE200600000 then some 0xE200600000
    else if a < 0xE300000000 then none
    else if a < 0xE300100000 then some 0xE300100000
    else if a < 0xE400000000 then none
    else if a < 0xE400040000 then some 0xE400040000
    else if a < 0xE500000000 then none
    else if a < 0xE500020000 then some 0xE500020000
    else none
  else none

/-- The range lies in one of the memories of Table 1.6 that exist in this role. -/
def State.inMemory (s : State) (a n : Nat) : Bool :=
  match s.memEnd a with
  | some e => decide (a + n ≤ e)
  | none => false

/-- The range lies in the NVJ read window. -/
def inNvjWindow (a n : Nat) : Bool := decide (0xF800000000 ≤ a ∧ a + n ≤ 0xF800001000)

/-- The range lies in the boot ROM. -/
def inBootRom (a n : Nat) : Bool := decide (0xFFFFFF0000 ≤ a ∧ a + n ≤ 0x10000000000)

/-- The range touches the device state word blocks (R528). -/
def touchesWords (a n : Nat) : Bool := decide (a < 0xF001000000 ∧ 0xF000000000 < a + n)

/-- The range lies in DRAM. -/
def inDram (a : Nat) : Bool := decide (a < 0x400000000)

/-! ### Memory -/

/-- The byte a memory holds at an address; a byte that is not listed reads as 0 (DESIGN CHOICE, log entry 3). -/
def Memory.read : List Host.Cell → Nat → Byte
  | [], _ => 0
  | c :: m, a => if c.1 = a then c.2 else if a < c.1 then 0 else Memory.read m a

/-- A memory with the byte at an address set; the list stays in rising order and lists no zero. -/
def Memory.write : List Host.Cell → Nat → Byte → List Host.Cell
  | [], a, b => if b = 0 then [] else [(a, b)]
  | c :: m, a, b =>
    if a < c.1 then (if b = 0 then c :: m else (a, b) :: c :: m)
    else if c.1 = a then (if b = 0 then m else (a, b) :: m)
    else c :: Memory.write m a b

/-- The list is in its canonical form: addresses strictly rising, and no zero byte listed. -/
def Memory.wf : List Host.Cell → Bool
  | [] => true
  | [c] => decide (c.2 ≠ 0)
  | c :: d :: m => decide (c.2 ≠ 0) && decide (c.1 < d.1) && Memory.wf (d :: m)

/-- The bytes of a memory from an address on. -/
def Memory.readBytes (m : List Host.Cell) (a n : Nat) : List Byte := (List.range n).map fun i => Memory.read m (a + i)

/-- A memory with bytes written from an address on. -/
def Memory.writeBytes (m : List Host.Cell) (a : Nat) : List Byte → List Host.Cell
  | [] => m
  | b :: r => Memory.writeBytes (Memory.write m a b) (a + 1) r

/-- The byte at a memory address. -/
def State.byte (s : State) (a : Nat) : Byte := Memory.read s.mem a

/-- The bytes of the memories from an address on. -/
def State.bytes (s : State) (a n : Nat) : List Byte := Memory.readBytes s.mem a n

/-- The state with bytes stored, nothing checked. -/
def State.putBytes (s : State) (a : Nat) (l : List Byte) : State := { s with mem := Memory.writeBytes s.mem a l }

/-- The 8-byte words that a range touches (R98, R408). -/
def wordsOf (a n : Nat) : List Nat := if n = 0 then [] else (List.range ((a + n - 1) / 8 - a / 8 + 1)).map fun i => (a / 8 + i) * 8

/-- A DRAM address within its channel (R17). -/
def channelAddr (a : Nat) : Nat := a / 8192 * 4096 + a % 4096

/-- The channel of a DRAM address (R17). -/
def channelOf (a : Nat) : Nat := a / 4096 % 2

/-- R412: a channel has failed; its reads are uncorrectable and its writes have no effect. -/
def State.chFailed (s : State) (ch : Nat) : Bool := s.get (F.MEM_CHSTAT_STATE ch) == 3

/-- A DRAM range touches a failed channel (R412). -/
def State.touchesFailed (s : State) (a n : Nat) : Bool :=
  inDram a && [0, 1].any fun ch =>
    s.chFailed ch && (channelOf a == ch || channelOf (a + n - 1) == ch || decide (4096 < n))

/-- The word at an 8-byte aligned address cannot be corrected: an uncorrectable error or poison (R98, R409), or a failed
channel (R412). -/
def State.bad (s : State) (w : Nat) : Bool := (s.poison.any fun e => e.1 == w) || s.touchesFailed w 8

/-- A range holds uncorrectable or poisoned data. -/
def State.badRange (s : State) (a n : Nat) : Bool :=
  (s.poison.any fun e => decide (e.1 < a + n ∧ a < e.1 + 8)) || s.touchesFailed a n

/-- MEM.STAT.SR changes; EVSR of both channels (R421). -/
def State.setSr (s : State) (v : Nat) : State :=
  if s.get F.MEM_STAT_SR = v then s
  else (((s.set F.MEM_STAT_SR v).flag (.MEM_CHEV 0) 6).flag (.MEM_CHEV 1) 6)

/-- R422, R457: a DRAM request ends self-refresh, or an entry into it, and opens a closed gate of the DDR domain. While the
root PLL coasts the request waits for the exit (R453), and the model serves it without one. -/
def State.touchDram (s : State) : State :=
  let s := s.set (F.CLK_DSTAT_GATED 1) 0
  if s.on F.CLK_STAT_COAST then s else s.setSr 0

/-- R408: counting of one corrected beat of a channel, and EVCE at each threshold's worth. -/
def State.corrected (s : State) (ch : Nat) : State :=
  let s := s.count (F.MEM_CECNT_COUNT ch) 1
  let t := s.get (F.MEM_CETHR_COUNT ch)
  if t ≠ 0 ∧ s.get (F.MEM_CECNT_COUNT ch) = t then s.flag (.MEM_CHEV ch) 0 else s

/-- What the read of one 8-byte word does beside returning data (R98, R408): a word with a single-bit error is counted;
an uncorrectable DRAM word is counted and logged. -/
def State.readWord (s : State) (w : Nat) : State :=
  if s.bad w then
    if inDram w then
      let ch := channelOf w
      let s := s.count (F.MEM_UECNT_COUNT ch) 1
      let s := s.set (F.MEM_ECCLOG_ADDR ch) (channelAddr w / 8)
      let s := s.set (F.MEM_ECCLOG_POISON ch) (b2n (s.poison.any fun e => e.1 == w && e.2))
      let s := s.set (F.MEM_ECCLOG_VALID ch) 1
      s.flag (.MEM_CHEV ch) 1
    else s
  else if s.soft.contains w then
    if inDram w then s.corrected (channelOf w) else s.count F.HRC_ECCCNT_COUNT 1
  else s

/-- What a read does beside returning data (R98, R408, R422): DRAM leaves self-refresh, and each word is read. -/
def State.readEffects (s : State) (a n : Nat) : State :=
  (wordsOf a n).foldl State.readWord (if inDram a then s.touchDram else s)

/-- A write of some bytes of one 8-byte word (R98, R409): a whole word clears poison and errors; a part of a word reads
the word first, which counts as any read (DEDUCED, log entry 71), and a part of an uncorrectable word leaves it poisoned
and the bytes are lost. A failed channel takes no write (R412). -/
def State.putWord (s : State) (w a : Nat) (l : List Byte) : State :=
  if s.touchesFailed w 8 then s
  else if l.length = 8 then
    { (s.putBytes a l) with poison := s.poison.filter (fun e => e.1 != w), soft := s.soft.filter (· != w) }
  else if s.bad w then { s.readWord w with poison := (w, true) :: s.poison.filter (fun e => e.1 != w) }
  else { ((s.readWord w).putBytes a l) with soft := s.soft.filter (· != w) }

/-- R334: some group is running. -/
def State.scanRuns (s : State) : Bool := (List.range 16).any fun g => s.get (F.SCN_GSTAT_STATE g) == 1

/-- R338: slot `k` of the scan program memory of group `g` is armed or in force. A group that has not been started or
switched since reset has no slot in force (DEDUCED, log entry 24). -/
def State.scanSlotHeld (s : State) (g k : Nat) : Bool :=
  if k = s.get (F.SCN_GSTAT_INFORCE g) then ((s.scn.groups[g]?).map (·.inForce)).getD false
  else s.on (F.SCN_GSTAT_ARMED g)

/-- R278: slot `k` of the frame program memory is bound or in use. -/
def State.frameSlotHeld (s : State) (k : Nat) : Bool := s.rd (.CMP_BIND k) != 0 || s.get F.CMP_STAT_SLOT == k

/-- Two ranges meet. -/
def meets (a n b m : Nat) : Bool := decide (a < b + m ∧ b < a + n)

/-- R278, R334, R338: a write that reaches the plane store while a group runs, or a program slot that is held. -/
def State.memHeld (s : State) (a n : Nat) : Bool :=
  decide (0xE200000000 ≤ a) &&
    ((meets a n 0xE200000000 0x600000 && s.scanRuns)
      || ((List.range 32).any fun i => meets a n (0xE400000000 + i * 0x2000) 0x2000 && s.scanSlotHeld (i / 2) (i % 2))
      || [0, 1].any fun k => meets a n (0xE500000000 + k * 0x10000) 0x10000 && s.frameSlotHeld k)

/-- The range may be written by a core, a transfer, a host or a wall-addressed request (R15, R278, R334, R338). -/
def State.writable (s : State) (a n : Nat) : Bool := s.inMemory a n && !(s.memHeld a n)

/-- A store to the memories, word by word; nothing is written outside them (R15). -/
def State.store (s : State) (a : Nat) (l : List Byte) : State :=
  if !(s.inMemory a l.length) then s else
  let s := if inDram a then s.touchDram else s
  if s.poison.isEmpty && s.soft.isEmpty && !(s.touchesFailed a l.length) then s.putBytes a l
  else (wordsOf a l.length).foldl
    (fun s w => s.putWord w (max a w) ((l.drop (w - a)).take (min (a + l.length) (w + 8) - max a w))) s

/-- What a read of memory answers: refused under R15, uncorrectable under R98 or R408, or the data. -/
inductive MemResult where
  | refused
  | ecc
  | ok (l : List Byte)
deriving DecidableEq, Repr

/-- The physical page behind a page of the journal (R500). -/
def NvjState.phys (j : NvjState) (page : Nat) : Nat := (j.spares.lookup page).getD page

/-- A byte of the NVJ read window. -/
def NvjState.windowByte (j : NvjState) (o : Nat) : Byte := Memory.read j.data (j.phys (o / 32) * 32 + o % 32)

/-- The bytes of the NVJ read window and of the boot ROM. -/
def State.romByte (s : State) (a : Nat) : Byte :=
  if a < 0xFFFFFF0000 then s.nvj.windowByte (a - 0xF800000000) else Config.bootRom (a - 0xFFFFFF0000)

/-- A read of `n` bytes of memory, the NVJ window or the boot ROM, device state words apart (R14, R15, R98, R408). -/
def State.load (s : State) (a n : Nat) : MemResult × State :=
  if s.inMemory a n then
    let s' := s.readEffects a n
    if s.badRange a n then (.ecc, s') else (.ok (s.bytes a n), s')
  else if inNvjWindow a n || inBootRom a n then (.ok ((List.range n).map fun i => s.romByte (a + i)), s)
  else (.refused, s)

/-- The data of a read, refused and uncorrectable alike giving none. -/
def State.loadData (s : State) (a n : Nat) : Option (List Byte) :=
  if s.inMemory a n && !s.badRange a n then some (s.bytes a n) else none

end Sys2Proof.Machine
end

