-- ==== Sys2Proof/Machine/Operands.lean ====
section
/-! DEFINITION. The operands of the core instructions: general registers, pairs and quads (R51 to R54), and how an
instruction runs, ends, jumps, waits, halts or traps (R71 to R73, R96). -/

namespace Sys2Proof.Machine

/-- HRC.STAT[n].STATE codes (Table 4.6). -/
def coreHalted : Nat := 0
def coreRunning : Nat := 1
def coreWaiting : Nat := 2
def coreRetired : Nat := 3

/-- The state of core `n`: halted, running, waiting or retired. -/
def State.coreState (s : State) (n : Nat) : Nat := s.get (F.HRC_STAT_STATE n)

/-- Core `n`. -/
def State.core (s : State) (n : Fin 5) : Core := s.cores[n]

/-- The state with core `n` replaced. -/
def State.setCore (s : State) (n : Fin 5) (c : Core) : State := { s with cores := s.cores.set n c }

/-- R51: a general register; g0 reads as zero. -/
def Core.rg (c : Core) (r : BitVec 5) : Word := if r = 0 then 0 else c.g[r.toFin]

/-- R51: a general register written; a write to g0 is discarded. -/
def Core.wg (c : Core) (r : BitVec 5) (v : Word) : Core := if r = 0 then c else { c with g := c.g.set r.toFin v }

/-- R52: a register number names a pair: even and not 0. -/
def isPair (r : BitVec 5) : Bool := r.getLsbD 0 == false && r != 0

/-- R53: a register number names a quad: divisible by 4 and not 0. -/
def isQuad (r : BitVec 5) : Bool := decide (r.toNat % 4 = 0) && r != 0

/-- R54: a register number names a base: even, or 0 for a base of zero. -/
def isBase (r : BitVec 5) : Bool := r.getLsbD 0 == false

/-- R52: the value of a pair. -/
def Core.pair (c : Core) (r : BitVec 5) : BitVec 64 := (c.rg (r + 1)) ++ (c.rg r)

/-- R52: a pair written. -/
def Core.setPair (c : Core) (r : BitVec 5) (v : BitVec 64) : Core :=
  (c.wg r (v.extractLsb' 0 32)).wg (r + 1) (v.extractLsb' 32 32)

/-- R54: the base that a base field gives: a pair, or zero for a field of 0. -/
def Core.base (c : Core) (r : BitVec 5) : BitVec 64 := if r = 0 then 0 else c.pair r

/-- R63: the target of JALR, the sum of a base and an offset without wrap (DEDUCED, log entry 64). -/
def Core.addr (c : Core) (r : BitVec 5) (off : Int) : Int := (c.base r).toNat + off

/-- R54: the 64-bit sum of a base and an offset, from which loads, stores and atomics form their address. -/
def Core.sum (c : Core) (r : BitVec 5) (off : Int) : BitVec 64 := c.base r + BitVec.ofInt 64 off

/-- R53: a wall time in 1/65,536 ns written to a quad; `invalid` sets bit 31 of seconds [63:32] (R78). -/
def Core.setQuad (c : Core) (r : BitVec 5) (t : Nat) (invalid : Bool) : Core :=
  let hi := BitVec.ofNat 32 (wuSec t / 2 ^ 32)
  let c := c.wg r (if invalid then hi ||| 0x80000000 else hi)
  let c := c.wg (r + 1) (BitVec.ofNat 32 (wuSec t))
  let c := c.wg (r + 2) (BitVec.ofNat 32 (wuNs t))
  c.wg (r + 3) (BitVec.ofNat 32 (wuFrac t))

/-- Trap causes (Table 3.9). -/
def trapIllegal : Nat := 1
def trapPrivilege : Nat := 2
def trapFetch : Nat := 3
def trapAccess : Nat := 4
def trapAlign : Nat := 5
def trapDivide : Nat := 6
def trapArgument : Nat := 7
def trapRole : Nat := 8
def trapTrap : Nat := 9
def trapEcc : Nat := 10

/-- R95 to R97: the resume address of a halted core. -/
def State.setResume (s : State) (n : Nat) (pc : BitVec 40) : State :=
  (s.wr (.HRC_PCLO n) (pc.extractLsb' 0 32)).wr (.HRC_PCHI n) ((pc.extractLsb' 32 8).setWidth 32)

/-- R96: the halt notice, for every halt but one under R95. -/
def State.haltNotice (s : State) (n : Nat) : State :=
  if s.on (F.HRC_CFG_HEVEN n) then s.raise (480 + s.get (F.HRC_CFG_HEVT n)) else s

/-- R96, Table 4.1: a core halts with a cause and a resume address. -/
def State.haltCore (s : State) (n : Fin 5) (cause : Nat) (resume : BitVec 40) : State :=
  let c := s.core n
  let s := s.setCore n { c with wait := none, haltReq := false }
  let s := s.set (F.HRC_STAT_STATE n) coreHalted
  let s := s.set (F.HRC_STAT_HCAUSE n) cause
  let s := s.setResume n resume
  if cause = 2 then s else s.haltNotice n

/-- R71, R73: a trap. EPC, CAUSE, PSUP, SUP and INTRAP are set and execution goes on at TVEC; with INTRAP already set
the core halts with HCAUSE 3 and DTCODE. No general register and no memory changes, and INSTRET does not count. -/
def State.takeTrap (s : State) (n : Fin 5) (code detail : Nat) : State :=
  let c := s.core n
  if c.inTrap then
    (s.set (F.HRC_STAT_DTCODE n) code).haltCore n 3 c.pc
  else
    let c' := { c with
      epc := c.pc, causeCode := BitVec.ofNat 8 code, causeDetail := BitVec.ofNat 8 detail,
      psup := c.sup, sup := true, inTrap := true, pc := c.tvec, wait := none }
    (s.setCore n c').set (F.HRC_STAT_STATE n) coreRunning

/-- R72: return from a trap: the program counter becomes EPC, SUP becomes PSUP and INTRAP is cleared. -/
def Core.eret (c : Core) : Core := { c with pc := c.epc, sup := c.psup, inTrap := false }

/-- How an instruction ends: it completes and the next one follows; it completes and execution goes on elsewhere; it
completes without being counted (R69); it halts its core after completing; it traps; it traps after an access whose error
the memory has counted and logged (R98, R408); or it waits. -/
inductive Ends where
  | next (s : State)
  | jump (s : State) (pc : BitVec 40)
  | uncounted (s : State)
  | halts (s : State)
  | trap (code detail : Nat)
  | trapAfter (s : State) (code : Nat)
  | waits (s : State) (w : Wait)

/-- R90: a wait that a halt request does not abandon: NVWR runs to its end. -/
def Core.holdsHalt (c : Core) : Bool :=
  match c.wait with
  | some (.nvwr ..) => true
  | _ => false

/-- R95, R97: what a core does after the instruction in progress: a requested halt takes effect, and a core that its own
instruction halted resumes at the next one. -/
def State.settle (s : State) (n : Fin 5) : State :=
  let c := s.core n
  if s.coreState n = coreHalted then s.setResume n c.pc
  else if c.haltReq && !c.holdsHalt then s.haltCore n 2 c.pc
  else s

/-- R92, R487: the part executes core instructions: its core rail has settled with the repair map applied, and Dusk has
not ended. -/
def State.coresLive (s : State) : Bool :=
  s.aon.phase == 6 && !(s.get F.BOT_STAT_STAGE == 7 && s.on F.BOT_DUSKSTAT_DONE)

/-- An instruction completes: INSTRET counts it (Table 3.8) and execution goes on at `pc`. -/
def State.retire (s : State) (n : Fin 5) (pc : BitVec 40) : State :=
  s.setCore n { s.core n with pc := pc, instret := (s.core n).instret + 1 }

/-- The effect of the end of an instruction on its core. -/
def State.close (s : State) (n : Fin 5) : Ends → State
  | .next s' => s'.retire n ((s'.core n).pc + 4)
  | .jump s' pc => s'.retire n pc
  | .uncounted s' => s'.setCore n { s'.core n with pc := (s'.core n).pc + 4 }
  | .halts s' => (s'.retire n ((s'.core n).pc + 4)).haltCore n 1 ((s'.core n).pc + 4)
  | .trap code detail => s.takeTrap n code detail
  | .trapAfter s' code => s'.takeTrap n code 0
  | .waits s' w => (s'.setCore n { s'.core n with wait := some w }).set (F.HRC_STAT_STATE n) coreWaiting

/-- The end of an instruction, and what its core does after it (R95, R97). -/
def State.finish (s : State) (n : Fin 5) (e : Ends) : State := (s.close n e).settle n

/-- A core executes an instruction only while it runs and the part executes core instructions; a command for a core that
is halted, waiting or retired does nothing (DEDUCED, log entry 4). -/
def State.runInstr (s : State) (n : Fin 5) (body : Core → Ends) : State :=
  if s.coreState n = coreRunning ∧ s.coresLive = true then s.finish n (body (s.core n)) else s

/-- A waiting instruction completes with a result in its destination (R76, R79, R83, R87). -/
def State.wake (s : State) (n : Fin 5) (gd : BitVec 5) (v : Word) : State :=
  let c := s.core n
  (((s.setCore n { (c.wg gd v) with wait := none }).set (F.HRC_STAT_STATE n) coreRunning).retire n (c.pc + 4)).settle n

/-- An instruction whose only effect is a result in `gd`. -/
def resultIn (s : State) (n : Fin 5) (gd : BitVec 5) (v : Word) : Ends := .next (s.setCore n ((s.core n).wg gd v))

/-- R75: a device instruction marked S traps in user mode, one marked Tile traps in sender role. -/
def guarded (s : State) (c : Core) (supOnly tileOnly : Bool) (body : Ends) : Ends :=
  if supOnly && !c.sup then .trap trapPrivilege 0
  else if tileOnly && !s.isTile then .trap trapRole 0
  else body

end Sys2Proof.Machine
end

