-- ==== Sys2Proof/Machine/CoreWords.lean ====
section
/-! DEFINITION. The program words of the Hour cores (R47 to R53, Tables 3.1 to 3.6, 3.10 and 3.11): the instruction that
a word spells, and the word at a core's program counter. -/

namespace Sys2Proof.Machine

/-- OPA and OPM (Table 3.3). -/
def decodeOp (n : Fin 5) (gd ga gb : BitVec 5) (opm : Bool) (fn : Nat) : Option Instr :=
  match opm, fn with
  | false, 0x0 => some (.add n gd ga gb)
  | false, 0x1 => some (.sub n gd ga gb)
  | false, 0x2 => some (.and n gd ga gb)
  | false, 0x3 => some (.or n gd ga gb)
  | false, 0x4 => some (.xor n gd ga gb)
  | false, 0x5 => some (.shl n gd ga gb)
  | false, 0x6 => some (.shr n gd ga gb)
  | false, 0x7 => some (.sra n gd ga gb)
  | false, 0x8 => some (.slt n gd ga gb)
  | false, 0x9 => some (.sltu n gd ga gb)
  | false, 0xA => some (.min n gd ga gb)
  | false, 0xB => some (.max n gd ga gb)
  | true, 0x0 => some (.mul n gd ga gb)
  | true, 0x1 => some (.mulh n gd ga gb)
  | true, 0x2 => some (.div n gd ga gb)
  | true, 0x3 => some (.divu n gd ga gb)
  | true, 0x4 => some (.rem n gd ga gb)
  | _, _ => none

/-- SHIFTI (Table 3.3): imm16 [15:14] selects, [13:5] is 0 and [4:0] is the amount. -/
def decodeShift (n : Fin 5) (gd ga : BitVec 5) (imm : BitVec 16) : Option Instr :=
  let k := imm.extractLsb' 0 5
  if imm.extractLsb' 5 9 ≠ 0 then none
  else match (imm.extractLsb' 14 2).toNat with
    | 0 => some (.shli n gd ga k)
    | 1 => some (.shri n gd ga k)
    | 2 => some (.srai n gd ga k)
    | _ => none

/-- LOAD (Table 3.4). -/
def decodeLoad (n : Fin 5) (gd ga : BitVec 5) (code : Nat) (off : BitVec 13) : Option Instr :=
  if !(isBase ga) then none
  else match code with
    | 0 => some (.lb n gd ga off)
    | 1 => some (.lh n gd ga off)
    | 2 => some (.lw n gd ga off)
    | 3 => if isPair gd then some (.ld n gd ga off) else none
    | 4 => some (.lbu n gd ga off)
    | 5 => some (.lhu n gd ga off)
    | _ => none

/-- STORE (Table 3.4). -/
def decodeStore (n : Fin 5) (gd ga : BitVec 5) (code : Nat) (off : BitVec 13) : Option Instr :=
  if !(isBase ga) then none
  else match code with
    | 0 => some (.sb n gd ga off)
    | 1 => some (.sh n gd ga off)
    | 2 => some (.sw n gd ga off)
    | 3 => if isPair gd then some (.sd n gd ga off) else none
    | _ => none

/-- BRANCH (Table 3.5). -/
def decodeBranch (n : Fin 5) (ga gb : BitVec 5) (code : Nat) (off : BitVec 13) : Option Instr :=
  match code with
  | 0 => some (.breq n ga gb off)
  | 1 => some (.brne n ga gb off)
  | 2 => some (.brlts n ga gb off)
  | 3 => some (.brges n ga gb off)
  | 4 => some (.brltu n ga gb off)
  | 5 => some (.brgeu n ga gb off)
  | _ => none

/-- ATOMIC (R59). -/
def decodeAtomic (n : Fin 5) (gd ga gb : BitVec 5) (fn : Nat) : Option Instr :=
  if !(isBase ga) then none
  else match fn with
    | 0 => some (.atadd n gd ga gb)
    | 1 => some (.atxch n gd ga gb)
    | 2 => if isPair gb then some (.atcas n gd ga gb) else none
    | _ => none

/-- The status words of Table 3.6 that move through a pair. -/
def wideStatus (w : Nat) : Bool := w == 1 || w == 3 || w == 5

/-- SYS (Table 3.10): fn [3:0] selects, and fn [10:4] is the code of TRAP or the word number of CWR and CWW. -/
def decodeSys (n : Fin 5) (gd ga gb : BitVec 5) (fn : BitVec 11) : Option Instr :=
  let top := fn.extractLsb' 4 7
  let none3 := gd == 0 && ga == 0 && gb == 0
  match (fn.extractLsb' 0 4).toNat with
  | 0 => if none3 then some (.trap n top) else none
  | 1 => if none3 && top == 0 then some (.eret n) else none
  | 2 => if none3 && top == 0 then some (.halt n) else none
  | 3 => if none3 && top == 0 then some (.fence n) else none
  | 4 => if none3 && top == 0 then some (.fenceT n) else none
  | 5 =>
    if ga == 0 && gb == 0 && decide (top.toNat ≤ 5)
        && (!wideStatus top.toNat || isPair gd || (top == 5 && gd == 0)) then
      some (.cwr n gd top)
    else none
  | 6 =>
    if gd == 0 && gb == 0 && decide (top.toNat ≤ 5) && (!wideStatus top.toNat || isPair ga) then some (.cww n top ga)
    else none
  | _ => none

/-- The device instructions (Table 3.11), with their unused fields 0 and their pairs and quads. -/
def decodeDevice (n : Fin 5) (gd ga gb : BitVec 5) (op fn : Nat) : Option Instr :=
  match op, fn with
  | 0x11, 0 => if gb == 0 then some (.await n gd ga) else none
  | 0x11, 1 => if gb == 0 && gd == 0 then some (.signal n ga) else none
  | 0x12, 0 => if gb == 0 && isQuad ga then some (.waitt n gd ga) else none
  | 0x12, 1 => if gb == 0 && ga == 0 && isQuad gd then some (.time n gd) else none
  | 0x12, 2 => if gb == 0 && ga == 0 then some (.tstep n gd) else none
  | 0x13, 0 => if isPair ga && isPair gb then some (.msg n gd ga gb) else none
  | 0x13, 1 => if gb == 0 && isPair ga then some (.xfer n gd ga) else none
  | 0x13, 2 => if gb == 0 then some (.xwait n gd ga) else none
  | 0x14, 0 => some (.commit n gd ga gb)
  | 0x14, 1 => some (.scansw n gd ga gb)
  | 0x15, 0 => if gb == 0 then some (.nvrd n gd ga) else none
  | 0x15, 1 => if isPair gb then some (.nvwr n gd ga gb) else none
  | 0x16, 0 => if gb == 0 && isPair ga then some (.hash n gd ga) else none
  | 0x16, 1 => some (.spare n gd ga gb)
  | _, _ => none

/-- R47 to R53: the instruction of core `n` that a program word spells, its fields read in the format of its opcode
(Tables 3.1 and 3.2); none for a word that takes the ILLEGAL trap. -/
def decodeCore (n : Fin 5) (w : Word) : Option Instr :=
  let op := getBits w 26 6
  let gd := w.extractLsb' 21 5
  let ga := w.extractLsb' 16 5
  let gb := w.extractLsb' 11 5
  let fn := w.extractLsb' 0 11
  let imm := w.extractLsb' 0 16
  let code := getBits w 13 3
  let off := w.extractLsb' 0 13
  match op with
  | 0x00 => decodeOp n gd ga gb false fn.toNat
  | 0x01 => decodeOp n gd ga gb true fn.toNat
  | 0x02 => some (.addi n gd ga imm)
  | 0x03 => some (.andi n gd ga imm)
  | 0x04 => some (.ori n gd ga imm)
  | 0x05 => some (.xori n gd ga imm)
  | 0x06 => decodeShift n gd ga imm
  | 0x07 => some (.slti n gd ga imm)
  | 0x08 => if ga == 0 then some (.lui n gd imm) else none
  | 0x09 => decodeLoad n gd ga code off
  | 0x0A => decodeStore n gd ga code off
  | 0x0B => decodeBranch n gd ga code off
  | 0x0C => some (.jal n (w.extractLsb' 0 26))
  | 0x0D => if isBase ga && isBase gd then some (.jalr n gd ga imm) else none
  | 0x0E => decodeAtomic n gd ga gb fn.toNat
  | 0x10 => decodeSys n gd ga gb fn
  | _ => decodeDevice n gd ga gb op fn.toNat

/-- A program word is an instruction of the Hour cores, with every unused field zero and every pair and quad register
allowed (R47 to R53). -/
def coreWordLegal (w : Word) : Bool := (decodeCore 0 w).isSome

/-- The program word at a core's program counter. -/
def State.programWord (s : State) (n : Fin 5) : Word :=
  let a := (s.core n).pc.toNat
  BitVec.ofNat 32 (leNat (if inBootRom a 4 then (List.range 4).map fun i => s.romByte (a + i) else s.bytes a 4))

/-- The instruction that a core meets at its program counter (R49, R62); none where the word is no instruction. -/
def State.fetched (s : State) (n : Fin 5) : Option Instr := decodeCore n (s.programWord n)

end Sys2Proof.Machine
end

