-- ==== Sys2Proof/Machine/Flags.lean ====
section
/-! DEFINITION. The results of the integer instructions (Table 3.3, R55, R56). The cores hold no condition flags: a
branch compares two registers itself (Table 3.5). -/

namespace Sys2Proof.Machine

/-- Operations of OPA (Table 3.3). -/
inductive AluOp where
  | add | sub | and | or | xor | shl | shr | sra | slt | sltu | min | max | mul | mulh
deriving DecidableEq, Repr

/-- R55: the result of an arithmetic or logic operation; a shift uses bits [4:0] of its amount. -/
def AluOp.apply (op : AluOp) (a b : Word) : Word :=
  match op with
  | .add => a + b
  | .sub => a - b
  | .and => a &&& b
  | .or => a ||| b
  | .xor => a ^^^ b
  | .shl => a <<< (b.toNat % 32)
  | .shr => a >>> (b.toNat % 32)
  | .sra => a.sshiftRight (b.toNat % 32)
  | .slt => if a.slt b then 1 else 0
  | .sltu => if a.ult b then 1 else 0
  | .min => if a.slt b then a else b
  | .max => if a.slt b then b else a
  | .mul => a * b
  | .mulh => BitVec.ofInt 32 (a.toInt * b.toInt / 4294967296)

/-- R56: the signed quotient rounded towards zero; the most negative number by −1 gives itself. -/
def signedQuotient (a b : Word) : Word := BitVec.ofInt 32 (a.toInt.tdiv b.toInt)

/-- R56: the unsigned quotient. -/
def unsignedQuotient (a b : Word) : Word := BitVec.ofNat 32 (a.toNat / b.toNat)

/-- R56: the signed remainder, with the sign of the dividend. -/
def signedRemainder (a b : Word) : Word := BitVec.ofInt 32 (a.toInt.tmod b.toInt)

/-- Conditions of the branches (Table 3.5). -/
inductive Cond where
  | eq | ne | lts | ges | ltu | geu
deriving DecidableEq, Repr

/-- Whether a branch is taken (Table 3.5). -/
def Cond.holds (c : Cond) (a b : Word) : Bool :=
  match c with
  | .eq => a == b
  | .ne => a != b
  | .lts => a.slt b
  | .ges => !a.slt b
  | .ltu => a.ult b
  | .geu => !a.ult b

end Sys2Proof.Machine
end

