-- ==== Sys2Proof/Machine/CoreControl.lean ====
section
/-! DEFINITION. Branches, jumps and system instructions of the Hour cores (R63, R66, R67, R69, R72, R74), with the traps
of words that are no instruction (R48, R50) and of fetches (R61, R62). -/

namespace Sys2Proof.Machine

/-- The target of a branch or of JAL: words from the instruction's own address, without wrap (R63). -/
def relTarget (pc : BitVec 40) (words : Int) : Int := pc.toNat + 4 * words

/-- R63: a jump to a computed target; one outside 40 bits causes the FETCH trap. -/
def jumpTo (s : State) (t : Int) : Ends :=
  if t < 0 ∨ 1099511627776 ≤ t then .trap trapFetch 0 else .jump s (BitVec.ofInt 40 t)

/-- A conditional branch (Table 3.5). -/
def branch (k : Cond) (n : Fin 5) (ga gb : BitVec 5) (offset : BitVec 13) (s : State) : State :=
  s.runInstr n fun c =>
    if k.holds (c.rg ga) (c.rg gb) then jumpTo s (relTarget c.pc offset.toInt) else .next s

/-- BREQ (R63, Table 3.5). -/
def execBreq (n : Fin 5) (ga gb : BitVec 5) (offset : BitVec 13) (s : State) : Host.Outcome State Fault Refusal :=
  .next (branch .eq n ga gb offset s)

/-- BRNE (R63, Table 3.5). -/
def execBrne (n : Fin 5) (ga gb : BitVec 5) (offset : BitVec 13) (s : State) : Host.Outcome State Fault Refusal :=
  .next (branch .ne n ga gb offset s)

/-- BRLTS (R63, Table 3.5). -/
def execBrlts (n : Fin 5) (ga gb : BitVec 5) (offset : BitVec 13) (s : State) : Host.Outcome State Fault Refusal :=
  .next (branch .lts n ga gb offset s)

/-- BRGES (R63, Table 3.5). -/
def execBrges (n : Fin 5) (ga gb : BitVec 5) (offset : BitVec 13) (s : State) : Host.Outcome State Fault Refusal :=
  .next (branch .ges n ga gb offset s)

/-- BRLTU (R63, Table 3.5). -/
def execBrltu (n : Fin 5) (ga gb : BitVec 5) (offset : BitVec 13) (s : State) : Host.Outcome State Fault Refusal :=
  .next (branch .ltu n ga gb offset s)

/-- BRGEU (R63, Table 3.5). -/
def execBrgeu (n : Fin 5) (ga gb : BitVec 5) (offset : BitVec 13) (s : State) : Host.Outcome State Fault Refusal :=
  .next (branch .geu n ga gb offset s)

/-- JAL: pair g30 receives the next address and execution goes on at the target (R63). -/
def execJal (n : Fin 5) (offset : BitVec 26) (s : State) : Host.Outcome State Fault Refusal :=
  .next (s.runInstr n fun c =>
    jumpTo (s.setCore n (c.setPair 30 ((c.pc + 4).setWidth 64))) (relTarget c.pc offset.toInt))

/-- JALR: the target is the pair ga plus imm16 × 4, without wrap, and pair gd receives the next address; gd = 0 discards
it (R63). A target outside 40 bits or not word aligned causes the FETCH trap (R54). -/
def execJalr (n : Fin 5) (gd ga : BitVec 5) (imm : BitVec 16) (s : State) : Host.Outcome State Fault Refusal :=
  .next (s.runInstr n fun c =>
    if !(isBase ga) || !(isBase gd) then .trap trapIllegal 0
    else
      let t := c.addr ga (4 * imm.toInt)
      if t < 0 ∨ 2 ^ 40 ≤ t ∨ t % 4 ≠ 0 then .trap trapFetch 0
      else .jump (if gd = 0 then s else s.setCore n (c.setPair gd ((c.pc + 4).setWidth 64))) (BitVec.ofInt 40 t))

/-- TRAP: the TRAP trap with DETAIL holding the code (R74, Table 3.9). -/
def execTrap (n : Fin 5) (code : BitVec 7) (s : State) : Host.Outcome State Fault Refusal :=
  .next (s.runInstr n fun _ => .trap trapTrap code.toNat)

/-- ERET: supervisor only; returns to EPC with SUP from PSUP and INTRAP cleared (R72). -/
def execEret (n : Fin 5) (s : State) : Host.Outcome State Fault Refusal :=
  .next (s.runInstr n fun c =>
    guarded s c true false (.jump (s.setCore n { c with sup := c.psup, inTrap := false }) c.epc))

/-- HALT: supervisor only; the core halts with HCAUSE 1 and resumes after the instruction (R74, Table 4.1). -/
def execHalt (n : Fin 5) (s : State) : Host.Outcome State Fault Refusal :=
  .next (s.runInstr n fun c => guarded s c true false (.halts s))

/-- FENCE: every earlier store has been performed when the next instruction begins (R66). Stores of this model take
effect at their instruction, so nothing is left to wait for (DESIGN CHOICE, log entry 5). -/
def execFence (n : Fin 5) (s : State) : Host.Outcome State Fault Refusal :=
  .next (s.runInstr n fun _ => .next s)

/-- FENCE.T: as FENCE, and earlier device state word stores and SIGNALs have taken effect (R67). -/
def execFenceT (n : Fin 5) (s : State) : Host.Outcome State Fault Refusal :=
  .next (s.runInstr n fun _ => .next s)

/-- MODE as a word (Table 3.7). -/
def Core.mode (c : Core) : Word := BitVec.ofNat 32 (b2n c.sup + 2 * b2n c.psup + 4 * b2n c.inTrap)

/-- R69: the core status word of a number of Table 3.6, as 64 bits, and whether it moves through a pair. -/
def Core.status (c : Core) (word : Nat) : Option (BitVec 64 × Bool) :=
  match word with
  | 0 => some (c.mode.setWidth 64, false)
  | 1 => some (c.epc.setWidth 64, true)
  | 2 => some (((c.causeDetail ++ c.causeCode : BitVec 16)).setWidth 64, false)
  | 3 => some (c.tvec.setWidth 64, true)
  | 4 => some (c.evmask.setWidth 64, false)
  | 5 => some (c.instret, true)
  | _ => none

/-- Bits [1:0] of an address cleared (Table 3.8). -/
def wordAligned (a : BitVec 40) : BitVec 40 := a &&& ~~~3

/-- R69: a core status word written; reserved bits stay 0 (Tables 3.7 and 3.8). -/
def Core.setStatus (c : Core) (word : Nat) (v : BitVec 64) : Core :=
  match word with
  | 0 => { c with sup := v.getLsbD 0, psup := v.getLsbD 1, inTrap := v.getLsbD 2 }
  | 1 => { c with epc := wordAligned (v.setWidth 40) }
  | 2 => { c with causeCode := v.extractLsb' 0 8, causeDetail := v.extractLsb' 8 8 }
  | 3 => { c with tvec := wordAligned (v.setWidth 40) }
  | 4 => { c with evmask := v.extractLsb' 0 16 }
  | 5 => { c with instret := v }
  | _ => c

/-- CWR: copies a core status word to gd, a 64-bit one to a pair; supervisor only but for INSTRET, for which gd = 0
discards the value (R69, Table 3.6). -/
def execCwr (n : Fin 5) (gd : BitVec 5) (word : BitVec 7) (s : State) : Host.Outcome State Fault Refusal :=
  .next (s.runInstr n fun c =>
    match c.status word.toNat with
    | none => .trap trapIllegal 0
    | some (v, wide) =>
      if wide && !(isPair gd) && !(decide (word = 5) && gd == 0) then .trap trapIllegal 0
      else if !c.sup && word != 5 then .trap trapPrivilege 0
      else if wide then (if gd = 0 then .next s else .next (s.setCore n (c.setPair gd v)))
      else .next (s.setCore n (c.wg gd (v.setWidth 32))))

/-- CWW: copies ga, or a pair, to a core status word; supervisor only; a write of INSTRET is not counted (R69). -/
def execCww (n : Fin 5) (word : BitVec 7) (ga : BitVec 5) (s : State) : Host.Outcome State Fault Refusal :=
  .next (s.runInstr n fun c =>
    match c.status word.toNat with
    | none => .trap trapIllegal 0
    | some (_, wide) =>
      if wide && !(isPair ga) then .trap trapIllegal 0
      else if !c.sup then .trap trapPrivilege 0
      else
        let v := if wide then c.pair ga else (c.rg ga).setWidth 64
        let s' := s.setCore n (c.setStatus word.toNat v)
        if word = 5 then .uncounted s' else .next s')

/-- An Hour core meets a program word that is no instruction of its subset and takes the ILLEGAL trap (R48, R50). A
word that is an instruction is not this command's business, and nothing happens. -/
def execIllegalInstruction (n : Fin 5) (word : Word) (s : State) : Host.Outcome State Fault Refusal :=
  .next (if coreWordLegal word then s else s.runInstr n fun _ => .trap trapIllegal 0)

/-- R61, R62: a core may fetch from an address: core local memories, common memory, and the boot ROM in supervisor
mode. -/
def fetchAllowed (s : State) (c : Core) : Bool :=
  let a := c.pc.toNat
  if inBootRom a 4 then c.sup
  else decide (0xE000000000 ≤ a ∧ a < 0xE200000000) && s.inMemory a 4

/-- The fetch of the instruction at the program counter fails: the FETCH trap where R61 or R62 refuses it, the ECC trap
where its word is uncorrectable (R98); where the fetch succeeds, nothing happens. -/
def execFetchFault (n : Fin 5) (s : State) : Host.Outcome State Fault Refusal :=
  let c := s.core n
  .next (if !(fetchAllowed s c) then s.runInstr n fun _ => .trap trapFetch 0
    else if s.badRange c.pc.toNat 4 then s.runInstr n fun _ => .trap trapEcc 0
    else s)

end Sys2Proof.Machine
end

