-- ==== Sys2Proof/Machine/CoreSync.lean ====
section
/-! DEFINITION. Waiting for events and for wall time, software events, starting and halting cores, and the event words
(R76 to R79, R90, R94 to R97, R109 to R113). -/

namespace Sys2Proof.Machine

/-- R76, R111: the lowest event that is pending, routed to core `n` and admitted by its EVMASK. -/
def State.admitted (s : State) (n : Fin 5) : Option Nat :=
  s.lowestPending fun k => s.route k == n.val && (s.core n).evmask.getLsbD (k / 32)

/-- AWAIT: returns the admitted event, or waits for one or for the timeout (R76). -/
def execAwait (n : Fin 5) (gd ga : BitVec 5) (s : State) : Host.Outcome State Fault Refusal :=
  .next (s.runInstr n fun c =>
    match s.admitted n with
    | some k => resultIn s n gd (BitVec.ofNat 32 k)
    | none => .waits s (.await gd (c.rg ga).toNat))

/-- A waiting AWAIT resumes with the admitted event, or with 0xFFFF_FFFF when its timeout has elapsed (R76). -/
def execAwaitWake (n : Fin 5) (timeout : Bool) (s : State) : Host.Outcome State Fault Refusal :=
  .next (match s.coreState n == coreWaiting, (s.core n).wait with
    | true, some (.await gd t) =>
      match s.admitted n with
      | some k => s.wake n gd (BitVec.ofNat 32 k)
      | none => if timeout && t != 0 then s.wake n gd 0xFFFFFFFF else s
    | _, _ => s)

/-- SIGNAL: event 480 + ga becomes pending; a value above 15 causes the ARGUMENT trap (R77). -/
def execSignal (n : Fin 5) (ga : BitVec 5) (s : State) : Host.Outcome State Fault Refusal :=
  .next (s.runInstr n fun c =>
    if 15 < (c.rg ga).toNat then .trap trapArgument 0 else .next (s.raise (480 + (c.rg ga).toNat)))

/-- The target of a quad in 1/65,536 ns, or none where R79 gives the ARGUMENT trap. -/
def Core.target (c : Core) (q : BitVec 5) : Option Nat :=
  let hi := c.rg q
  let ns := (c.rg (q + 2)).toNat
  let fr := (c.rg (q + 3)).toNat
  if hi.getLsbD 31 || decide (1000000000 ≤ ns) || decide (65536 ≤ fr) then none
  else some (wuOf (hi.toNat * 2 ^ 32 + (c.rg (q + 1)).toNat) ns fr)

/-- WAITT: waits until the wall time is at or after the target; 2 at once where the target is already past, 1 at once
while TIM.STAT.VALID is 0 (R79). A target out of range traps before VALID is looked at (DESIGN CHOICE, log entry 70). -/
def execWaitt (n : Fin 5) (gd ga : BitVec 5) (s : State) : Host.Outcome State Fault Refusal :=
  .next (s.runInstr n fun c =>
    if !(isQuad ga) then .trap trapIllegal 0
    else match c.target ga with
      | none => .trap trapArgument 0
      | some t =>
        if !(s.on F.TIM_STAT_VALID) then resultIn s n gd 1
        else if t < s.now then resultIn s n gd 2
        else if t = s.now then resultIn s n gd 0
        else .waits s (.waitt gd ga))

/-- A waiting WAITT resumes: with 1 when VALID is 0, with 0 once the wall time has reached the target (R79). -/
def execWaittWake (n : Fin 5) (s : State) : Host.Outcome State Fault Refusal :=
  .next (match s.coreState n == coreWaiting, (s.core n).wait with
    | true, some (.waitt gd q) =>
      if !(s.on F.TIM_STAT_VALID) then s.wake n gd 1
      else match (s.core n).target q with
        | some t => if t ≤ s.now then s.wake n gd 0 else s
        | none => s
    | _, _ => s)

/-- TIME: the wall time into a quad, with bit 31 of seconds [63:32] set while VALID is 0 (R78). -/
def execTime (n : Fin 5) (gd : BitVec 5) (s : State) : Host.Outcome State Fault Refusal :=
  .next (s.runInstr n fun c =>
    if !(isQuad gd) then .trap trapIllegal 0
    else .next (s.setCore n (c.setQuad gd s.now (!(s.on F.TIM_STAT_VALID)))))

/-- R94, R108: START of a halted core at its resume address. -/
def State.startCore (s : State) (n : Fin 5) : State :=
  if s.coreState n = coreHalted then
    let pc : BitVec 40 := ((s.rd (.HRC_PCHI n)).setWidth 8 : BitVec 8) ++ s.rd (.HRC_PCLO n)
    (s.setCore n { s.core n with pc := pc, haltReq := false }).set (F.HRC_STAT_STATE n) coreRunning
  else s

/-- R95: while STAGE is 1, 2 or 3, HC0 runs the boot ROM and writes to HRC.CTL[0] are ignored. -/
def State.bootCore (s : State) (n : Fin 5) : Bool :=
  n.val == 0 && decide (1 ≤ s.get F.BOT_STAT_STAGE ∧ s.get F.BOT_STAT_STAGE ≤ 3)

/-- A write of 1 to HRC.CTL[n].START (R94). -/
def execCoreStart (n : Fin 5) (s : State) : Host.Outcome State Fault Refusal :=
  .next (if s.bootCore n then s else s.startCore n)

/-- R95: a halt of core `n` is requested. -/
def State.requestHalt (s : State) (n : Fin 5) : State :=
  if s.coreState n = coreRunning ∨ s.coreState n = coreWaiting then s.setCore n { s.core n with haltReq := true } else s

/-- A write of 1 to HRC.CTL[n].HALT (R95). -/
def execCoreHaltRequest (n : Fin 5) (s : State) : Host.Outcome State Fault Refusal :=
  .next (if s.bootCore n then s else s.requestHalt n)

/-- A requested halt takes effect with HCAUSE 2, at the next instruction or at the abandoned wait instruction (R90, R95,
Table 4.1). At the latest it does so at the end of the instruction in progress (State.settle). -/
def execCoreHalt (n : Fin 5) (s : State) : Host.Outcome State Fault Refusal :=
  .next (if (s.core n).haltReq && !(s.core n).holdsHalt then s.haltCore n 2 (s.core n).pc else s)

/-- A write of an event number to EVT.FORCE (R113). -/
def execEvtForce (event : BitVec 9) (s : State) : Host.Outcome State Fault Refusal :=
  .next (s.raise event.toNat)

/-- A write of 1s to EVT.PEND[j] (R109, R110). -/
def execEvtPendClear (j : Fin 16) (mask : Word) (s : State) : Host.Outcome State Fault Refusal :=
  .next (s.clearPending j mask)

/-- R111, Table 4.8: a route written; 6 is written as 7. -/
def State.setRoute (s : State) (k t : Nat) : State := s.set (F.EVT_ROUTE_TARGET k) (if t % 8 = 6 then 7 else t)

/-- A write to EVT.ROUTE[k] (R111, R112); a waiting AWAIT is evaluated again by its wake. -/
def execEvtRouteWrite (k : Fin 512) (target : BitVec 3) (s : State) : Host.Outcome State Fault Refusal :=
  .next (s.setRoute k target.toNat)

end Sys2Proof.Machine
end

