-- ==== Sys2Proof/Machine/Crypto.lean ====
section
/-! DEFINITION. The hash functions and the signature scheme that the manual names: SHA-256 and SHA-384 (R88), HMAC,
and ECDSA over P-256 and P-384 (R33, R479) with the nonce of RFC 6979
(R520). They are written from the public standards, which the
manual cites and does not restate (PRESUMED, log entry 7). -/

namespace Sys2Proof.Machine

/-! ### SHA-256 and SHA-384 -/

/-- Round constants of SHA-256, 0 to 15. -/
def sha256K0 : List (BitVec 32) :=
  [0x428A2F98, 0x71374491, 0xB5C0FBCF, 0xE9B5DBA5, 0x3956C25B, 0x59F111F1, 0x923F82A4, 0xAB1C5ED5, 0xD807AA98, 0x12835B01, 0x243185BE, 0x550C7DC3, 0x72BE5D74, 0x80DEB1FE, 0x9BDC06A7, 0xC19BF174]

/-- Round constants of SHA-256, 16 to 31. -/
def sha256K1 : List (BitVec 32) :=
  [0xE49B69C1, 0xEFBE4786, 0x0FC19DC6, 0x240CA1CC, 0x2DE92C6F, 0x4A7484AA, 0x5CB0A9DC, 0x76F988DA, 0x983E5152, 0xA831C66D, 0xB00327C8, 0xBF597FC7, 0xC6E00BF3, 0xD5A79147, 0x06CA6351, 0x14292967]

/-- Round constants of SHA-256, 32 to 47. -/
def sha256K2 : List (BitVec 32) :=
  [0x27B70A85, 0x2E1B2138, 0x4D2C6DFC, 0x53380D13, 0x650A7354, 0x766A0ABB, 0x81C2C92E, 0x92722C85, 0xA2BFE8A1, 0xA81A664B, 0xC24B8B70, 0xC76C51A3, 0xD192E819, 0xD6990624, 0xF40E3585, 0x106AA070]

/-- Round constants of SHA-256, 48 to 63. -/
def sha256K3 : List (BitVec 32) :=
  [0x19A4C116, 0x1E376C08, 0x2748774C, 0x34B0BCB5, 0x391C0CB3, 0x4ED8AA4A, 0x5B9CCA4F, 0x682E6FF3, 0x748F82EE, 0x78A5636F, 0x84C87814, 0x8CC70208, 0x90BEFFFA, 0xA4506CEB, 0xBEF9A3F7, 0xC67178F2]

/-- Round constants of SHA-256. -/
def sha256K : List (BitVec 32) := sha256K0 ++ sha256K1 ++ sha256K2 ++ sha256K3

/-- Round constants of SHA-384, 0 to 15. -/
def sha384K0 : List (BitVec 64) :=
  [0x428A2F98D728AE22, 0x7137449123EF65CD, 0xB5C0FBCFEC4D3B2F, 0xE9B5DBA58189DBBC, 0x3956C25BF348B538, 0x59F111F1B605D019, 0x923F82A4AF194F9B, 0xAB1C5ED5DA6D8118, 0xD807AA98A3030242, 0x12835B0145706FBE, 0x243185BE4EE4B28C, 0x550C7DC3D5FFB4E2, 0x72BE5D74F27B896F, 0x80DEB1FE3B1696B1, 0x9BDC06A725C71235, 0xC19BF174CF692694]

/-- Round constants of SHA-384, 16 to 31. -/
def sha384K1 : List (BitVec 64) :=
  [0xE49B69C19EF14AD2, 0xEFBE4786384F25E3, 0x0FC19DC68B8CD5B5, 0x240CA1CC77AC9C65, 0x2DE92C6F592B0275, 0x4A7484AA6EA6E483, 0x5CB0A9DCBD41FBD4, 0x76F988DA831153B5, 0x983E5152EE66DFAB, 0xA831C66D2DB43210, 0xB00327C898FB213F, 0xBF597FC7BEEF0EE4, 0xC6E00BF33DA88FC2, 0xD5A79147930AA725, 0x06CA6351E003826F, 0x142929670A0E6E70]

/-- Round constants of SHA-384, 32 to 47. -/
def sha384K2 : List (BitVec 64) :=
  [0x27B70A8546D22FFC, 0x2E1B21385C26C926, 0x4D2C6DFC5AC42AED, 0x53380D139D95B3DF, 0x650A73548BAF63DE, 0x766A0ABB3C77B2A8, 0x81C2C92E47EDAEE6, 0x92722C851482353B, 0xA2BFE8A14CF10364, 0xA81A664BBC423001, 0xC24B8B70D0F89791, 0xC76C51A30654BE30, 0xD192E819D6EF5218, 0xD69906245565A910, 0xF40E35855771202A, 0x106AA07032BBD1B8]

/-- Round constants of SHA-384, 48 to 63. -/
def sha384K3 : List (BitVec 64) :=
  [0x19A4C116B8D2D0C8, 0x1E376C085141AB53, 0x2748774CDF8EEB99, 0x34B0BCB5E19B48A8, 0x391C0CB3C5C95A63, 0x4ED8AA4AE3418ACB, 0x5B9CCA4F7763E373, 0x682E6FF3D6B2B8A3, 0x748F82EE5DEFB2FC, 0x78A5636F43172F60, 0x84C87814A1F0AB72, 0x8CC702081A6439EC, 0x90BEFFFA23631E28, 0xA4506CEBDE82BDE9, 0xBEF9A3F7B2C67915, 0xC67178F2E372532B]

/-- Round constants of SHA-384, 64 to 79. -/
def sha384K4 : List (BitVec 64) :=
  [0xCA273ECEEA26619C, 0xD186B8C721C0C207, 0xEADA7DD6CDE0EB1E, 0xF57D4F7FEE6ED178, 0x06F067AA72176FBA, 0x0A637DC5A2C898A6, 0x113F9804BEF90DAE, 0x1B710B35131C471B, 0x28DB77F523047D84, 0x32CAAB7B40C72493, 0x3C9EBE0A15C9BEBC, 0x431D67C49C100D4C, 0x4CC5D4BECB3E42B6, 0x597F299CFC657E2A, 0x5FCB6FAB3AD6FAEC, 0x6C44198C4A475817]

/-- Round constants of SHA-384. -/
def sha384K : List (BitVec 64) := sha384K0 ++ sha384K1 ++ sha384K2 ++ sha384K3 ++ sha384K4

/-- The initial value of SHA-256. -/
def sha256Init : List (BitVec 32) := [0x6A09E667, 0xBB67AE85, 0x3C6EF372, 0xA54FF53A, 0x510E527F, 0x9B05688C, 0x1F83D9AB, 0x5BE0CD19]

/-- The initial value of SHA-384. -/
def sha384Init : List (BitVec 64) :=
  [0xCBBB9D5DC1059ED8, 0x629A292A367CD507, 0x9159015A3070DD17, 0x152FECD8F70E5939, 0x67332667FFC00B31, 0x8EB44A8768581511, 0xDB0C2E0D64F98FA7, 0x47B5481DBEFA4FA4]

/-- The parameters in which SHA-256 and SHA-384 differ: word width in bytes, rounds, rotations and constants. -/
structure Sha (w : Nat) where
  rounds : Nat
  k : List (BitVec w)
  s0 : Nat × Nat × Nat
  s1 : Nat × Nat × Nat
  e0 : Nat × Nat × Nat
  e1 : Nat × Nat × Nat

/-- SHA-256. -/
def sha256P : Sha 32 := ⟨64, sha256K, (7, 18, 3), (17, 19, 10), (2, 13, 22), (6, 11, 25)⟩

/-- SHA-384. -/
def sha384P : Sha 64 := ⟨80, sha384K, (1, 8, 7), (19, 61, 6), (28, 34, 39), (14, 18, 41)⟩

/-- Two rotations and a shift. -/
def smallSigma {w : Nat} (r : Nat × Nat × Nat) (x : BitVec w) : BitVec w :=
  x.rotateRight r.1 ^^^ x.rotateRight r.2.1 ^^^ (x >>> r.2.2)

/-- Three rotations. -/
def bigSigma {w : Nat} (r : Nat × Nat × Nat) (x : BitVec w) : BitVec w :=
  x.rotateRight r.1 ^^^ x.rotateRight r.2.1 ^^^ x.rotateRight r.2.2

/-- The next word of the message schedule, from the last sixteen, newest first. -/
def nextWord {w : Nat} (p : Sha w) (l : List (BitVec w)) : BitVec w :=
  smallSigma p.s1 (l.getD 1 0) + l.getD 6 0 + smallSigma p.s0 (l.getD 14 0) + l.getD 15 0

/-- The message schedule, newest word first. -/
def schedule {w : Nat} (p : Sha w) : Nat → List (BitVec w) → List (BitVec w)
  | 0, l => l
  | n + 1, l => schedule p n (nextWord p l :: l)

/-- One round on the eight working words. -/
def shaRound {w : Nat} (p : Sha w) (v : List (BitVec w)) (kw : BitVec w × BitVec w) : List (BitVec w) :=
  match v with
  | [a, b, c, d, e, f, g, h] =>
    let t1 := h + bigSigma p.e1 e + ((e &&& f) ^^^ (~~~e &&& g)) + kw.1 + kw.2
    let t2 := bigSigma p.e0 a + ((a &&& b) ^^^ (a &&& c) ^^^ (b &&& c))
    [t1 + t2, a, b, c, d + t1, e, f, g]
  | _ => v

/-- One block absorbed. -/
def shaBlock {w : Nat} (p : Sha w) (st : List (BitVec w)) (block : List Byte) : List (BitVec w) :=
  let words := (chunks (w / 8) 16 block).map fun c => BitVec.ofNat w (beNat c)
  let sched := (schedule p (p.rounds - 16) words.reverse).reverse
  let v := (p.k.zip sched).foldl (shaRound p) st
  (st.zip v).map fun e => e.1 + e.2

/-- Whole blocks absorbed; a block is sixteen words. -/
def shaBlocks {w : Nat} (p : Sha w) (st : List (BitVec w)) (l : List Byte) : List (BitVec w) :=
  (chunks (2 * w) (l.length / (2 * w)) l).foldl (shaBlock p) st

/-- The padding of a message of `n` bytes, of which the last block holds `m`: 0x80, zeros and the length in bits. -/
def shaPad (w n m : Nat) : List Byte :=
  let blk := 2 * w
  let lenBytes := w / 4
  let zeros := (blk - (m + 1 + lenBytes) % blk) % blk
  0x80 :: (List.replicate zeros 0 ++ beBytes lenBytes (8 * n))

/-- State words as bytes. -/
def shaBytes {w : Nat} (st : List (BitVec w)) : List Byte := (st.map fun x => beBytes (w / 8) x.toNat).flatten

/-- The SHA-256 digest of bytes. -/
def sha256 (l : List Byte) : List Byte :=
  shaBytes (shaBlocks sha256P sha256Init (l ++ shaPad 32 l.length (l.length % 64)))

/-- The SHA-384 digest of bytes. -/
def sha384 (l : List Byte) : List Byte :=
  (shaBytes (shaBlocks sha384P sha384Init (l ++ shaPad 64 l.length (l.length % 128)))).take 48

/-- HMAC with SHA-256, for keys of at most 64 bytes. -/
def hmac (key l : List Byte) : List Byte :=
  let k := padTo 64 key
  sha256 ((k.map (· ^^^ 0x5C)) ++ sha256 ((k.map (· ^^^ 0x36)) ++ l))

/-! ### ECDSA over P-256 -/

/-- A curve y² = x³ − 3x + b over a prime field: the prime, the order of the base point, b, the base point and the
bytes of a coordinate. -/
structure Curve where
  p : Nat
  n : Nat
  b : Nat
  g : Nat × Nat
  size : Nat

/-- P-256 (FIPS 186-4). -/
def p256 : Curve where
  p := 0xFFFFFFFF00000001000000000000000000000000FFFFFFFFFFFFFFFFFFFFFFFF
  n := 0xFFFFFFFF00000000FFFFFFFFFFFFFFFFBCE6FAADA7179E84F3B9CAC2FC632551
  b := 0x5AC635D8AA3A93E7B3EBBD55769886BC651D06B0CC53B0F63BCE3C3E27D2604B
  g := (0x6B17D1F2E12C4247F8BCE6E563A440F277037D812DEB33A0F4A13945D898C296,
    0x4FE342E2FE1A7F9B8EE7EB4A7C0F9E162BCE33576B315ECECBB6406837BF51F5)
  size := 32

/-- P-384 (FIPS 186-4). -/
def p384 : Curve where
  p := 0xFFFFFFFFFFFFFFFFFFFFFFFFFFFFFFFFFFFFFFFFFFFFFFFFFFFFFFFFFFFFFFFEFFFFFFFF0000000000000000FFFFFFFF
  n := 0xFFFFFFFFFFFFFFFFFFFFFFFFFFFFFFFFFFFFFFFFFFFFFFFFC7634D81F4372DDF581A0DB248B0A77AECEC196ACCC52973
  b := 0xB3312FA7E23EE7E4988E056BE3F82D19181D9C6EFE8141120314088F5013875AC656398D8A2ED19D2A85C8EDD3EC2AEF
  g := (0xAA87CA22BE8B05378EB1C71EF320AD746E1D3B628BA79B9859F741E082542A385502F25DBF55296C3A545E3872760AB7,
    0x3617DE4A96262C6F5D9E98BF9292DC29F8F41DBD289A147CE9DA3113B5F0B8C00A60B1CE1D7E819D7A431D7C90EA0E5F)
  size := 48

/-- A power modulo `m`, by the bits of the exponent below 2^fuel. -/
def powMod (m : Nat) : Nat → Nat → Nat → Nat
  | 0, _, _ => 1 % m
  | fuel + 1, b, e =>
    let h := powMod m fuel (b * b % m) (e / 2)
    if e % 2 = 1 then b * h % m else h

/-- The inverse modulo a prime. -/
def invMod (m x : Nat) : Nat := powMod m 384 (x % m) (m - 2)

/-- The sum of two points; none is the point at infinity. -/
def Curve.add (c : Curve) (a b : Option (Nat × Nat)) : Option (Nat × Nat) :=
  match a, b with
  | none, q => q
  | q, none => q
  | some (x1, y1), some (x2, y2) =>
    if x1 = x2 ∧ (y1 + y2) % c.p = 0 then none
    else
      let l := if x1 = x2 then (3 * (x1 * x1) + c.p - 3) * invMod c.p (2 * y1) % c.p
        else (y2 + c.p - y1) * invMod c.p (x2 + c.p - x1) % c.p
      let x3 := (l * l + 2 * c.p - x1 - x2) % c.p
      some (x3, (l * (x1 + c.p - x3) + c.p - y1) % c.p)

/-- A multiple of a point, by the bits of the factor below 2^fuel. -/
def Curve.mul (c : Curve) : Nat → Nat → Option (Nat × Nat) → Option (Nat × Nat)
  | 0, _, _ => none
  | fuel + 1, k, q =>
    let h := c.mul fuel (k / 2) (c.add q q)
    if k % 2 = 1 then c.add q h else h

/-- A point on the curve. -/
def Curve.holds (c : Curve) (x y : Nat) : Bool :=
  decide (x < c.p ∧ y < c.p) && (y * y) % c.p == (x * x * x + (c.p - 3) * x + c.b) % c.p

/-- ECDSA verification on a curve: the public key X then Y, a digest no longer than the order, and the signature r then
s, each as long as a coordinate. -/
def Curve.verify (c : Curve) (key digest sig : List Byte) : Bool :=
  let k := c.size
  let qx := beAt key 0 k
  let qy := beAt key k k
  let r := beAt sig 0 k
  let s := beAt sig k k
  if !(c.holds qx qy) || r == 0 || s == 0 || decide (c.n ≤ r) || decide (c.n ≤ s) then false
  else
    let w := invMod c.n s
    let u1 := beNat digest * w % c.n
    let u2 := r * w % c.n
    match c.add (c.mul (8 * k) u1 (some c.g)) (c.mul (8 * k) u2 (some (qx, qy))) with
    | some (x, _) => x % c.n == r
    | none => false

/-- ECDSA P-256 verification (R33). -/
def ecdsaVerify (key digest sig : List Byte) : Bool := p256.verify key digest sig

/-- The nonce of RFC 6979: candidates until one lies below the order. -/
def rfc6979 : Nat → List Byte → List Byte → Nat
  | 0, _, v => beNat v % p256.n
  | fuel + 1, k, v =>
    let v := hmac k v
    let c := beNat v
    if 1 ≤ c ∧ c < p256.n then c
    else
      let k := hmac k (v ++ [0])
      rfc6979 fuel k (hmac k v)

/-- The nonce of a private key and a digest. -/
def signNonce (d : Nat) (digest : List Byte) : Nat :=
  let x := beBytes 32 d ++ beBytes 32 (beNat digest % p256.n)
  let v := List.replicate 32 (1#8)
  let k := hmac (List.replicate 32 0) (v ++ 0 :: x)
  let v := hmac k v
  let k := hmac k (v ++ 1 :: x)
  rfc6979 4 k (hmac k v)

/-- An ECDSA signature of a digest, r then s. -/
def ecdsaSign (d : Nat) (digest : List Byte) : List Byte :=
  let k := signNonce d digest
  let r := (match p256.mul 256 k (some p256.g) with | some (x, _) => x | none => 0) % p256.n
  let s := invMod p256.n k * (beNat digest + r * d) % p256.n
  beBytes 32 r ++ beBytes 32 s

/-- The public key of a private key, X then Y. -/
def publicKey (d : Nat) : List Byte :=
  match p256.mul 256 d (some p256.g) with
  | some (x, y) => beBytes 32 x ++ beBytes 32 y
  | none => List.replicate 64 0

end Sys2Proof.Machine
end

