-- ==== Sys2Proof/Machine/SrfOps.lean ====
section
/-! DEFINITION. The block formats and the block codec (R248 to R255), and the storage and records of surface handles
and their slots (R256 to R273). -/

namespace Sys2Proof.Machine

/-! ### Block formats -/

/-- Bits per pixel of a format (Table 10.1). -/
def fmtRate (fmt : Nat) : Nat :=
  match fmt with
  | 1 => 6 | 2 => 8 | 3 => 10 | 4 => 12 | 5 => 15 | 6 => 30 | 7 => 40
  | _ => 0

/-- Bytes of a block: 8 × b (R248). -/
def blockBytes (fmt : Nat) : Nat := 8 * fmtRate fmt

/-- A format whose blocks are raw (Table 10.1). -/
def fmtRaw (fmt : Nat) : Bool := decide (6 ≤ fmt)

/-- Bits of a Y residual, samples of a chroma channel and bits of a chroma residual (Table 10.1). -/
def fmtBits (fmt : Nat) : Nat × Nat × Nat :=
  match fmt with
  | 1 => (4, 16, 2) | 2 => (5, 16, 4) | 3 => (6, 16, 6) | 4 => (7, 16, 8)
  | _ => (8, 32, 6)

/-- The chroma sample of the grid cell that holds pixel `i` (R252, Table 10.1). -/
def chromaCell (fmt i : Nat) : Nat := if fmt = 5 then i / 2 else i / 16 * 4 + i % 8 / 2

/-- One bit of the CRC-16 of R254. -/
def crc16Step (c : BitVec 16) : BitVec 16 := if c.getLsbD 15 then (c <<< 1) ^^^ 0x1021 else c <<< 1

/-- One byte of the CRC-16 of R254, bit 7 first. -/
def crc16Byte (c : BitVec 16) (b : Byte) : BitVec 16 :=
  (List.range 8).foldl (fun c _ => crc16Step c) (c ^^^ (b.setWidth 16 <<< 8))

/-- R254: the check code of bytes. -/
def crc16 (l : List Byte) : BitVec 16 := l.foldl crc16Byte 0xFFFF

/-- A pixel of four 10-bit components R, G, B and A. -/
structure Pixel where
  r : Nat
  g : Nat
  b : Nat
  a : Nat
deriving DecidableEq, Repr

/-- Fields of `q` bits each, most significant first, out of the low `q × n` bits of a number. -/
def fieldsOf (q n x : Nat) : List Nat := (List.range n).map fun i => bits x (q * (n - 1 - i)) q

/-- Fields of `q` bits each packed most significant first. -/
def packFields (q : Nat) (l : List Nat) : Nat := l.foldl (fun a v => a * 2 ^ q + v % 2 ^ q) 0

/-- R252: a decoded pixel from its Y, Co and Cg. -/
def pixelOf (y co cg : Int) : Pixel :=
  let t := y - fdiv cg 2
  let g := cg + t
  let b := t - fdiv co 2
  let r := b + co
  ⟨(clampI 0 1023 r).toNat, (clampI 0 1023 g).toNat, (clampI 0 1023 b).toNat, 1023⟩

/-- R252: the 64 pixels of a compressed block. -/
def decodeCompressed (fmt : Nat) (l : List Byte) : List Pixel :=
  let x := beNat l
  let (qy, n, qc) := fmtBits fmt
  let total := 64 * fmtRate fmt
  let my : Int := bits x (total - 14) 10
  let mco := sgn 11 (bits x (total - 25) 11)
  let mcg := sgn 11 (bits x (total - 36) 11)
  let sy := bits x (total - 40) 4
  let sco := bits x (total - 44) 4
  let scg := bits x (total - 48) 4
  let ys := fieldsOf qy 64 (x / 2 ^ (16 + 2 * n * qc))
  let cos := fieldsOf qc n (x / 2 ^ (16 + n * qc))
  let cgs := fieldsOf qc n (x / 2 ^ 16)
  (List.range 64).map fun i =>
    let c := chromaCell fmt i
    pixelOf (clampI 0 1023 (my + (ys.getD i 0) * (2 ^ sy : Nat)))
      (clampI (-1023) 1023 (mco + (cos.getD c 0) * (2 ^ sco : Nat)))
      (clampI (-1023) 1023 (mcg + (cgs.getD c 0) * (2 ^ scg : Nat)))

/-- R253: the 64 pixels of a raw block. -/
def decodeRaw (fmt : Nat) (l : List Byte) : List Pixel :=
  let b := fmtRate fmt
  (fieldsOf b 64 (beNat l)).map fun x =>
    if fmt = 6 then ⟨bits x 20 10, bits x 10 10, bits x 0 10, 1023⟩
    else ⟨bits x 30 10, bits x 20 10, bits x 10 10, bits x 0 10⟩

/-- The 64 pixels of a block, in raster order. -/
def decodeBlock (fmt : Nat) (l : List Byte) : List Pixel :=
  if fmtRaw fmt then decodeRaw fmt l else decodeCompressed fmt l

/-- The smallest shift of R251 that brings a range within `q` bits. -/
def channelShift (q range : Nat) : Nat :=
  ((List.range 16).find? fun s => decide (range / 2 ^ s ≤ 2 ^ q - 1)).getD 15

/-- R251: minimum, shift and residuals of a channel. -/
def encodeChannel (q : Nat) (v : List Int) : Int × Nat × List Nat :=
  let m := v.foldl min (v.headD 0)
  let mx := v.foldl max (v.headD 0)
  let s := channelShift q (mx - m).toNat
  let h := if s = 0 then 0 else 2 ^ (s - 1)
  (m, s, v.map fun x => min (((x - m).toNat + h) / 2 ^ s) (2 ^ q - 1))

/-- R251: a chroma sample: the rounded mean of its grid cell. -/
def chromaSample (fmt c : Nat) (v : List Int) : Int :=
  let n := if fmt = 5 then 2 else 4
  let sum := (List.range 64).foldl (fun a i => if chromaCell fmt i = c then a + v.getD i 0 else a) 0
  fdiv (sum + (n / 2 : Nat)) n

/-- R250, R251: a compressed block of 64 pixels. -/
def encodeBlock (fmt : Nat) (px : List Pixel) : List Byte :=
  let (qy, n, qc) := fmtBits fmt
  let co := px.map fun p => (p.r : Int) - p.b
  let cg := (px.zip co).map fun e => (e.1.g : Int) - (e.1.b + fdiv e.2 2)
  let y := ((px.zip co).zip cg).map fun e => ((e.1.1.b : Int) + fdiv e.1.2 2) + fdiv e.2 2
  let (my, sy, ry) := encodeChannel qy y
  let (mo, so, ro) := encodeChannel qc ((List.range n).map fun c => chromaSample fmt c co)
  let (mg, sg, rg) := encodeChannel qc ((List.range n).map fun c => chromaSample fmt c cg)
  let head := packFields 4 [fmt] * 2 ^ 44 + unsgn 10 my * 2 ^ 34 + unsgn 11 mo * 2 ^ 23 + unsgn 11 mg * 2 ^ 12
    + sy * 256 + so * 16 + sg
  let x := ((head * 2 ^ (64 * qy) + packFields qy ry) * 2 ^ (n * qc) + packFields qc ro) * 2 ^ (n * qc) + packFields qc rg
  let body := beBytes (blockBytes fmt - 2) x
  body ++ beBytes 2 (crc16 body).toNat

/-- R254: a compressed block passes its check. -/
def compressedPasses (fmt : Nat) (l : List Byte) : Bool :=
  let k := blockBytes fmt
  decide (beAt l (k - 2) 2 = (crc16 (l.take (k - 2))).toNat) && decide ((l.headD 0).toNat / 16 = fmt)

/-! ### Handles and storage -/

/-- The handle of a number, if present. -/
def State.handle (s : State) (h : Nat) : Option Handle := s.srf.lookup h

/-- A table of handles in rising order with one put in. -/
def handlePut (h : Nat) (x : Handle) : List (Nat × Handle) → List (Nat × Handle)
  | [] => [(h, x)]
  | e :: l => if e.1 < h then e :: handlePut h x l else if e.1 = h then (h, x) :: l else (h, x) :: e :: l

/-- Blocks of the window (R256). -/
def Handle.blocks (x : Handle) : Nat := x.ww * x.wh

/-- Bytes of a slot before rounding: blocks, check array and presence map (R256). -/
def Handle.slotParts (x : Handle) : Nat :=
  x.blocks * blockBytes x.fmt + (if fmtRaw x.fmt then 2 * x.blocks else 0) + (x.blocks + 7) / 8

/-- The slot size Z in bytes (R256). -/
def Handle.slotSize (x : Handle) : Nat := (x.slotParts + 4095) / 4096 * 4096

/-- The address of slot `j`. -/
def Handle.slotAddr (x : Handle) (j : Nat) : Nat := x.base + j * x.slotSize

/-- The address of block `i` of the window in slot `j`. -/
def Handle.blockAddr (x : Handle) (j i : Nat) : Nat := x.slotAddr j + i * blockBytes x.fmt

/-- The address of the check code of block `i` of a raw handle. -/
def Handle.codeAddr (x : Handle) (j i : Nat) : Nat := x.slotAddr j + x.blocks * blockBytes x.fmt + 2 * i

/-- The address of the presence map of slot `j`. -/
def Handle.mapAddr (x : Handle) (j : Nat) : Nat := x.slotAddr j + x.slotParts - (x.blocks + 7) / 8

/-- R257: the window index of a block of the surface given by its raster index. -/
def Handle.windowIndex (x : Handle) (raster : Nat) : Option Nat :=
  let bx := raster % x.bw
  let by' := raster / x.bw
  if x.wx ≤ bx ∧ bx < x.wx + x.ww ∧ x.wy ≤ by' ∧ by' < x.wy + x.wh then some ((by' - x.wy) * x.ww + (bx - x.wx))
  else none

/-- The slot that holds a generation. -/
def Handle.find (x : Handle) (gen : Nat) : Option Nat :=
  x.slots.findIdx? fun e => decide (e.st ≠ 0) && decide (e.gen = gen)

/-- The slot that holds a generation of a record, with the period in which it was opened. -/
def Handle.findUsed (x : Handle) (u : Nat × Nat) : Option Nat :=
  x.slots.findIdx? fun e => decide (e.st ≠ 0 ∧ (e.gen, e.era) = u)

/-- R233: generation `g` is later than `old`: ahead by 1 to 32,767 modulo 65,536. -/
def genLater (g old : Nat) : Bool := let d := (g + 65536 - old % 65536) % 65536; decide (1 ≤ d ∧ d ≤ 32767)

/-- R260: generation `a` is later than `b`, each with the period in which it was opened. -/
def eraLater (a b : Nat × Nat) : Bool := decide (b.2 < a.2) || (decide (b.2 = a.2) && genLater a.1 b.1)

/-- R260: the generation of a slot is older than `u`. -/
def Slot.olderThan (e : Slot) (u : Nat × Nat) : Bool := eraLater u (e.gen, e.era)

/-- The newer, in the sense of R233 and R260, of a generation and one recorded. -/
def newestUsed (old : Option (Nat × Nat)) (g : Nat × Nat) : Option (Nat × Nat) :=
  match old with
  | some o => if eraLater g o then some g else some o
  | none => some g

/-- Block `i` of slot `j` is present. -/
def State.present (s : State) (x : Handle) (j i : Nat) : Bool := (s.byte (x.mapAddr j + i / 8)).getLsbD (i % 8)

/-- The presence bit of a block set (R263). -/
def State.setPresent (s : State) (x : Handle) (j i : Nat) : State :=
  let a := x.mapAddr j + i / 8
  s.store a [s.byte a ||| (1#8 <<< (i % 8))]

/-- The presence map of a slot cleared (R262). -/
def State.clearMap (s : State) (x : Handle) (j : Nat) : State :=
  s.store (x.mapAddr j) (List.replicate ((x.blocks + 7) / 8) 0)

/-- Blocks of a slot that are not present. -/
def State.missingBlocks (s : State) (x : Handle) (j : Nat) : Nat :=
  (List.range x.blocks).countP fun i => !(s.present x j i)

/-- The bytes of block `i` of slot `j` as they are stored, or none where they cannot be read (R273). -/
def State.blockData (s : State) (x : Handle) (j i : Nat) : Option (List Byte) :=
  s.loadData (x.blockAddr j i) (blockBytes x.fmt)

/-- R254: a stored block passes its check. -/
def State.blockPasses (s : State) (x : Handle) (j i : Nat) (l : List Byte) : Bool :=
  if fmtRaw x.fmt then
    match s.loadData (x.codeAddr j i) 2 with
    | some c => decide (leNat c = (crc16 l).toNat)
    | none => false
  else compressedPasses x.fmt l

/-- R263: a block is written with its code, and then its presence bit is set. -/
def State.putBlock (s : State) (x : Handle) (j i : Nat) (l : List Byte) : State :=
  let s := s.store (x.blockAddr j i) l
  let s := if fmtRaw x.fmt then s.store (x.codeAddr j i) (leBytes 2 (crc16 l).toNat) else s
  s.setPresent x j i

/-- R272: the slots counted in SRF.OCCPEND. -/
def State.slotPending (s : State) (e : Slot) : Bool :=
  if s.isTile then decide (e.st = 1 ∨ e.st = 3) else decide (1 ≤ e.st ∧ e.st ≤ 3)

/-- R272: SRF.OCCPEND and SRF.OCCPEAK after a change of slot states. -/
def State.occupancy (s : State) : State :=
  let n := s.srf.foldl (fun a e => a + (e.2.slots.countP s.slotPending) * (e.2.slotSize / 4096)) 0
  let s := s.set F.SRF_OCCPEND_PAGES (satN 24 n)
  s.set F.SRF_OCCPEAK_PAGES (max (s.get F.SRF_OCCPEAK_PAGES) (satN 24 n))

/-- A handle replaced, with the occupancy words following. -/
def State.setHandle (s : State) (h : Nat) (x : Handle) : State := { s with srf := handlePut h x s.srf }.occupancy

/-- A handle removed. -/
def State.dropHandle (s : State) (h : Nat) : State := { s with srf := s.srf.filter fun e => e.1 != h }.occupancy

/-- Slot `j` of a handle changed. -/
def Handle.modSlot (x : Handle) (j : Nat) (f : Slot → Slot) : Handle := { x with slots := modAt j f x.slots }

/-- A slot that is free. -/
def Slot.empty : Slot := ⟨0, 0, 0, false⟩

/-- A slot becomes FREE; one that leaves RELEASING counts in SRF.FREEDCNT (R270). -/
def State.freeSlot (s : State) (h : Nat) (x : Handle) (j : Nat) : State :=
  let was := (x.slots.getD j Slot.empty).st
  let s := s.setHandle h (x.modSlot j fun _ => Slot.empty)
  if was = 5 then (s.count F.SRF_FREEDCNT_COUNT 1).flag .SRF_EV 2 else s

/-- A launch entry that has started still has content of a generation to send (R268). -/
def State.launching (s : State) (h gen : Nat) : Bool :=
  s.tim.queues.toList.any fun q => q.any fun e => e.started && decide (e.kind ≠ 0 ∧ e.handle = h ∧ e.gen = gen)

/-- A token layer entry names a generation of a handle (Table 7.7). -/
def layerNames (w : BitVec 32) (h gen : Nat) : Bool :=
  w.getLsbD 31 && decide (bits w.toNat 16 12 = h) && decide (bits w.toNat 0 16 = gen)

/-- R267, R268: a generation held in a slot is in use. -/
def State.genInUse (s : State) (h : Nat) (x : Handle) (e : Slot) : Bool :=
  if s.isTile then
    x.used == some (e.gen, e.era) || s.lnk.tokens.any fun t => !t.finished && t.layers.any fun w => layerNames w h e.gen
  else s.launching h e.gen

/-- R267, R268: the release fence of a generation has passed: nothing uses it, and on a tile a composition that used a
newer one has finished. -/
def State.fencePassed (s : State) (h : Nat) (x : Handle) (e : Slot) : Bool :=
  !(s.genInUse h x e) && (!s.isTile || (match x.done with
    | some d => e.olderThan d
    | none => false))

/-- R267, R268, R270: the slots of a handle whose release fence has passed become FREE. -/
def State.passFence (s : State) (h : Nat) : State :=
  (List.range 8).foldl
    (fun s j => match s.handle h with
      | some x =>
        let e := x.slots.getD j Slot.empty
        if e.st = 5 ∧ s.fencePassed h x e then s.freeSlot h x j else s
      | none => s) s

/-- R271, tile: generations older than the newest used and not in use become FREE without FREE. -/
def State.reclaimTile (s : State) (h : Nat) : State :=
  (List.range 8).foldl
    (fun s j => match s.handle h with
      | some x =>
        let e := x.slots.getD j Slot.empty
        match x.reclaim, x.used with
        | true, some u =>
          if (e.st = 3 ∨ e.st = 4) ∧ e.olderThan u ∧ !(s.genInUse h x e) then
            let s' := s.freeSlot h x j
            if e.st = 3 then (s'.count F.SRF_DROPCNT_COUNT 1).flag .SRF_EV 3 else s'
          else s
        | _, _ => s
      | none => s) s

/-- Every handle's fences and reclaims looked at again, after a frame or a launch has ended. -/
def State.passFences (s : State) : State :=
  (s.srf.map (·.1)).foldl (fun s h => let s := s.passFence h; if s.isTile then s.reclaimTile h else s) s

/-- The oldest of the slots that satisfy `p`: the one that no other is older than. -/
def Handle.oldest (x : Handle) (p : Slot → Bool) : Option Nat :=
  let c := (List.range x.slots.length).filter fun j => p (x.slots.getD j Slot.empty)
  c.find? fun j =>
    let e := x.slots.getD j Slot.empty
    c.all fun k => k == j || !((x.slots.getD k Slot.empty).olderThan (e.gen, e.era))

/-- A slot for a new generation: a FREE one, or on a sender with RECLAIM the oldest COMPLETE one not in use (R262,
R271). -/
def State.slotFor (s : State) (h : Nat) (x : Handle) : Option Nat :=
  match x.slots.findIdx? fun e => decide (e.st = 0) with
  | some j => some j
  | none =>
    if !s.isTile && x.reclaim then x.oldest fun e => decide (e.st = 3) && !(s.launching h e.gen) else none

/-- R262: a composition of the handle has used a generation than which `g`, opened now, would not be later. -/
def Handle.stale (x : Handle) (g : Nat) : Bool :=
  match x.used with
  | some u => !(eraLater (g, x.era) u)
  | none => false

/-- The newer, in the sense of R233, of a generation and one recorded. -/
def newestGen (old : Option Nat) (g : Nat) : Option Nat :=
  match old with
  | some o => if genLater g o then some g else some o
  | none => some g

/-- A generation opened in a slot, with an empty presence map (R262). -/
def State.openSlot (s : State) (h : Nat) (x : Handle) (j gen : Nat) : State :=
  (s.clearMap x j).setHandle h
    { x with slots := modAt j (fun _ => ⟨1, gen, x.era, false⟩) x.slots, opened := newestGen x.opened gen }

/-- R260: the records that FORGET clears; generations held count as older than every later one. -/
def Handle.forget (x : Handle) : Handle := { x with opened := none, used := none, done := none, retracted := none, noslot := [], era := x.era + 1 }

/-- R266, R176: RETRACT of a pending generation; false if the handle holds no such generation or a token names it. -/
def State.retractGen (s : State) (h gen : Nat) (recorded : Bool) : Option State :=
  match s.handle h with
  | none => none
  | some x =>
    match x.find gen with
    | none => none
    | some j =>
      let e := x.slots.getD j Slot.empty
      if e.st = 1 ∨ e.st = 3 then
        some (s.freeSlot h (if recorded then { x with retracted := some gen } else x) j)
      else none

/-- R264: a generation that an accepted token names becomes NAMED. -/
def State.nameGen (s : State) (w : BitVec 32) : State :=
  if w.getLsbD 31 then
    let h := bits w.toNat 16 12
    match s.handle h with
    | some x => match x.find (bits w.toNat 0 16) with
      | some j => if (x.slots.getD j Slot.empty).st = 1 ∨ (x.slots.getD j Slot.empty).st = 3 then
          s.setHandle h (x.modSlot j fun e => { e with st := 4 }) else s
      | none => s
    | none => s
  else s

end Sys2Proof.Machine
end

