-- ==== Sys2Proof/Machine/NetOps.lean ====
section
/-! DEFINITION. What the part sends on its source ports and to its hosts: Ethernet, IPv4 and UDP framing (R220 to R222),
the addresses of a port (R221, R44), host channel messages (R39 to R41), and the latencies of time-stamps (R146). The
framing follows the network standards that chapter 9 names (PRESUMED, log entry 6). -/

namespace Sys2Proof.Machine

/-! ### Latencies (Table 6.5) -/

/-- Picoseconds in 1/65,536 ns, rounded down. -/
def psToWu (ps : Nat) : Nat := ps * 65536 / 1000

/-- The transmit latency of a chain or mirror port. -/
def State.portTxLat (s : State) (p : Nat) : Nat := psToWu (if s.on (F.LNK_PSTAT_FECON p) then 46080 else 35840)

/-- The receive latency of a lane: the stated value of its mode and LAN.RXALIGN unit intervals. -/
def rxLatency (ps ui align : Nat) : Nat := psToWu (ps + align * ui / 100)

/-- The receive latency of a chain or mirror port, whose first lane reports the alignment (R147). -/
def State.portRxLat (s : State) (p : Nat) : Nat :=
  rxLatency (if s.on (F.LNK_PSTAT_FECON p) then 163840 else 56320) 3879
    (s.get (F.LAN_RXALIGN_UI (if p = 8 then 32 else 8 + 3 * p)))

/-- The latencies of a source port: transmit, receive and unit interval in ps (Table 6.5). -/
def sourceLatency (mode : Nat) : Nat × Nat × Nat :=
  match mode with
  | 1 => (51200, 179200, 3879)
  | 3 => (64000, 96000, 9697)
  | _ => (35840, 56320, 3879)

/-- The mode of the quad of a source port (Table 9.1). -/
def State.sourceMode (s : State) (i : Nat) : Nat := s.get (F.ING_QCFG_MODE (i / 4))

/-- The instant at which a frame now received reached the balls of a source port. -/
def State.sourceRx (s : State) (i : Nat) : Nat :=
  let (_, rx, ui) := sourceLatency (s.sourceMode i)
  s.now - rxLatency rx ui (s.get (F.LAN_RXALIGN_UI i))

/-- The instant at which a frame now sent leaves the balls of a source port. -/
def State.sourceTx (s : State) (i : Nat) : Nat := s.now + psToWu (sourceLatency (s.sourceMode i)).1

/-! ### Ports and framing -/

/-- R218, Table 9.1: the port exists in its quad's mode. -/
def State.sourcePort (s : State) (i : Nat) : Bool :=
  match s.sourceMode i with
  | 0 => false
  | 1 => i % 4 == 0
  | _ => true

/-- R44: the boot ROM waits for an image on the host channel. -/
def State.bootNet (s : State) : Bool := s.on F.HST_STAT_BOOTWAIT && !s.isTile && s.get F.BOT_STAT_BOOTSEL == 3

/-- R44: the boot MAC address: 0x02 and bytes 11 to 15 of the device identity. -/
def State.bootMac (s : State) : BitVec 48 :=
  BitVec.ofNat 48 (0x02 * 2 ^ 40 + ((s.rd (.ASR_DEVID 2)).toNat % 256) * 2 ^ 32 + (s.rd (.ASR_DEVID 3)).toNat)

/-- R221, R44: the MAC address of a port. -/
def State.portMac (s : State) (i : Nat) : BitVec 48 :=
  if s.bootNet then s.bootMac
  else BitVec.ofNat 48 (s.get F.ING_MACHI_MAC * 2 ^ 32 + (s.rd .ING_MACLO).toNat + i)

/-- The port of the host channel is this one (R223); a shadow or deposed sender has none (R387), and neither has a lead
before the old lead's last record in a handover (R401). -/
def State.hostPort (s : State) (i : Nat) : Bool :=
  s.on F.HST_HCCFG_EN && s.get F.HST_HCCFG_PORT == i
    && !(s.on F.LNK_CFG_PAIR && (decide (2 ≤ s.get F.MIR_STAT_ROLE) || s.mir.hostLate))

/-- R221: the IPv4 address of a port; HST.IPADDR on the host channel's. -/
def State.portIp (s : State) (i : Nat) : BitVec 32 :=
  if s.on F.HST_HCCFG_EN && s.get F.HST_HCCFG_PORT == i then s.rd .HST_IPADDR else s.rd (.ING_PADDR i)

/-- R221: a port sends only while both its addresses are nonzero. -/
def State.maySend (s : State) (i : Nat) : Bool := s.portMac i != 0 && s.portIp i != 0

/-- The ones' complement sum of 16-bit words. -/
def sum16 (l : List Byte) : Nat :=
  let t := ((chunks 2 l.length l).map fun c => beNat (padTo 2 c)).foldl (· + ·) 0
  let t := t % 65536 + t / 65536
  let t := t % 65536 + t / 65536
  t % 65536 + t / 65536

/-- The Internet checksum of bytes. -/
def inetSum (l : List Byte) : Nat := 65535 - sum16 l

/-- An Ethernet frame with its FCS, padded to 64 bytes. -/
def etherFrame (dst src : BitVec 48) (type : Nat) (payload : List Byte) : List Byte :=
  let body := beBytes 6 dst.toNat ++ beBytes 6 src.toNat ++ beBytes 2 type ++ padTo (max 46 payload.length) payload
  body ++ leBytes 4 (crc32 body).toNat

/-- An IPv4 header of 20 bytes, or 24 with the router alert option that IGMP uses. -/
def ipPacket (proto ttl : Nat) (src dst : BitVec 32) (opts payload : List Byte) : List Byte :=
  let n := 20 + opts.length
  let h c := beBytes 2 (0x4000 + n / 4 * 256) ++ beBytes 2 (n + payload.length) ++ [0, 0, 0x40, 0]
    ++ [BitVec.ofNat 8 ttl, BitVec.ofNat 8 proto] ++ beBytes 2 c ++ beBytes 4 src.toNat ++ beBytes 4 dst.toNat ++ opts
  h (inetSum (h 0)) ++ payload

/-- A UDP datagram in an IPv4 packet, its checksum 0, which a receiver accepts (R222). -/
def udpPacket (src dst : BitVec 32) (sport dport : Nat) (payload : List Byte) : List Byte :=
  ipPacket 17 64 src dst []
    (beBytes 2 sport ++ beBytes 2 dport ++ beBytes 2 (8 + payload.length) ++ [0, 0] ++ payload)

/-- The Ethernet address of an IPv4 multicast group. -/
def groupMac (ip : BitVec 32) : BitVec 48 := BitVec.ofNat 48 (0x01005E000000 + ip.toNat % 2 ^ 23)

/-- A frame sent on a source port that exists. -/
def State.sendEther (s : State) (i : Nat) (l : List Byte) : State :=
  if s.sourcePort i && !s.isTile then s.emit (.ethernet i l) else s

/-- R221, R396: a gratuitous ARP for HST.IPADDR on the host channel's port. -/
def State.gratuitousArp (s : State) : State :=
  let i := s.get F.HST_HCCFG_PORT
  if s.hostPort i && s.maySend i then
    let mac := s.portMac i
    let ip := s.rd .HST_IPADDR
    s.sendEther i (etherFrame 0xFFFFFFFFFFFF mac 0x0806
      ([0, 1, 8, 0, 6, 4, 0, 1] ++ beBytes 6 mac.toNat ++ beBytes 4 ip.toNat ++ beBytes 6 0 ++ beBytes 4 ip.toNat))
  else s

/-- R401: the host channel moves to a new lead once the old lead's last record has come. -/
def State.hostMoves (s : State) : State :=
  if s.mir.hostLate then { s with mir := { s.mir with hostLate := false } }.gratuitousArp else s

/-! ### Host channel messages -/

/-- A host channel message of the part (Table 2.6). -/
def hostMessage (kind seq ack count : Nat) (body : List Byte) : List Byte :=
  let m := [0x56, 0x4C, 0x01, BitVec.ofNat 8 kind] ++ beBytes 4 seq ++ beBytes 4 ack ++ beBytes 2 count ++ [0, 0] ++ body
  m ++ beBytes 4 (crc32 m).toNat

/-- Message bytes sent to a peer (R39), by a port that may send (R221) or by the boot ROM (R44). -/
def State.sendToPeer (s : State) (q : Peer) (m : List Byte) : State :=
  let udp := if s.bootNet then 30720 else s.get F.HST_HCPORT_PORT
  if s.bootNet || s.maySend q.port then
    s.sendEther q.port (etherFrame q.mac q.ownMac 0x0800 (udpPacket q.ownIp q.ip udp q.udp.toNat m))
  else s

/-- Each transaction of a message is padded to a multiple of 4 bytes (Table 2.6). -/
def padTxn (l : List Byte) : List Byte := padTo ((l.length + 3) / 4 * 4) l

/-- A message of the part with its next own SEQ, and the state after that SEQ is used. -/
def State.newMessage (s : State) (kind count : Nat) (body : List Byte) : List Byte × State :=
  (hostMessage kind s.hst.ownSeq ((s.hst.expected.getD 1) - 1) count body,
    { s with hst := { s.hst with ownSeq := (s.hst.ownSeq + 1) % 2 ^ 32 } })

/-- R41: the response messages of a request are sent, and stored as those of one of the last 16 requests. -/
def State.sendResponse (s : State) (q : Peer) (seq : Nat) (ms : List (List Byte)) : State :=
  ms.foldl (fun s m => s.sendToPeer q m)
    { s with hst := { s.hst with stored := ((Who.channel q.ip q.udp, seq, ms) :: s.hst.stored).take 16 } }

/-- R39: padded responses packed in order into message bodies of at most 1,452 bytes, which with header and CRC are 1,472:
the body in hand with its count, and the responses still to pack. -/
def packBodies : Nat → List Byte → List (List Byte) → List (Nat × List Byte)
  | k, body, [] => [(k, body)]
  | k, body, r :: rs =>
    if k ≠ 0 ∧ 1452 < body.length + r.length then (k, body) :: packBodies 1 r rs else packBodies (k + 1) (body ++ r) rs

/-- R39, R41: the responses of a request as messages of the part, several where one cannot hold them (DESIGN CHOICE, log
entry 65). -/
def State.responseMessages (s : State) (responses : List (List Byte)) : List (List Byte) × State :=
  (packBodies 0 [] (responses.map padTxn)).foldl
    (fun (ms, s) (k, body) =>
      let (m, s) := s.newMessage 2 k body
      (ms ++ [m], s)) ([], s)

/-- A response that was held leaves (R386). -/
def State.sendHeld (s : State) (h : HeldResponse) : State :=
  match h.peer with
  | some q => s.sendResponse q h.seq h.bytes
  | none => h.bytes.foldl (fun s r => s.emit (.response h.who r)) s

/-- R386: every response held for the partner is sent, when the mirror link can carry no record. -/
def State.releaseAllHeld (s : State) : State :=
  if s.hst.held.isEmpty then s
  else
    let s' := s.hst.held.foldl State.sendHeld { s with hst := { s.hst with held := [] } }
    s'.set F.MIR_STAT_ALONE 1

/-- R386: the responses whose records the partner has acknowledged are sent. -/
def State.releaseHeld (s : State) (acked : Nat → Bool) : State :=
  let ready := fun (h : HeldResponse) => match h.frame with | some f => acked f | none => false
  (s.hst.held.filter ready).foldl State.sendHeld
    { s with hst := { s.hst with held := s.hst.held.filter fun h => !(ready h) } }

/-- Record number `id` has gone out in frame `seq` of the mirror port. -/
def State.markHeld (s : State) (id seq : Nat) : State :=
  { s with hst := { s.hst with
      held := s.hst.held.map fun h => if h.id = id then { h with frame := some seq } else h
      messages := s.hst.messages.map fun m =>
        if (m.record.map (·.1)) = some id then { m with record := some (id, some seq) } else m } }

end Sys2Proof.Machine
end

