-- ==== Sys2Proof/Machine/HstLease.lean ====
section
/-! DEFINITION. The lease (R28 to R35): who holds it, grants and ends, the challenge and the lockout, and the computed
words that a STATUS returns (R22, R31, R43). -/

namespace Sys2Proof.Machine

/-- Ticks of the 156.25 MHz clock in `n` milliseconds. -/
def msTicks (n : Nat) : Nat := n * 156250

/-- HST.STAT.CARRIER codes (Table 2.8). -/
def Who.carrierCode : Who → Nat
  | .qspi => 1
  | .channel .. => 2
  | .master => 3

/-- The IPv4 address and UDP port that identify a host (R28, Table 2.9); zero but on the host channel. -/
def Who.address : Who → Nat × Nat
  | .channel ip port => (ip.toNat, port.toNat)
  | _ => (0, 0)

/-- A lease is held. -/
def State.leased (s : State) : Bool := s.on F.HST_STAT_LEASED

/-- R28: the host holds the lease. -/
def State.isHolder (s : State) (w : Who) : Bool :=
  s.leased && s.get F.HST_STAT_CARRIER == Who.carrierCode w && (s.rd .HST_HOLDER).toNat == (Who.address w).1
    && s.get F.HST_HOLDPORT_PORT == (Who.address w).2

/-- The life-cycle state (Table 20.13): 0 BLANK, 1 MANUFACTURE, 2 FIELD, 3 SERVICE, 4 RETIRED. -/
def State.lifeCycle (s : State) : Nat := s.get F.BOT_LCS_STATE

/-- The part is in RETIRED (R559). -/
def State.retired (s : State) : Bool := s.lifeCycle == 4

/-- The expiry of R31 runs anew: 1,250 ms from now. -/
def State.restartExpiry (s : State) : State := { s with hst := { s.hst with expiry := s.tim.ticks + msTicks 1250 } }

/-- The nonce of a challenge is discarded (Table 2.4). -/
def State.dropNonce (s : State) : State := { s with hst := { s.hst with nonce := none } }.set F.HST_STAT_CHALLENGE 0

/-- R33: a grant: a new id, event 476, and the expiry runs. -/
def State.grantLease (s : State) (w : Who) : State :=
  let s := s.set F.HST_STAT_LEASED 1
  let s := s.set F.HST_STAT_CARRIER (Who.carrierCode w)
  let s := s.wr .HST_HOLDER (BitVec.ofNat 32 (Who.address w).1)
  let s := s.set F.HST_HOLDPORT_PORT (Who.address w).2
  let s := s.wrapUp F.HST_LEASE_ID
  s.restartExpiry.raise 476

/-- R31, R32: a lease ends, and event 477 becomes pending. -/
def State.endLease (s : State) : State :=
  if s.leased then
    let s := s.set F.HST_STAT_LEASED 0
    let s := s.set F.HST_STAT_CARRIER 0
    let s := s.wr .HST_HOLDER 0
    let s := s.set F.HST_HOLDPORT_PORT 0
    s.raise 477
  else s

/-- R28: the lease of a tile follows the identity of its master; a tile without a position receives none (R120). -/
def State.masterLease (s : State) (id : BitVec 128) : State :=
  if s.lnk.masterId = id ∧ s.leased then s
  else
    let s := { s.endLease with lnk := { s.lnk with masterId := id } }
    if s.on F.LNK_POS_VALID then s.grantLease .master else s

/-- HST.LEASE.REMAIN as it reads: milliseconds until expiry; 0 in tile role and with no lease (R28, Table 2.9). -/
def State.leaseRemain (s : State) : Nat :=
  if s.leased && s.get F.HST_STAT_CARRIER != 3 then (s.hst.expiry - s.tim.ticks + 156249) / 156250 else 0

/-- HST.STAT as it reads: ALERT follows ALERT_N (Table 2.8, R43). -/
def State.statWord (s : State) : Word := setBits (s.rd .HST_STAT) 6 1 (b2n s.alert)

/-- HST.LEASE as it reads. -/
def State.leaseWord (s : State) : Word := setBits (s.rd .HST_LEASE) 0 16 s.leaseRemain

/-- R29: a transaction is dropped and counted; the first drop since HST.DROPCNT was read makes event 478 pending. -/
def State.dropTxn (s : State) : State :=
  let first := s.get F.HST_DROPCNT_COUNT == 0
  let s := s.count F.HST_DROPCNT_COUNT 1
  if first then s.raise 478 else s

/-- R29: another host's transaction while a lease is held or a challenge is outstanding. -/
def State.dropsHost (s : State) (w : Who) : Bool :=
  (s.leased && !(s.isHolder w)) || (match s.hst.nonce with
    | some (c, _) => c != w
    | none => false)

/-- What a transaction of the LEASE type answers: status, response payload and the state after it. -/
abbrev LeaseAnswer := Nat × List Byte × State

/-- The id of the latest grant as a response carries it (Table 2.2). -/
def State.leaseId (s : State) : List Byte := beBytes 4 (s.get F.HST_LEASE_ID)

/-- R33, R34: CLAIM. -/
def State.claim (s : State) (w : Who) : LeaseAnswer :=
  if w = .master then (0, [], s)
  else if s.on F.HST_STAT_LOCKOUT then (7, [], s)
  else if s.lifeCycle ≤ 1 then
    let s := s.grantLease w
    (0, s.leaseId, s)
  else
    let (n, s) := s.drawBytes 32
    (0, n, ({ s with hst := { s.hst with nonce := some (w, n) } }).set F.HST_STAT_CHALLENGE 1)

/-- R33: the message that a challenge response signs, hashed. -/
def State.challengeDigest (s : State) (w : Who) (nonce : List Byte) : List Byte :=
  sha256 (nonce ++ beBytes 16 (((s.rd (.ASR_DEVID 0)) ++ (s.rd (.ASR_DEVID 1)) ++ (s.rd (.ASR_DEVID 2))
    ++ (s.rd (.ASR_DEVID 3)) : BitVec 128)).toNat ++ beBytes 2 (Who.address w).2 ++ beBytes 4 (Who.address w).1)

/-- The fused host key hash (ASR.HKHASH). -/
def State.hostKeyHash (s : State) : List Byte :=
  ((List.range 8).map fun k => beBytes 4 (s.rd (.ASR_HKHASH k)).toNat).flatten

/-- R34: a failed response counts; the fourth within 10 s locks claims out. One that fails while claims are locked out
counts in HST.AUTHFAIL and towards no further lockout (DEDUCED, log entry 66). -/
def State.failResponse (s : State) : State :=
  let s := s.count F.HST_AUTHFAIL_COUNT 1
  if s.on F.HST_STAT_LOCKOUT then s else
  let f := s.tim.ticks :: s.hst.failures.filter fun t => decide (s.tim.ticks < t + msTicks 10000)
  let s := { s with hst := { s.hst with failures := f } }
  if 4 ≤ f.length then (s.set F.HST_STAT_LOCKOUT 1).raise 479 else s

/-- R33, Table 2.4: RESPONSE: the key must have the fused hash and the signature must verify over the nonce. A lockout
refuses a CLAIM and not a RESPONSE (R34). With no challenge outstanding for its host a RESPONSE has failed like any other
(DESIGN CHOICE, log entry 66). -/
def State.leaseResponse (s : State) (w : Who) (payload : List Byte) : LeaseAnswer :=
  if w = .master then (0, [], s)
  else
    let key := payload.take 64
    let good := match s.hst.nonce with
      | some (c, n) => c == w && decide (sha256 key = s.hostKeyHash)
          && ecdsaVerify key (s.challengeDigest w n) (payload.drop 64)
      | none => false
    if good then
      let s := s.dropNonce.grantLease w
      (0, s.leaseId, s)
    else (7, [], s.failResponse)

/-- R31: RENEW from the holder. -/
def State.renew (s : State) (w : Who) : LeaseAnswer :=
  if !(s.isHolder w) then (2, [], s) else if w = .master then (0, [], s) else (0, [], s.restartExpiry)

/-- R31: RELEASE by the holder; the master's changes nothing (R28). -/
def State.release (s : State) (w : Who) : LeaseAnswer :=
  if !(s.isHolder w) then (2, [], s) else if w = .master then (0, [], s) else (0, [], s.endLease)

/-- R22: the payload of STATUS. -/
def State.statusPayload (s : State) : List Byte :=
  beBytes 4 s.statWord.toNat ++ beBytes 4 s.leaseWord.toNat ++ beBytes 4 (s.rd .HST_DROPCNT).toNat ++ [0, 0, 0, 0]


/-- CHALLENGE_TIMEOUT: 100 ms after the CLAIM without success (Table 2.4 step 5). -/
def execChallengeTimeout (s : State) : Host.Outcome State Fault Refusal := .next s.dropNonce

/-- LOCKOUT_END: 10 s after the lockout began (R34). -/
def execLockoutEnd (s : State) : Host.Outcome State Fault Refusal :=
  .next ({ s with hst := { s.hst with failures := [] } }.set F.HST_STAT_LOCKOUT 0)

/-- R31, R28: a write of 1 to HST.LEASECTL.REVOKE, ignored in tile role. -/
def State.revoke (s : State) : State := if s.isTile then s else s.endLease

/-- REVOKE (R31). -/
def execRevoke (s : State) : Host.Outcome State Fault Refusal := .next s.revoke

/-- ALERT_MESSAGE: while ALERT_N is low, an alert message goes to the lease holder on the host channel (R42). -/
def execAlertMessage (s : State) : Host.Outcome State Fault Refusal :=
  .next (match s.hst.holderPeer with
    | some q =>
      if s.alert && s.leased && s.get F.HST_STAT_CARRIER == 2 && s.hostPort q.port then
        let (m, s) := s.newMessage 4 0 []
        s.sendToPeer q m
      else s
    | none => s)

end Sys2Proof.Machine
end

