-- ==== Sys2Proof/Machine/ComposeProg.lean ====
section
/-! DEFINITION. Frame programs (R280 to R285): the compose instructions, what each does to the program being read, the
faults of Table 11.3, and the reading of a slot. -/

namespace Sys2Proof.Machine

/-- A compose instruction with its operands (Table 11.1). -/
inductive ComposeInstr where
  | layer (l : Nat)
  | placeTile (p : TilePlace)
  | placeLayer (dx dy : Int) (dw dh : Nat)
  | scale (x : Scale)
  | crop (cx cy cw ch : Nat)
  | blend (mode alpha : Nat) (usea : Bool)
  | prelut (en : Bool) (set : Nat)
  | postlut (en3d : Bool) (cube : Nat) (en1d : Bool) (set : Nat)
  | policy (pol : Nat)
  | fillBg (r g b : Nat)
  | fillLayer (r g b : Nat)
  | stand (mode l silent : Nat)
  | endf
deriving DecidableEq, Repr

/-- The words of an instruction (Table 11.1). -/
def ComposeInstr.words : ComposeInstr → Nat
  | .placeTile _ => 2
  | .placeLayer .. => 4
  | .scale _ => 4
  | .crop .. => 2
  | .fillBg .. => 3
  | .fillLayer .. => 2
  | _ => 1

/-- The fields that Table 11.1 and Table 11.3, code 2, allow. -/
def ComposeInstr.fieldsOk : ComposeInstr → Bool
  | .placeTile p => decide (p.w * p.h ≤ 262144)
  | .placeLayer dx dy _ _ => decide (-65536 ≤ dx ∧ dx ≤ 65535 ∧ -65536 ≤ dy ∧ dy ≤ 65535)
  | .scale x => decide (2048 ≤ x.sx ∧ x.sx ≤ 524288 ∧ 2048 ≤ x.sy ∧ x.sy ≤ 524288)
  | .policy p => decide (p ≤ 2)
  | .stand m _ n => decide (m ≤ 2 ∧ 1 ≤ n)
  | _ => true

/-- R285: the tile rectangle lies on the canvas. -/
def TilePlace.onCanvas (p : TilePlace) : Bool :=
  let (rw, rh) := if p.rot % 2 = 0 then (p.w, p.h) else (p.h, p.w)
  decide (p.x + rw ≤ 65536 ∧ p.y + rh ≤ 65536)

/-- A fault found at word `w`: the first one stays. -/
def FrameProg.fail (x : FrameProg) (code w : Nat) : FrameProg :=
  match x.fault with
  | some _ => x
  | none => { x with fault := some (code, w) }

/-- A layer part of which only its LAYER has been read. -/
def LayerPart.empty (l : Nat) : LayerPart := ⟨l, none, none, none, none, none, none, none⟩

/-- R281: the layer part in progress, if any, has its CROP and its PLACE. -/
def FrameProg.partComplete (x : FrameProg) : Bool :=
  match x.layers.getLast? with
  | some p => p.place.isSome && p.crop.isSome
  | none => x.tile.isSome

/-- The global part takes a value once, and only before the first LAYER (R281). -/
def FrameProg.inGlobal (x : FrameProg) (free : Bool) (f : FrameProg → FrameProg) : FrameProg :=
  if x.layers.isEmpty && free then f x else x.fail 3 x.pos

/-- The layer part in progress takes a value once (R281). -/
def FrameProg.inPart (x : FrameProg) (free : LayerPart → Bool) (f : LayerPart → LayerPart) : FrameProg :=
  match x.layers.getLast? with
  | some p => if free p then { x with layers := x.layers.dropLast ++ [f p] } else x.fail 3 x.pos
  | none => x.fail 3 x.pos

/-- R281: what one instruction does to the program being read; its fields have been checked. -/
def FrameProg.take (x : FrameProg) : ComposeInstr → FrameProg
  | .layer l =>
    if x.partComplete && !(x.layers.any fun p => p.num == l) then { x with layers := x.layers ++ [.empty l] }
    else x.fail 3 x.pos
  | .placeTile p =>
    x.inGlobal x.tile.isNone fun x => if p.onCanvas then { x with tile := some p } else x.fail 5 x.pos
  | .placeLayer dx dy dw dh => x.inPart (·.place.isNone) fun p => { p with place := some (dx, dy, dw, dh) }
  | .scale v => x.inPart (·.scale.isNone) fun p => { p with scale := some v }
  | .crop cx cy cw ch => x.inPart (·.crop.isNone) fun p => { p with crop := some (cx, cy, cw, ch) }
  | .blend m a u => x.inPart (·.blend.isNone) fun p => { p with blend := some (m, a, u) }
  | .prelut e n => x.inPart (·.prelut.isNone) fun p => { p with prelut := some (e, n) }
  | .postlut a c b n => x.inGlobal x.post.isNone fun x => { x with post := some (a, c, b, n) }
  | .policy n => x.inPart (·.policy.isNone) fun p => { p with policy := some n }
  | .fillBg r g b => x.inGlobal x.bg.isNone fun x => { x with bg := some (r, g, b) }
  | .fillLayer r g b => x.inPart (·.fill.isNone) fun p => { p with fill := some (r, g, b) }
  | .stand m l n => x.inGlobal x.stand.isNone fun x => { x with stand := some (m, l, n) }
  | .endf =>
    let standOk := match x.stand with
      | some (2, l, _) => x.layers.any fun p => p.num == l
      | _ => true
    if x.partComplete && standOk then { x with ended := true } else x.fail 3 x.pos

/-- R283: one instruction of a program being read, checked and taken; nothing follows a fault or ENDF. -/
def FrameProg.step (x : FrameProg) (i : ComposeInstr) : FrameProg :=
  if x.fault.isSome || x.ended then x
  else
    let y := if i.fieldsOk then x.take i else x.fail 2 x.pos
    if y.fault.isSome then y else { y with pos := x.pos + i.words }

/-- Signed value of the low 32 bits. -/
def sgn32 (w : Word) : Int := w.toInt

/-- An instruction of a slot decoded from its first word and the words after it; an ERRCODE of Table 11.3 where it is
none. -/
def ComposeInstr.decode (rd : Nat → Word) (pos : Nat) : Except Nat ComposeInstr :=
  let w := rd pos
  let f := getBits w
  let o (k lo n : Nat) : Nat := getBits (rd (pos + k)) lo n
  let keep (ok : Bool) (i : ComposeInstr) : Except Nat ComposeInstr := if ok then .ok i else .error 2
  match f 26 6 with
  | 0x30 => keep (f 0 22 == 0) (.layer (f 22 4))
  | 0x31 =>
    if w.getLsbD 25 then
      keep (f 0 7 == 0) (.placeTile ⟨f 23 2, w.getLsbD 22, 8 * (f 14 8 + 1), 8 * (f 7 7 + 1), o 1 0 16, o 1 16 16⟩)
    else
      keep (f 0 25 == 0) (.placeLayer (sgn32 (rd (pos + 1))) (sgn32 (rd (pos + 2))) (o 3 0 16 + 1) (o 3 16 16 + 1))
  | 0x32 =>
    keep (f 0 18 == 0 && o 1 20 12 == 0 && o 2 20 12 == 0)
      (.scale ⟨f 22 4, f 18 4, o 1 0 20, o 2 0 20, sgn 16 (o 3 0 16), sgn 16 (o 3 16 16)⟩)
  | 0x33 => keep (o 1 13 3 == 0 && o 1 29 3 == 0) (.crop (f 13 13) (f 0 13) (o 1 0 13 + 1) (o 1 16 13 + 1))
  | 0x34 => keep (f 0 13 == 0) (.blend (f 24 2) (f 14 10) (w.getLsbD 13))
  | 0x35 => keep (f 0 20 == 0) (.prelut (w.getLsbD 25) (f 20 5))
  | 0x36 => keep (f 0 21 == 0) (.postlut (w.getLsbD 25) (f 24 1) (w.getLsbD 23) (f 21 2))
  | 0x37 => keep (f 0 24 == 0) (.policy (f 24 2))
  | 0x38 =>
    if w.getLsbD 25 then keep (f 0 25 == 0 && o 2 16 16 == 0) (.fillBg (o 1 0 16) (o 1 16 16) (o 2 0 16))
    else keep (f 0 25 == 0 && o 1 30 2 == 0) (.fillLayer (o 1 20 10) (o 1 10 10) (o 1 0 10))
  | 0x39 => keep (f 0 12 == 0) (.stand (f 24 2) (f 20 4) (f 12 8))
  | 0x3A => keep (f 0 26 == 0) .endf
  | _ => .error 1

/-- R280, R283: a slot of 16,384 words read from word 0 up to ENDF or the first fault. -/
def readProgram (rd : Nat → Word) : Nat → FrameProg → FrameProg
  | 0, x => x.fail 4 x.pos
  | fuel + 1, x =>
    if x.fault.isSome || x.ended then x
    else if 16384 ≤ x.pos then x.fail 4 16383
    else match ComposeInstr.decode rd x.pos with
      | .error c => x.fail c x.pos
      | .ok i => if 16384 < x.pos + i.words then x.fail 4 x.pos else readProgram rd fuel (x.step i)

/-- Word `i` of frame program slot `slot` (Table 1.6); 0 past its end. -/
def State.frameWord (s : State) (slot i : Nat) : Word :=
  if i < 16384 then BitVec.ofNat 32 (leNat (s.bytes (0xE500000000 + slot * 0x10000 + 4 * i) 4)) else 0

/-- The program of a slot. -/
def State.readSlot (s : State) (slot : Nat) : FrameProg := readProgram (s.frameWord slot) 16385 FrameProg.empty

/-- The compositor's record changed. -/
def State.modCmp (s : State) (f : CmpState → CmpState) : State := { s with cmp := f s.cmp }

/-- CMP.STAT.STATE: 0 idle, 1 composing, 2 waiting, 3 halted. -/
def State.cmpState (s : State) : Nat := s.get F.CMP_STAT_STATE

/-- R283: the compositor halts. -/
def State.haltCompositor (s : State) (code word : Nat) : State :=
  let s := s.set F.CMP_STAT_STATE 3
  let s := s.set F.CMP_STAT_ERRCODE code
  let s := s.set F.CMP_STAT_ERRWORD word
  (s.set F.CMP_STAT_ERRSLOT (s.get F.CMP_STAT_SLOT % 2)).flagF ⟨.CMP_EV, 0, 1⟩

/-- R280 to R283: the compositor reads one instruction of the program in use; a program already ended or faulty is
followed by a new one. A fault halts the compositor. Nothing is read while no slot is in use or while it is halted. -/
def State.readInstr (s : State) (i : ComposeInstr) : State :=
  if !s.isTile || s.get F.CMP_STAT_SLOT == 2 || s.cmpState == 3 then s
  else
    let x := if s.cmp.prog.ended || s.cmp.prog.fault.isSome then FrameProg.empty else s.cmp.prog
    let y := x.step i
    let s := s.modCmp fun c => { c with prog := y }
    match y.fault with
    | some (c, w) => s.haltCompositor c w
    | none => if y.ended then s.modCmp fun c => { c with dims := y.tile.map fun t => (t.w, t.h) } else s

/-- LAYER (R281). -/
def execLayer (l : BitVec 4) (s : State) : Host.Outcome State Fault Refusal := .next (s.readInstr (.layer l.toNat))

/-- The instruction that PLACE's operands spell. -/
def placeInstr : PlaceForm → ComposeInstr
  | .tile rot mirror wb hb x y =>
    .placeTile ⟨rot.toNat, mirror, 8 * (wb.toNat + 1), 8 * (hb.toNat + 1), x.toNat, y.toNat⟩
  | .layer dx dy dw dh => .placeLayer dx.toInt dy.toInt (dw.toNat + 1) (dh.toNat + 1)

/-- PLACE (R285, R286). -/
def execPlace (place : PlaceForm) (s : State) : Host.Outcome State Fault Refusal := .next (s.readInstr (placeInstr place))

/-- SCALE (R286, R287). -/
def execScale (fh fv : BitVec 4) (sx sy : BitVec 20) (phx phy : BitVec 16) (s : State) :
    Host.Outcome State Fault Refusal :=
  .next (s.readInstr (.scale ⟨fh.toNat, fv.toNat, sx.toNat, sy.toNat, phx.toInt, phy.toInt⟩))

/-- CROP (R287). The operands CW and CH are one below the width and height. -/
def execCrop (cx cy cw ch : BitVec 13) (s : State) : Host.Outcome State Fault Refusal :=
  .next (s.readInstr (.crop cx.toNat cy.toNat (cw.toNat + 1) (ch.toNat + 1)))

/-- BLEND (R290). -/
def execBlend (mode : BitVec 2) (alpha : BitVec 10) (usea : Bool) (s : State) : Host.Outcome State Fault Refusal :=
  .next (s.readInstr (.blend mode.toNat alpha.toNat usea))

/-- PRELUT (R290). -/
def execPrelut (en : Bool) (set : BitVec 5) (s : State) : Host.Outcome State Fault Refusal :=
  .next (s.readInstr (.prelut en set.toNat))

/-- POSTLUT (R291, R292). -/
def execPostlut (en3d cube en1d : Bool) (set : BitVec 2) (s : State) : Host.Outcome State Fault Refusal :=
  .next (s.readInstr (.postlut en3d (b2n cube) en1d set.toNat))

/-- POLICY (R297). -/
def execPolicy (pol : BitVec 2) (s : State) : Host.Outcome State Fault Refusal := .next (s.readInstr (.policy pol.toNat))

/-- The instruction that FILL's operands spell. -/
def fillInstr : FillForm → ComposeInstr
  | .background r g b => .fillBg r.toNat g.toNat b.toNat
  | .layer r g b => .fillLayer r.toNat g.toNat b.toNat

/-- FILL (R287, R289). -/
def execFill (fill : FillForm) (s : State) : Host.Outcome State Fault Refusal := .next (s.readInstr (fillInstr fill))

/-- STAND (R300, R301). -/
def execStand (mode : BitVec 2) (l : BitVec 4) (silent : Byte) (s : State) : Host.Outcome State Fault Refusal :=
  .next (s.readInstr (.stand mode.toNat l.toNat silent.toNat))

/-- ENDF (R280). -/
def execEndf (s : State) : Host.Outcome State Fault Refusal := .next (s.readInstr .endf)

/-- R284: a write of 1 to CMP.CTL.RESTART ends a halt. -/
def State.restartCompositor (s : State) : State :=
  if s.isTile && s.cmpState == 3 then s.set F.CMP_STAT_STATE (if s.get F.CMP_STAT_SLOT = 2 then 0 else 2) else s

/-- COMPOSE_RESTART (R284). -/
def execComposeRestart (s : State) : Host.Outcome State Fault Refusal := .next s.restartCompositor

end Sys2Proof.Machine
end

