-- ==== Sys2Proof/Machine/ComposePix.lean ====
section
/-! DEFINITION. The pixels of a composed frame (R285 to R295): geometry, scaling, look-up tables and blending. -/

namespace Sys2Proof.Machine

/-! ### Geometry -/

/-- R285, Table 11.4: the canvas pixel of tile pixel (px, py). -/
def TilePlace.canvas (p : TilePlace) (px py : Nat) : Nat × Nat :=
  let m := if p.mirror then p.w - 1 - px else px
  match p.rot with
  | 0 => (p.x + m, p.y + py)
  | 1 => (p.x + p.h - 1 - py, p.y + m)
  | 2 => (p.x + p.w - 1 - m, p.y + p.h - 1 - py)
  | _ => (p.x + py, p.y + p.w - 1 - m)

/-- R282: the defaults of Table 11.2. -/
def LayerPart.placeV (l : LayerPart) : Int × Int × Nat × Nat := l.place.getD (0, 0, 1, 1)
def LayerPart.cropV (l : LayerPart) : Nat × Nat × Nat × Nat := l.crop.getD (0, 0, 1, 1)
def LayerPart.scaleV (l : LayerPart) : Scale := l.scale.getD ⟨0, 0, 65536, 65536, 0, 0⟩
def LayerPart.blendV (l : LayerPart) : Nat × Nat × Bool := l.blend.getD (0, 1023, false)
def LayerPart.fillV (l : LayerPart) : Nat × Nat × Nat := l.fill.getD (0, 0, 0)
def LayerPart.policyV (l : LayerPart) : Nat := l.policy.getD 0

/-- R286: the layer covers a canvas pixel. -/
def LayerPart.covers (l : LayerPart) (cx cy : Nat) : Bool :=
  let (dx, dy, dw, dh) := l.placeV
  decide (dx ≤ (cx : Int) ∧ (cx : Int) ≤ dx + dw - 1 ∧ dy ≤ (cy : Int) ∧ (cy : Int) ≤ dy + dh - 1)

/-- R286: source position in 2^−16 source pixels, as whole pixel and phase. -/
def sourcePos (c d : Int) (origin step : Nat) (ph : Int) : Int × Nat :=
  let u := (origin : Int) * 65536 + ph + (c - d) * step + (step / 2 : Nat) - 32768
  (fdiv u 65536, ((u % 65536) / 1024).toNat)

/-- The source positions of a canvas pixel in a layer. -/
def LayerPart.source (l : LayerPart) (cx cy : Nat) : (Int × Nat) × (Int × Nat) :=
  let (dx, dy, _, _) := l.placeV
  let (ox, oy, _, _) := l.cropV
  let k := l.scaleV
  (sourcePos cx dx ox k.sx k.phx, sourcePos cy dy oy k.sy k.phy)

/-- R287: a source coordinate clamped to the crop. -/
def clampCrop (o n : Nat) (x : Int) : Nat := (clampI o ((o : Int) + n - 1) x).toNat

/-- The source pixels of the 6 × 6 taps of a canvas pixel, clamped to the crop. -/
def LayerPart.taps (l : LayerPart) (cx cy : Nat) : List Nat × List Nat :=
  let ((iu, _), (iv, _)) := l.source cx cy
  let (ox, oy, ow, oh) := l.cropV
  ((List.range 6).map fun k : Nat => clampCrop ox ow (iu - 2 + (k : Int)), (List.range 6).map fun k : Nat => clampCrop oy oh (iv - 2 + (k : Int)))

/-! ### Source blocks -/

/-- A block that a composition has read: its raster index, what came of it and its 64 pixels (R273, R287). -/
inductive BlockRead where
  | outside
  | failed
  | pixels (l : List Pixel)

/-- A layer to be composed: its part, and the handle, slot and generation it is read from. -/
structure LayerUse where
  part : LayerPart
  handle : Nat
  slot : Nat
  gen : Nat
  data : Handle

/-- The blocks of the surface that the taps of a frame read for a layer, each once. -/
def LayerUse.blocks (u : LayerUse) (t : TilePlace) : List Nat :=
  (List.range t.h).foldl
    (fun acc py => (List.range t.w).foldl
      (fun acc px =>
        let (cx, cy) := t.canvas px py
        if u.part.covers cx cy then
          let (xs, ys) := u.part.taps cx cy
          xs.foldl (fun acc x => ys.foldl (fun acc y =>
            if x < 8 * u.data.bw ∧ y < 8 * u.data.bh then insertNat (y / 8 * u.data.bw + x / 8) acc else acc) acc) acc
        else acc) acc) []

/-- One block read for a layer (R273, R287), with the effects that the read has on the memory controller. -/
def State.readBlock (s : State) (u : LayerUse) (b : Nat) : BlockRead × State :=
  match u.data.windowIndex b with
  | none => (.outside, s)
  | some i =>
    let s' := s.readEffects (u.data.blockAddr u.slot i) (blockBytes u.data.fmt)
    match s.blockData u.data u.slot i with
    | some l =>
      if s.present u.data u.slot i && s.blockPasses u.data u.slot i l then (.pixels (decodeBlock u.data.fmt l), s')
      else (.failed, s')
    | none => (.failed, s')

/-- Every block that a frame reads for a layer. -/
def State.readBlocks (s : State) (u : LayerUse) (t : TilePlace) : List (Nat × BlockRead) × State :=
  (u.blocks t).foldl
    (fun (acc : List (Nat × BlockRead) × State) b =>
      let (r, s) := acc.2.readBlock u b
      (acc.1 ++ [(b, r)], s)) ([], s)

/-- R287: p(x, y), already clamped to the crop. -/
def LayerUse.pixel (u : LayerUse) (bl : List (Nat × BlockRead)) (x y : Nat) : Pixel :=
  let (r, g, b) := u.part.fillV
  let fill : Pixel := ⟨r, g, b, 1023⟩
  if 8 * u.data.bw ≤ x ∨ 8 * u.data.bh ≤ y then fill
  else match bl.lookup (y / 8 * u.data.bw + x / 8) with
    | some (.pixels l) => l.getD (y % 8 * 8 + x % 8) fill
    | _ => fill

/-! ### Filter and tables -/

/-- An unsigned 16-bit entry of LUT memory (R293). -/
def State.lut (s : State) (off : Nat) : Nat := leNat (s.bytes (0xE300000000 + off) 2)

/-- A coefficient of a filter table (R287, Table 11.6). -/
def State.coeff (s : State) (table phase k : Nat) : Int := sgn 16 (s.lut (0x48000 + 0x300 * table + 2 * (phase * 6 + k)))

/-- R287: one channel of the separable filter. -/
def State.filter (s : State) (l : LayerPart) (phu phv : Nat) (rows : List (List Nat)) : Nat :=
  let sum (table phase : Nat) (v : List Int) : Int := (v.zipIdx.map fun e => s.coeff table phase e.2 * e.1).foldl (· + ·) 0
  let t := rows.map fun r => fdiv (sum l.scaleV.fh phu (r.map fun x : Nat => (x : Int)) + 8) 16
  (clampI 0 1023 (fdiv (sum l.scaleV.fv phv t + 32768) 65536)).toNat

/-- R287: the scaled pixel of a layer at a canvas pixel. -/
def State.scaled (s : State) (u : LayerUse) (bl : List (Nat × BlockRead)) (cx cy : Nat) : Pixel :=
  let ((_, phu), (_, phv)) := u.part.source cx cy
  let (xs, ys) := u.part.taps cx cy
  let px := ys.map fun y => xs.map fun x => u.pixel bl x y
  let ch (f : Pixel → Nat) : Nat := s.filter u.part phu phv (px.map fun r => r.map f)
  let (_, _, usea) := u.part.blendV
  ⟨ch (·.r), ch (·.g), ch (·.b), if u.data.fmt = 7 ∧ usea then ch (·.a) else 1023⟩

/-- R290: the pre-blend value of colour `c`. -/
def State.preBlend (s : State) (l : LayerPart) (c v : Nat) : Nat :=
  match l.prelut with
  | some (true, n) => s.lut (0x1800 * n + 0x800 * c + 2 * v)
  | _ => (v * 65535 + 511) / 1023

/-- Table 11.5: one colour blended. -/
def blendColour (mode s a d : Nat) : Nat :=
  match mode with
  | 0 => (s * a + d * (1023 - a) + 511) / 1023
  | 1 => min 65535 (s + (d * (1023 - a) + 511) / 1023)
  | 2 => min 65535 (d + (s * a + 511) / 1023)
  | _ => (s * a + 511) / 1023

/-- R289, step 2: a layer blended into a pixel. -/
def State.blendLayer (s : State) (u : LayerUse) (bl : List (Nat × BlockRead)) (cx cy : Nat) (d : Nat × Nat × Nat) :
    Nat × Nat × Nat :=
  if u.part.covers cx cy then
    let p := s.scaled u bl cx cy
    let (mode, alpha, _) := u.part.blendV
    let a := (alpha * p.a + 511) / 1023
    let one (c v d : Nat) : Nat := blendColour mode (s.preBlend u.part c v) a d
    (one 0 p.r d.1, one 1 p.g d.2.1, one 2 p.b d.2.2)
  else d

/-- R291: tetrahedral interpolation of one component `c` in a cube. -/
def State.cubeColour (s : State) (cube c : Nat) (d : Nat × Nat × Nat) : Nat :=
  let (r, g, b) := d
  let (ir, ig, ib) := (r / 2048, g / 2048, b / 2048)
  let (fr, fg, fb) := (r % 2048, g % 2048, b % 2048)
  let node (i j k : Nat) : Int :=
    s.lut (0x50000 + 0x48000 * cube + 8 * ((ir + i) * 1089 + (ig + j) * 33 + (ib + k)) + 2 * c)
  let path (f1 f2 f3 : Nat) (n1 n2 : Int) : Int :=
    (n1 - node 0 0 0) * f1 + (n2 - n1) * f2 + (node 1 1 1 - n2) * f3
  let x := if fg ≤ fr ∧ fb ≤ fg then path fr fg fb (node 1 0 0) (node 1 1 0)
    else if fb ≤ fr ∧ fg ≤ fb then path fr fb fg (node 1 0 0) (node 1 0 1)
    else if fr ≤ fb ∧ fg ≤ fr then path fb fr fg (node 0 0 1) (node 1 0 1)
    else if fr ≤ fg ∧ fb ≤ fr then path fg fr fb (node 0 1 0) (node 1 1 0)
    else if fb ≤ fg ∧ fr ≤ fb then path fg fb fr (node 0 1 0) (node 0 1 1)
    else path fb fg fr (node 0 0 1) (node 0 1 1)
  (clampI 0 65535 (fdiv (node 0 0 0 * 2048 + x + 1024) 2048)).toNat

/-- R292: the post-blend LUT of colour `c`. -/
def State.postColour (s : State) (set c d : Nat) : Nat :=
  let e (i : Nat) : Nat := s.lut (0x30000 + 0x6000 * set + 0x2000 * c + 2 * min i 4095)
  let i := d / 16
  let f := d % 16
  (e i * (16 - f) + e (i + 1) * f + 8) / 16

/-- R289, steps 3 and 4. -/
def State.finishPixel (s : State) (p : FrameProg) (d : Nat × Nat × Nat) : Nat × Nat × Nat :=
  let (en3d, cube, en1d, set) := p.post.getD (false, 0, false, 0)
  let d := if en3d then (s.cubeColour cube 0 d, s.cubeColour cube 1 d, s.cubeColour cube 2 d) else d
  if en1d then (s.postColour set 0 d.1, s.postColour set 1 d.2.1, s.postColour set 2 d.2.2) else d

/-- R289: the composed pixels of a tile in raster order. -/
def State.composePixels (s : State) (p : FrameProg) (t : TilePlace) (us : List (LayerUse × List (Nat × BlockRead))) :
    List (Nat × Nat × Nat) :=
  ((List.range t.h).map fun py => (List.range t.w).map fun px =>
    let (cx, cy) := t.canvas px py
    s.finishPixel p (us.foldl (fun d u => s.blendLayer u.1 u.2 cx cy d) (p.bg.getD (0, 0, 0)))).flatten

/-- The failed blocks of a layer. -/
def failedBlocks (bl : List (Nat × BlockRead)) : Nat := bl.countP fun e => match e.2 with | .failed => true | _ => false

/-- The blocks of a layer outside its window. -/
def outsideBlocks (bl : List (Nat × BlockRead)) : List Nat :=
  (bl.filter fun e => match e.2 with | .outside => true | _ => false).map (·.1)

/-- R287: failed blocks of layer `l` counted. -/
def State.countFailed (s : State) (l : Nat) (bl : List (Nat × BlockRead)) : State :=
  let n := failedBlocks bl
  if n = 0 then s else (s.count (F.CMP_LCHK_COUNT l) n).flagF (F.CMP_LSTAT_EVCHK l)

/-- R287: the blocks of a frame outside their windows counted, each handle's block once. -/
def State.countOutside (s : State) (us : List (LayerUse × List (Nat × BlockRead))) : State :=
  let l := (us.map fun u => (outsideBlocks u.2).map fun b => (u.1.handle, b)).flatten.eraseDups
  if l.isEmpty then s else (s.count F.CMP_OUTWIN_COUNT l.length).flagF ⟨.CMP_EV, 4, 1⟩

end Sys2Proof.Machine
end

