-- ==== Sys2Proof/Machine/ScanOps.lean ====
section
/-! DEFINITION. The geometry of lamps, ports and lines (R332, R333), the groups of the scan engine, and the dark holds
(R353 to R355). -/

namespace Sys2Proof.Machine

/-- Group `g`; an index above 15 gives a group that is not there. -/
def State.group (s : State) (g : Nat) : Group := (s.scn.groups[g]?).getD Group.reset

/-- The scan engine's record changed. -/
def State.modScn (s : State) (f : ScnState → ScnState) : State := { s with scn := f s.scn }

/-- Group `g` changed. -/
def State.modGroup (s : State) (g : Nat) (f : Group → Group) : State :=
  s.modScn fun c => { c with groups := c.groups.setIfInBounds g (f (s.group g)) }

/-- SCN.GSTAT[g].STATE: 0 stopped, 1 running, 2 halted. -/
def State.groupState (s : State) (g : Nat) : Nat := s.get (F.SCN_GSTAT_STATE g)

/-- The group runs. -/
def State.running (s : State) (g : Nat) : Bool := s.groupState g == 1

/-- The lamp ports of group `g` that carry lamps. -/
def State.groupPorts (s : State) (g : Nat) : List Nat :=
  ((List.range 8).map (8 * g + ·)).filter fun p => lampPortUsed s p

/-- A group some of whose ports carry lamps (R346). -/
def State.groupUsed (s : State) (g : Nat) : Bool := !(s.groupPorts g).isEmpty

/-- Any group is running. -/
def State.anyRunning (s : State) : Bool := (List.range 16).any s.running

/-! ### Geometry -/

/-- The wiring of a tile (R332): its size, the port columns and rows, and the lines per scan. -/
structure Geometry where
  w : Nat
  h : Nat
  nx : Nat
  ny : Nat
  lines : Nat

/-- Pixel columns of a port. -/
def Geometry.w1 (x : Geometry) : Nat := x.w / x.nx

/-- Pixel rows of a port. -/
def Geometry.h1 (x : Geometry) : Nat := x.h / x.ny

/-- Channels per port and line. -/
def Geometry.cpl (x : Geometry) : Nat := 3 * x.w1 * x.h1 / x.lines

/-- The lamps of a port. -/
def Geometry.perPort (x : Geometry) : Nat := 3 * x.w1 * x.h1

/-- R333: the geometry is valid. -/
def Geometry.valid (x : Geometry) : Bool :=
  decide (x.nx * x.ny ≤ 128) && decide (0 < x.w ∧ 0 < x.h ∧ 0 < x.lines) && decide (x.w % x.nx = 0 ∧ x.h % x.ny = 0)
    && decide (x.h1 % x.lines = 0) && decide (x.cpl ≤ 384)

/-- R332: the plane-store entry of lamp `c` of pixel (px, py). -/
def Geometry.entry (x : Geometry) (px py c : Nat) : Nat :=
  let x1 := px % x.w1
  let y1 := py % x.h1
  let port := py / x.h1 * x.nx + px / x.w1
  let ch := 3 * (y1 / x.lines * x.w1 + x1) + c
  port * x.perPort + y1 % x.lines * x.cpl + ch

/-- R372: the lamp index of a channel on a line of a port. -/
def Geometry.lamp (x : Geometry) (p line ch : Nat) : Nat :=
  let m := ch / 3
  let px := p % x.nx * x.w1 + m % x.w1
  let py := p / x.nx * x.h1 + m / x.w1 * x.lines + line
  3 * (py * x.w + px) + ch % 3

/-- The geometry with the given size and lines. -/
def State.geometry (s : State) (w h lines : Nat) : Geometry :=
  ⟨w, h, 2 ^ s.get F.SCN_GEOM_PXL, 2 ^ s.get F.SCN_GEOM_PYL, lines⟩

/-- The geometry in force with the lines of group `g`. -/
def State.groupGeometry (s : State) (g : Nat) : Geometry :=
  let d := s.cmp.dims.getD (0, 0)
  s.geometry d.1 d.2 (s.group g).head.lines

/-- Where a lamp code stands (Table 13.1). -/
def codeAddr (half j : Nat) : Nat := 0xE200000000 + 0x240000 * half + 3 * j

/-- Where a residual stands (Table 13.1). -/
def residualAddr (j : Nat) : Nat := 0xE200480000 + 2 * j

/-- A lamp code of a half. -/
def State.codeAt (s : State) (half j : Nat) : Nat := leNat (s.bytes (codeAddr half j) 3) % 2 ^ 20

/-- The half in force (R348). -/
def State.half (s : State) : Nat := s.get F.SCN_STAT_HALF

/-! ### Dark holds -/

/-- R353: group `g` holds OE_N high. -/
def State.groupDark (s : State) (g : Nat) : Bool :=
  !(s.running g) || s.scn.noHalf || (s.group g).held || s.scn.switchHold || s.scn.darkHold || s.scn.tripHold
    || s.scn.midnight || (s.group g).sliceHold

/-- R355: no group whose ports carry lamps shows a half. -/
def State.allDark (s : State) : Bool := (List.range 16).all fun g => !(s.groupUsed g) || s.groupDark g

/-- SCN.STAT.DARK and TRIP follow the holds; EVDARK marks a change, and darkness is noted for the loop window and the
frame period (R324, R355, R518). -/
def State.updateDark (s : State) : State :=
  if !s.isTile then s
  else
    let d := s.allDark
    let was := s.on F.SCN_STAT_DARK
    let s := s.set F.SCN_STAT_TRIP (b2n (s.scn.tripHold || s.scn.midnight))
    let s := if d then
        { (s.modScn fun c => { c with period := c.period.map fun p => { p with dark := true } }) with
          cor := { s.cor with windowDark := true } }
      else s
    if d = was then s else (s.set F.SCN_STAT_DARK (b2n d)).flagF ⟨.SCN_EV, 2, 1⟩

/-- A hold that waits for a line end begins: groups between visits are held at once, the others at the end of their
line visit (R353). -/
def State.lineHold (s : State) : State :=
  ((List.range 16).foldl (fun s g => s.modGroup g fun x => if x.line.isNone then { x with held := true } else x) s).updateDark

/-- A line-end hold is in force. -/
def State.lineHolds (s : State) : Bool := s.scn.timeHold || s.scn.stepHold

/-- The line-end holds have ended. -/
def State.endLineHold (s : State) : State :=
  if s.lineHolds then s
  else ((List.range 16).foldl (fun s g => s.modGroup g fun x => { x with held := false }) s).updateDark

/-- R353: TIM.STAT.VALID has become 0. -/
def State.timeDark (s : State) : State :=
  if s.isTile then (s.modScn fun c => { c with timeHold := true }).lineHold else s

/-- R201: a step of a tile's time. -/
def State.stepDark (s : State) : State :=
  if s.isTile then (s.modScn fun c => { c with stepHold := true }).lineHold else s

/-- R354: the holds that start within 200 ns raise OE_N at the next edge of the 160 ps grid: an ON pulse that is not over
by then is cut short. The request is taken to come at the present tick (DEDUCED). -/
def State.cutPulses (s : State) : State :=
  (List.range 16).foldl
    (fun s g => match (s.group g).pulse with
      | some (_, last) =>
        let e := s.tim.ticks * 40 + 1
        let s := s.modGroup g fun x => { x with pulse := none }
        if e < last then s.emit (.cut g ((e : Int) - s.scn.edge)) else s
      | none => s) s

/-- A hold that starts within 200 ns has begun (R354). -/
def State.darkNow (s : State) : State := s.cutPulses.updateDark

/-- R353: a write of SCN.CTL.DARK; 1 holds within 200 ns, 0 ends the hold at the next refresh boundary. -/
def State.writeDark (s : State) (dark : Bool) : State :=
  let s := s.set F.SCN_CTL_DARK (b2n dark)
  if dark then (s.modScn fun c => { c with darkHold := true }).darkNow else s

/-- R353, R440, R466: the trip hold. -/
def State.tripDark (s : State) : State :=
  if s.isTile then (s.modScn fun c => { c with tripHold := true, releasing := false }).darkNow else s

/-- R353, R436: a trip condition persists. -/
def State.tripCondition (s : State) : Bool := s.on F.HKP_STAT_TRIP

/-- R353: a write of 1 to SCN.CTL.RELEASE: the trip hold ends at the next refresh boundary. -/
def State.releaseTrip (s : State) : State :=
  if s.tripCondition then s else s.modScn fun c => { c with releasing := c.tripHold }

/-- DARK_WRITE (R353). -/
def execDarkWrite (dark : Bool) (s : State) : Host.Outcome State Fault Refusal :=
  .next (if s.isTile then s.writeDark dark else s)

/-- TRIP_RELEASE (R353). -/
def execTripRelease (s : State) : Host.Outcome State Fault Refusal := .next (if s.isTile then s.releaseTrip else s)

/-! ### Fades -/

/-- SCN.FADESTAT after a change of the fades. -/
def State.showFade (s : State) : State :=
  let s := s.set F.SCN_FADESTAT_ACTIVE (b2n s.scn.fade.isSome)
  let s := s.set F.SCN_FADESTAT_ARMED (b2n s.scn.armedFade.isSome)
  s.set F.SCN_FADESTAT_REMAIN (match s.scn.fade with | some f => f.frames - f.k | none => 0)

/-- R356: a write of 1 to SCN.FADECTL.GO arms a fade; 0 frames act as 1. -/
def State.armFade (s : State) (target frames : Nat) (quadratic : Bool) : State :=
  (s.modScn fun c => { c with armedFade := some (target, max 1 frames, quadratic) }).showFade

/-- FADE_GO: TARGET, FRAMES and SHAPE come from the same write (R356). -/
def execFadeGo (target : BitVec 16) (frames : BitVec 12) (shape : Bool) (s : State) :
    Host.Outcome State Fault Refusal :=
  .next (if s.isTile then
      let s := s.set F.SCN_FADECTL_TARGET target.toNat
      let s := s.set F.SCN_FADECTL_FRAMES frames.toNat
      (s.set F.SCN_FADECTL_SHAPE (b2n shape)).armFade target.toNat frames.toNat shape
    else s)

/-- The gain of a fade at its compose start k (R356), truncated towards zero. -/
def Fade.gain (f : Fade) (k : Nat) : Nat :=
  let d : Int := (f.target : Int) - f.g0
  if f.quadratic then ((f.g0 : Int) + (d * k * k).tdiv (f.frames * f.frames)).toNat
  else ((f.g0 : Int) + (d * k).tdiv f.frames).toNat

/-- R356: the fades at a compose start: an armed fade starts when its commit id is taken into use or is 0, with the
compose start at which it starts counted as k = 1 (DEDUCED); the running fade advances, and ends at its target. -/
def State.stepFade (s : State) (took : Option (BitVec 32)) : State :=
  let id := s.rd .SCN_FADECID
  let s := match s.scn.armedFade with
    | some (t, n, q) =>
      if id = 0 ∨ took = some id then
        s.modScn fun c => { c with fade := some ⟨s.get F.SCN_FADESTAT_GAIN, t, n, 0, q⟩, armedFade := none }
      else s
    | none => s
  match s.scn.fade with
  | none => s.showFade
  | some f =>
    let k := f.k + 1
    let s := s.set F.SCN_FADESTAT_GAIN (f.gain k)
    if f.frames ≤ k then ((s.modScn fun c => { c with fade := none }).showFade).flagF ⟨.SCN_EV, 1, 1⟩
    else (s.modScn fun c => { c with fade := some { f with k := k } }).showFade

end Sys2Proof.Machine
end

