-- ==== Sys2Proof/Machine/TimeOps.lean ====
section
/-! DEFINITION. The timekeeper and its servo (R193 to R200), snapshots, captures, the grid of show instants (R211, R212),
pulses and the pending frame period (R213, R215, R216). Measurements arrive from TIME cells and from the PTP receiver. -/

namespace Sys2Proof.Machine

/-- R194: a rate held within ±500 ppm. -/
def clampRate (r : Int) : Int := clampI (-13743895) 13743895 r

/-- TIM.RATE as a signed number, acting within its limits (R194). -/
def State.rate (s : State) : Int := clampRate (s.rd .TIM_RATE).toInt

/-- The wall time in 2^-32 ns after `k` ticks (R193): 6 ns and the sub-nanosecond part on each, two units more on every
fifth, the rate, and the slew share while it runs. -/
def TimState.advance (t : TimState) (rate : Int) (k : Nat) : TimState :=
  let m := min k t.slewLeft
  { t with
    wall := ((t.wall : Int) + k * (6 * 4294967296 + 0x66666666) + 2 * ((t.phase + k) / 5 : Nat) + k * rate
      + m * t.slew).toNat
    phase := (t.phase + k) % 5
    ticks := t.ticks + k
    slewLeft := t.slewLeft - m }

/-- R198: LOCKED follows VALID, HOLD and the last 16 applied offsets; EVLOCK on a change. -/
def State.updateLock (s : State) : State :=
  let lim := s.get F.TIM_LOCKLIM_NS * 65536
  let l := s.on F.TIM_STAT_VALID && !(s.on F.TIM_STAT_HOLD) && decide (s.tim.offsets.length = 16)
    && s.tim.offsets.all (fun o => decide (o ≤ lim))
  if l = s.on F.TIM_STAT_LOCKED then s else (s.set F.TIM_STAT_LOCKED (b2n l)).flag .TIM_EV 1

/-- R198: HOLD changes; EVHOLD on a change. -/
def State.setHold (s : State) (h : Bool) : State :=
  if h = s.on F.TIM_STAT_HOLD then s
  else
    let s := { s with tim := { s.tim with holdSince := if h then s.tim.ticks else s.tim.holdSince } }
    ((s.set F.TIM_STAT_HOLD (b2n h)).flag .TIM_EV 4).updateLock

/-- R197: VALID changes; EVVALID on a change; the record of applied offsets is cleared when it falls (R198), and the
lamps of a tile go dark (R353). While the root PLL coasts VALID stays 0 (R453). -/
def State.setValid (s : State) (v : Bool) : State :=
  if v = s.on F.TIM_STAT_VALID || (v && s.on F.CLK_STAT_COAST) then s
  else
    let s := (s.set F.TIM_STAT_VALID (b2n v)).flag .TIM_EV 0
    if v then s.updateLock
    else (({ s with tim := { s.tim with offsets := [] } }.setHold false).updateLock).timeDark

/-- TIM.JUMPLIM in 1/65,536 ns, between 100 ns and 1 s (Table 8.8). -/
def State.jumpLimit (s : State) : Nat := clampN 100 1000000000 (s.get F.TIM_JUMPLIM_NS) * 65536

/-- R199: the held step shown in TIM.STEPS and TIM.STEPNS, both of the sign of the step. -/
def State.showHeld (s : State) (o : Int) : State :=
  let ns := o.tdiv 65536
  (s.wr .TIM_STEPS (BitVec.ofInt 32 (ns.tdiv 1000000000))).wr .TIM_STEPNS (BitVec.ofInt 32 (ns.tmod 1000000000))

/-- R196: one offset measurement `o` in 1/65,536 ns. -/
def State.measure (s : State) (o : Int) : State :=
  let t := s.tim
  if !(s.on F.TIM_STAT_VALID) then
    let s := { s with tim := { t with
      wall := ((t.wall : Int) + o * 65536).toNat, slew := 0, slewLeft := 0, first := true, lastMeasure := t.ticks } }
    (s.count F.TIM_TCCNT_COUNT 1).setValid true
  else if s.jumpLimit < o.natAbs then
    (({ s with tim := { t with held := o } }.set F.TIM_STAT_STEPPEND 1).showHeld o).flag .TIM_EV 2
  else
    let n := t.ticks - t.lastMeasure
    let ki := s.get F.TIM_CFG_KI
    let rate' := clampRate (s.rate + fdiv (fdiv (o * 65536) n) (2 ^ ki))
    let s := { s with tim := { t with
      slew := o * 64, slewLeft := 1024, first := false, lastMeasure := t.ticks
      offsets := (o.natAbs :: t.offsets).take 16 } }
    let s := if t.first then s else s.wr .TIM_RATE (BitVec.ofInt 32 rate')
    let s := s.set F.TIM_STAT_STEPPEND 0
    let s := s.set F.TIM_OFFSET_OFFSET (satI 32 o)
    ((s.count F.TIM_TCCNT_COUNT 1).setHold false).updateLock

/-- R200: the held step applied to the timekeeper. -/
def State.applyStep (s : State) : State :=
  let t := s.tim
  let s := { s with tim := { t with
    wall := ((t.wall : Int) + t.held * 65536).toNat, slew := 0, slewLeft := 0, first := false, offsets := [] } }
  ((s.set F.TIM_STAT_STEPPEND 0).flag .TIM_EV 3).updateLock

/-- R197, R199: a write of TIM.CFG.SRC, ignored in tile role, sets EVSRC; a new value clears VALID. -/
def State.writeSrc (s : State) (src : Nat) : State :=
  if s.isTile then s
  else (if src = s.get F.TIM_CFG_SRC then s else (s.set F.TIM_CFG_SRC src).setValid false).flag .TIM_EV 5

/-- R197: a write of 1 to TIM.CFG.FREE makes the free-running value valid with SRC = 0. -/
def State.freeRun (s : State) : State := if s.get F.TIM_CFG_SRC = 0 then s.setValid true else s

/-- TIM.SNAP (R529): the wall time copied into the snapshot words. -/
def State.snapshot (s : State) : State :=
  let t := s.now
  let s := s.wr .TIM_SNAPSH (BitVec.ofNat 32 (wuSec t / 2 ^ 32))
  let s := s.wr .TIM_SNAPSL (BitVec.ofNat 32 (wuSec t))
  let s := s.wr .TIM_SNAPNS (BitVec.ofNat 32 (wuNs t))
  let s := s.set F.TIM_SNAPFR_FRAC (wuFrac t)
  s.set F.TIM_SNAPFR_INVALID (b2n (!(s.on F.TIM_STAT_VALID)))

/-! ### The 160 ps grid of the local clock -/

/-- The wall time one tick from now, in 2^-32 ns. -/
def State.nextWall (s : State) : Nat := (s.tim.advance s.rate 1).wall

/-- The number, counted since reset, of edge `sub` of the present tick: 40 edges of 160 ps make a tick. -/
def State.edgeNo (s : State) (sub : Nat) : Nat := s.tim.ticks * 40 + sub

/-- The wall time of edge `sub` of the present tick, in 1/65,536 ns. -/
def State.edgeTime (s : State) (sub : Nat) : Nat := (s.tim.wall + sub * (s.nextWall - s.tim.wall) / 40) / 65536

/-- R211: the edge of the grid that is nearest to a wall time in 2^-32 ns that lies in the present tick. -/
def State.edgeAt (s : State) (w : Int) : Option Nat :=
  let span := s.nextWall - s.tim.wall
  if (s.tim.wall : Int) ≤ w ∧ w < s.nextWall then
    some (s.edgeNo (((w - s.tim.wall).toNat * 80 + span) / (2 * span)))
  else none

/-- A wall time in 1/65,536 ns lies in the present tick. -/
def State.reached (s : State) (t : Nat) : Bool := (s.edgeAt (t * 65536)).isSome

/-- R215: an edge on TS_INi at edge `sub` of the grid in the present tick: recorded, if it is at least 20 ns after the edge
before it, unless a capture is held. -/
def State.capture (s : State) (i : Nat) (rise : Bool) (sub : Nat) : State :=
  let e := s.get (F.TIM_CAPCFG_EDGE i)
  let at' := s.edgeNo sub
  let apart := match s.tim.edges.toList.getD i none with
    | some b => decide (b + 125 ≤ at')
    | none => true
  let s := { s with tim := { s.tim with edges := s.tim.edges.setIfInBounds i (some at') } }
  if !apart || !(e == 3 || (e == 1 && rise) || (e == 2 && !rise)) then s
  else if s.on (F.TIM_CAPFR_FULL i) then s.set (F.TIM_CAPFR_OVERRUN i) 1
  else
    let t := s.edgeTime sub
    let s := s.wr (.TIM_CAPSEC i) (BitVec.ofNat 32 (wuSec t))
    let s := s.set (F.TIM_CAPNS_NS i) (wuNs t)
    let s := s.set (F.TIM_CAPFR_FRAC i) (wuFrac t)
    let s := s.set (F.TIM_CAPFR_FULL i) 1
    let s := s.set (F.TIM_CAPFR_RISE i) (b2n rise)
    let s := s.set (F.TIM_CAPFR_INVALID i) (b2n (!(s.on F.TIM_STAT_VALID)))
    s.flag .TIM_EV (6 + i)

/-- R213: a write of TIM.FPERCID arms the pending frame period. -/
def State.armPeriod (s : State) (cid : Word) : State :=
  ({ s with tim := { s.tim with armedFper := some cid } }.wr .TIM_FPERCID cid).set F.TIM_STAT_FPERPEND 1

/-- R213: the pending frame period comes into force. -/
def State.takePeriod (s : State) : State :=
  let s' := (s.wr .TIM_FPER s.tim.pendFper).set F.TIM_FPERFR_FRAC s.tim.pendFperFr.toNat
  { s' with tim := { s'.tim with armedFper := none } }.set F.TIM_STAT_FPERPEND 0

/-- The frame period P in force, in 1/65,536 ns (R211). -/
def State.period (s : State) : Nat := (s.rd .TIM_FPER).toNat * 65536 + s.get F.TIM_FPERFR_FRAC

/-- R198: the ticks without a measurement after which HOLD begins: 1 s with SRC = 1, 4 × TIM.TCPER with SRC = 2 or 3;
TIM.TCPER below 16 µs acts as 16. With SRC = 0 there is no HOLD. -/
def State.holdTicks (s : State) : Option Nat :=
  match s.get F.TIM_CFG_SRC with
  | 0 => none
  | 1 => some 156250000
  | _ => some (max 16 (s.get F.TIM_TCPER_US) * 625)

/-- HOLD_ONSET (R198). -/
def execHoldOnset (s : State) : Host.Outcome State Fault Refusal :=
  .next (match s.holdTicks with
    | some n => if s.on F.TIM_STAT_VALID && decide (s.tim.lastMeasure + n ≤ s.tim.ticks) then s.setHold true else s
    | none => s)

/-- HOLD has lasted TIM.HOLDMAX seconds (R197). -/
def execHoldmaxExpiry (s : State) : Host.Outcome State Fault Refusal :=
  .next (let n := s.get F.TIM_HOLDMAX_SEC
    if s.on F.TIM_STAT_HOLD && decide (n ≠ 0 ∧ s.tim.holdSince + n * 156250000 ≤ s.tim.ticks) then s.setValid false else s)

/-- A write of TIM.CFG.SRC (R197, R199). -/
def execTimSrcWrite (src : BitVec 2) (s : State) : Host.Outcome State Fault Refusal := .next (s.writeSrc src.toNat)

/-- A write of 1 to TIM.CFG.FREE (R197). -/
def execTimFree (s : State) : Host.Outcome State Fault Refusal := .next s.freeRun

/-- A write to TIM.FPERCID (R213); in sender role the word is unpowered (R533). -/
def execFpercidWrite (value : Word) (s : State) : Host.Outcome State Fault Refusal :=
  .next (if s.isTile then s.armPeriod value else s)

/-- An edge on TS_INi (R215). -/
def execCaptureEdge (i : Fin 4) (edge : InputEdge) (s : State) : Host.Outcome State Fault Refusal :=
  .next (s.capture i edge.rise edge.sub)

/-! ### The grid of show instants and refresh boundaries -/

/-- N of the scan program in force (R211): a running group's, else that of a group that ran last (DEDUCED); 0 if there is
none. -/
def State.refreshes (s : State) : Nat :=
  match (List.range 16).find? s.running with
  | some g => (s.group g).head.n
  | none => (((List.range 16).map fun g => (s.group g).head.n).find? (· != 0)).getD 0

/-- R212: an accepted token, not yet shown, names an instant within ±2 µs of `t`. -/
def State.tokenNear (s : State) (t : Nat) : Bool :=
  s.lnk.tokens.any fun k => decide (t ≤ k.instant + 131072000 ∧ k.instant ≤ t + 131072000)

/-- R212, R353: T + P, by which the grid goes on; none after reset and after a time without VALID, which a token ends. -/
def State.gridNext (s : State) : Option Nat :=
  if s.scn.timeHold then none else s.scn.period.map fun p => p.instant + s.period

/-- R212: `t` is an instant of the grid: an accepted token names it, or it is T + P and no accepted token names one within
±2 µs of that. -/
def State.placed (s : State) (t : Nat) : Bool :=
  (s.lnk.tokens.any fun k => k.instant == t) || (s.gridNext == some t && !(s.tokenNear t))

/-- R211: refresh boundary `i` of a frame, in 1/65,536 ns. -/
def GridFrame.boundary (f : GridFrame) (i : Nat) : Nat := f.instant + i * f.period / f.n

/-- The boundaries of a frame; without a scan program it has the first alone. -/
def GridFrame.boundaries (f : GridFrame) : List Nat := (List.range (max 1 f.n)).map f.boundary

/-- The frames that are to follow: those of accepted tokens, and T + P where the grid goes on. -/
def State.comingFrames (s : State) : List GridFrame :=
  (s.lnk.tokens.map (·.instant) ++ (s.gridNext.filter fun t => !(s.tokenNear t)).toList).map fun t =>
    ⟨t, s.period, s.refreshes⟩

/-- The longest time by which a pulse can follow its reference instant, in 1/65,536 ns (TIM.PULOFF). -/
def pulseReach : Nat := 2 ^ 31 * 160 * 65536 / 1000

/-- A frame joins the grid; those whose pulses are past are forgotten. -/
def State.placeFrame (s : State) (t : Nat) : State :=
  { s with tim := { s.tim with
    placed := ⟨t, s.period, s.refreshes⟩ :: s.tim.placed.filter fun f => decide (t ≤ f.instant + f.period + pulseReach) } }

/-- R200, R212: the grid after a step of the time: the frame shown repeats on it, from the last T + k·P that has come in
stepped time (DEDUCED). -/
def State.rebaseGrid (s : State) : State :=
  match s.scn.period with
  | none => s
  | some p =>
    let f : GridFrame := ⟨((p.instant : Int) + fdiv ((s.now : Int) - p.instant) s.period * s.period).toNat, s.period, s.refreshes⟩
    if s.period = 0 then s
    else
      { s.modScn (fun c => { c with
          period := some { p with instant := f.instant }
          boundary := (f.boundaries.filter fun b => decide (b ≤ s.now)).length }) with
        tim := { s.tim with placed := [f] } }

/-! ### Pulse outputs -/

/-- R216: the interval between the reference instants of TS_OUTi in 1/65,536 ns; none where its mode has none in this
role. -/
def State.pulseInterval (s : State) (i : Nat) : Option Nat :=
  match s.get (F.TIM_PULCFG_MODE i) with
  | 1 => some (1000000000 * 65536)
  | 2 => if s.isTile then some s.period else none
  | 3 => if s.isTile ∧ s.refreshes ≠ 0 then some (s.period / s.refreshes) else none
  | _ => none

/-- R216: TS_OUTi may become active; a pulse of no width is none (DEDUCED). -/
def State.pulseAllowed (s : State) (i : Nat) : Bool :=
  let w := s.get (F.TIM_PULWID_WIDTH i)
  s.on F.TIM_STAT_VALID && decide (w ≠ 0) && match s.pulseInterval i with
    | some t => decide (w * 160 * 65536 < t * 1000)
    | none => false

/-- TIM.PULOFF[i] in 2^-32 ns. -/
def State.pulseOffset (s : State) (i : Nat) : Int := fdiv (sgn 32 (s.get (F.TIM_PULOFF_OFFSET i)) * 160 * 2 ^ 32) 1000

/-- R216: the reference instants of TS_OUTi from which a pulse can fall into the present tick, in 1/65,536 ns. Show
instants and boundaries still to come are those of the frames known to follow (DESIGN CHOICE, log entry 75). -/
def State.pulseRefs (s : State) (i : Nat) : List Nat :=
  let second : Nat := 1000000000 * 2 ^ 32
  let frames := s.tim.placed ++ s.comingFrames
  match s.get (F.TIM_PULCFG_MODE i) with
  | 1 => [(fdiv ((s.nextWall : Int) - 1 - s.pulseOffset i) second).toNat * 1000000000 * 65536]
  | 2 => frames.map (·.instant)
  | 3 => (frames.map fun f => f.boundaries.filter fun b =>
      !(frames.any fun x => decide (f.instant < x.instant ∧ x.instant ≤ b))).flatten
  | _ => []

/-- R216: the edge of the present tick at which TS_OUTi becomes active. -/
def State.pulseStart (s : State) (i : Nat) : Option Nat :=
  (s.pulseRefs i).findSome? fun (t : Nat) =>
    (s.edgeAt (t * 65536 + s.pulseOffset i)).filter fun e => decide (((s.tim.pulses[i]?).map (·.next)).getD 0 ≤ e)

/-- The level of TS_OUTi: active is high, or low with POL = 1 (R216). -/
def State.tsOut (s : State) (i : Nat) : Bool :=
  (((s.tim.pulses[i]?).map (·.ends.isSome)).getD false) != s.on (F.TIM_PULCFG_POL i)

/-- PULSE_EDGE: TS_OUTi becomes active at a reference instant plus its offset, or returns after its width; a pulse that is
active completes its width (R200, R216). -/
def execPulseEdge (i : Fin 4) (s : State) : Host.Outcome State Fault Refusal :=
  let put (p : Pulse) : State := { s with tim := { s.tim with pulses := s.tim.pulses.set i p } }
  .next (match s.tim.pulses[i].ends with
    | some e => if e < s.edgeNo 40 then put ⟨none, s.tim.pulses[i].next⟩ else s
    | none => match s.pulseStart i with
      | some e => if s.pulseAllowed i then put ⟨some (e + s.get (F.TIM_PULWID_WIDTH i)), e + 1⟩ else s
      | none => s)

/-- A write of 1 to TIM.SNAP.TAKE. -/
def execSnap (s : State) : Host.Outcome State Fault Refusal := .next s.snapshot

end Sys2Proof.Machine
end

