-- ==== Sys2Proof/Machine/Correct.lean ====
section
/-! DEFINITION. Lamp correction: contexts and tables (R307, R308), the values latched per frame (R311, R312, R316), the
arithmetic of R313, R314, R317, R318, R320 and R321, the correction of a frame, and the colour loop (R324 to R326). -/

namespace Sys2Proof.Machine

/-- The correction engine's record changed. -/
def State.modCor (s : State) (f : CorState → CorState) : State := { s with cor := f s.cor }

/-- A gain limited to 17 bits (R313). -/
def gain17 (x : Nat) : Nat := min 131071 x

/-- The product of two gains in 2^−15 (R313). -/
def mulGain (a b : Nat) : Nat := gain17 ((a * b + 16384) / 32768)

/-! ### Arming and latching -/

/-- R309: a write of COR.ARMCID. -/
def State.armContext (s : State) (cid : Word) : State :=
  ((s.modCor fun c => { c with armed := some cid }).wr .COR_ARMCID cid).set F.COR_STAT_ARMPEND 1

/-- COR_ARMCID_WRITE (R309). -/
def execCorArmcidWrite (value : Word) (s : State) : Host.Outcome State Fault Refusal :=
  .next (if s.isTile then s.armContext value else s)

/-- R309: the pending context base and bank at a compose start. -/
def State.takeContext (s : State) (took : Option (BitVec 32)) : State :=
  match s.cor.armed with
  | none => s
  | some id =>
    if id = 0 ∨ took = some id then
      ((s.modCor fun c => { c with armed := none }).wr .COR_CTXBASE s.cor.pendCtx).set F.COR_STAT_ARMPEND 0
    else s

/-- Zones across and down: 0 acts as 1, above 4 as 4. -/
def zoneCount (n : Nat) : Nat := clampN 1 4 n

/-- R316: the temperature of the thermistor of zone `z`, if valid. -/
def State.zoneTemp (s : State) (z : Nat) : Option Int :=
  let ch := getBits (s.rd (.COR_ZMAP (z / 8))) (4 * (z % 8)) 4
  if s.get (F.HKP_CH_KIND ch) = 2 ∧ s.on (F.HKP_VAL_VALID ch) then some (sgn 16 (s.get (F.HKP_VAL_TEMP ch))) else none

/-- R316: the zone temperatures latched, with substitutes. -/
def State.latchZones (s : State) : State :=
  let grid := (zoneCount (s.get F.COR_ZCFG_ZX), zoneCount (s.get F.COR_ZCFG_ZY))
  let n := grid.1 * grid.2
  let t := (List.range n).map s.zoneTemp
  let valid := t.filterMap id
  let sub : Int := if valid.isEmpty then sgn 16 (s.get F.COR_ZDEF_TEMP) else fdiv (valid.foldl (· + ·) 0) valid.length
  let any := t.any (·.isNone)
  let s := (List.range 16).foldl
    (fun s z =>
      let s := s.set (F.COR_ZTEMP_TEMP z) (if z < n then unsgn 16 (((t.getD z none)).getD sub) else 0)
      s.set (F.COR_ZTEMP_SUBST z) (b2n (decide (z < n) && (t.getD z none).isNone))) s
  let s := s.modCor fun c => { c with zones := t.map fun x => x.getD sub, grid := grid }
  let s := s.set F.COR_STAT_ZSUBST (b2n any)
  if any then s.flagF ⟨.COR_EV, 2, 1⟩ else s

/-- R312: the values latched at a compose start. -/
def State.latchFrame (s : State) (took : Option (BitVec 32)) : State :=
  let s := s.takeContext took
  let s := s.set F.COR_DERATE_GAIN (s.get F.HKP_DERATE_GAIN)
  let s := s.set F.COR_FADE_GAIN (s.get F.SCN_FADESTAT_GAIN)
  let gc := (List.range 3).map fun c =>
    mulGain (mulGain (s.get (F.COR_MGAIN_GAIN c)) (s.get F.COR_DERATE_GAIN)) (s.get F.COR_FADE_GAIN)
  let lp := (List.range 3).map fun c => s.get (F.COR_LOOP_GAIN c)
  (s.modCor fun c => { c with gains := gc, loops := lp, ctxBase := s.rd .COR_CTXBASE }).latchZones

/-! ### Tables -/

/-- An entry of a correction table bank (R308). -/
def State.corTable (s : State) (off : Nat) : Nat :=
  leNat (s.bytes (0xE3000E0000 + 0x10000 * getBits s.cor.ctxBase 28 1 + off) 2)

/-- R320: the aging gain at a dose. -/
def State.agingGain (s : State) (c curve d : Nat) : Nat :=
  let e (i : Nat) : Nat := s.corTable (0x400 * c + 0x80 * curve + 2 * min i 63)
  let i := d / 2 ^ 26
  let f := d / 2 ^ 10 % 65536
  (e i * (65536 - f) + e (i + 1) * f + 32768) / 65536

/-- R318: the temperature gain at t, in 1/16 °C. -/
def State.tempGain (s : State) (c cls : Nat) (t : Int) : Nat :=
  let e (i : Nat) : Nat := s.corTable (0x1000 + 0x400 * c + 0x40 * cls + 2 * min i 31)
  let q := (clampI 0 1984 (t + 320)).toNat
  let i := q / 64
  let f := q % 64
  (e i * (64 - f) + e (i + 1) * f + 32) / 64

/-- R306, R317: the temperature of a pixel, from the zones latched. -/
def State.pixelTemp (s : State) (px py w h : Nat) : Int :=
  let (zx, zy) := s.cor.grid
  let pos (p z n : Nat) : Nat := (clampI 0 ((z - 1) * 256 : Nat) (((2 * p + 1) * z * 128 / n : Nat) - 128)).toNat
  let fx := pos px zx w
  let fy := pos py zy h
  let i := fx / 256
  let a : Int := (fx % 256 : Nat)
  let i1 := min (i + 1) (zx - 1)
  let j := fy / 256
  let b : Int := (fy % 256 : Nat)
  let j1 := min (j + 1) (zy - 1)
  let z (j i : Nat) : Int := s.cor.zones.getD (j * zx + i) 0
  let top := fdiv (z j i * (256 - a) + z j i1 * a + 128) 256
  let bot := fdiv (z j1 i * (256 - a) + z j1 i1 * a + 128) 256
  fdiv (top * (256 - b) + bot * b + 128) 256

/-! ### Contexts -/

/-- A correction context (Table 12.1). -/
structure Context where
  matrix : List Int
  tclass : List Nat
  curve : List Nat
  dead : List Bool
  witness : Bool
  sensor : Nat

/-- A context read from its 32 bytes. -/
def Context.ofBytes (l : List Byte) : Context where
  matrix := (List.range 9).map fun i => sgn 16 (leAt l (2 * i) 2)
  tclass := (List.range 3).map fun c => leAt l (18 + 2 * c) 2 % 16
  curve := (List.range 3).map fun c => leAt l (18 + 2 * c) 2 / 16 % 8
  dead := (List.range 3).map fun c => bit (leAt l (18 + 2 * c) 2) 7
  witness := bit (leAt l 24 4) 0
  sensor := leAt l 24 4 / 2 % 8

/-- R327: the unity context. -/
def Context.unity : Context :=
  ⟨[16384, 0, 0, 0, 16384, 0, 0, 0, 16384], [0, 0, 0], [0, 0, 0], [false, false, false], false, 0⟩

/-- R307, R327: the context of pixel `k`. An address outside DRAM gives no data, as uncorrectable data does (DEDUCED). -/
def State.context (s : State) (k : Nat) : Context × State :=
  let a := getBits s.cor.ctxBase 0 28 * 4096 + 32 * k
  let s' := s.readEffects a 32
  match if inDram a then s.loadData a 32 else none with
  | some l => (Context.ofBytes l, s')
  | none => (.unity, (s'.count F.COR_CTXERR_COUNT 1).flagF ⟨.COR_EV, 0, 1⟩)

/-- The address of a ledger word (R319). -/
def State.ledgerAddr (s : State) (n : Nat) : Nat := s.get F.COR_LEDBASE_ADDR * 4096 + 4 * n

/-- R319, R320, R328: the dose of lamp `n` as its gain uses it; none where its ledger word is not read or is
uncorrectable, which is counted. -/
def State.dose (s : State) (n : Nat) (dead : Bool) : Option Nat × State :=
  if !(s.on F.COR_CFG_LEDEN) || dead then (none, s)
  else
    let a := s.ledgerAddr n
    let s' := s.readEffects a 4
    match if inDram a then s.loadData a 4 else none with
    | some l => (some (leNat l), s')
    | none => (none, (s'.count F.COR_LEDERR_COUNT 1).flagF ⟨.COR_EV, 1, 1⟩)

/-! ### From pixel to lamp code -/

/-- R313: the value of lamp `c` before its limit. -/
def State.lampValue (s : State) (x : Context) (c : Nat) (rgb : Nat × Nat × Nat) (d : Option Nat) (t : Int) : Nat :=
  if x.dead.getD c false then 0
  else
    let m (i : Nat) : Int := x.matrix.getD (3 * c + i) 0
    let v := (clampI 0 2097151 (fdiv (m 0 * rgb.1 + m 1 * rgb.2.1 + m 2 * rgb.2.2 + 512) 1024)).toNat
    let ga := match d with
      | some d => s.agingGain c (x.curve.getD c 0) d
      | none => s.corTable (0x400 * c + 0x80 * x.curve.getD c 0)
    let g1 := mulGain ga (s.tempGain c (x.tclass.getD c 0) t)
    let g2 := mulGain g1 (s.cor.loops.getD c 0)
    let g3 := mulGain g2 (s.cor.gains.getD c 0)
    (v * g3 + 16384) / 32768

/-- R314: the lamp codes of a pixel, and whether one was limited. -/
def limitCodes (scale : Bool) (cmax v : List Nat) : List Nat × Bool :=
  let pairs := v.zip cmax
  let above := pairs.filter fun e => decide (e.2 < e.1)
  if above.isEmpty then (v, false)
  else if scale then
    let f := above.foldl (fun m e => min m (e.2 * 65536 / e.1)) 65536
    (pairs.map fun e => min e.2 (e.1 * f / 65536), true)
  else (pairs.map fun e => min e.1 e.2, true)

/-- R321: the increment of a lamp's dose. -/
def doseIncrement (ledseq n code e acc : Nat) : Nat :=
  let kk := ledseq * 786432 + n
  let dd := kk * 0x9E3779B97F4A7C15 % 2 ^ 64 / 4096
  (code * e * acc + dd) / 2 ^ 52

/-- R321: the acceleration of a temperature band, in 1/16. -/
def State.acceleration (s : State) (t : Int) : Nat :=
  let band := (clampI 0 15 (fdiv (t - 320) 80)).toNat
  getBits (s.rd (.COR_ACC (band / 4))) (8 * (band % 4)) 8

/-- What the correction of a frame gathers: the sums of witness codes by sensor and colour, and the dead lamps. -/
structure Gathered where
  sums : List Nat
  dead : Nat

/-- R313 to R322: one pixel of a frame corrected; `sample` is E in ns in a sample frame. -/
def State.correctPixel (s : State) (f : FrameRun) (geo : Geometry) (half : Nat) (write : Bool) (sample : Option Nat)
    (k : Nat) (rgb : Nat × Nat × Nat) (acc : Gathered) : State × Gathered :=
  let px := k % f.w
  let py := k / f.w
  let (x, s) := s.context k
  let t := s.pixelTemp px py f.w f.h
  let (ds, s) := (List.range 3).foldl
    (fun (a : List (Option Nat) × State) c =>
      let (d, s) := a.2.dose (3 * k + c) (x.dead.getD c false)
      (a.1 ++ [d], s)) ([], s)
  let v := (List.range 3).map fun c => s.lampValue x c rgb (ds.getD c none) t
  let (codes, above) := limitCodes (s.on F.COR_CFG_SATMODE) ((List.range 3).map fun c => s.get (F.COR_CMAX_CODE c)) v
  let s := if above then (s.count F.COR_SATCNT_COUNT 1).flagF ⟨.COR_EV, 4, 1⟩ else s
  let s := (List.range 3).foldl
    (fun s c =>
      let code := codes.getD c 0
      let s := if write then s.putBytes (codeAddr half (geo.entry px py c)) (leBytes 3 code) else s
      match sample, ds.getD c none with
      | some e, some d =>
        let inc := doseIncrement (s.rd .COR_LEDSEQ).toNat (3 * k + c) code e (s.acceleration t)
        s.store (s.ledgerAddr (3 * k + c)) (leBytes 4 (min (2 ^ 32 - 1) (d + inc)))
      | _, _ => s) s
  let sums := if x.witness then
      (List.range 3).foldl (fun l c => modAt (3 * x.sensor + c) (· + codes.getD c 0) l) acc.sums
    else acc.sums
  (s, ⟨sums, acc.dead + x.dead.countP id⟩)

/-- Ticks as microseconds. -/
def ticksUs (n : Nat) : Nat := n * 4 / 625

/-- R321, R355: the ticks for which the lamps will have been dark by wall time `t`, in 1/65,536 ns, if they stay as they
are until then (DESIGN CHOICE, log entry 76). -/
def State.darkBy (s : State) (t : Nat) : Nat :=
  s.scn.darkTicks + if s.on F.SCN_STAT_DARK then (t - s.now) * 5 / (32 * 65536) else 0

/-- R321: whether this composed frame is a sample frame, with its interval E in ns. -/
def State.sampleFrame (s : State) (f : FrameRun) : Option Nat :=
  let every := max 1 (s.get F.COR_LEDCFG_EVERY)
  if !(s.on F.COR_CFG_LEDEN) || decide (s.cor.sinceSample + 1 < every) then none
  else
    match s.cor.lastSample with
    | none => some (every * s.period / 65536)
    | some (t, dark) =>
      some (min (2 * every * s.period / 65536)
        (((f.instant - t) * 5 - (s.darkBy f.instant - dark) * 32 * 65536) / (5 * 65536)))

/-- The dark ticks at the show instant of a sample frame (R321). -/
def State.markSample (s : State) (t : Nat) : State :=
  match s.cor.lastSample with
  | some (u, _) => if u = t then s.modCor fun c => { c with lastSample := some (t, s.scn.darkTicks) } else s
  | none => s

/-- R305 to R329: a frame corrected into the half that is not in force, the dose sampled, and the witness sums kept. With
no scan program no LINES are known and no half is written; the frame then counts as complete (DEDUCED). -/
def State.correctFrame (s : State) (f : FrameRun) : State :=
  let half := 1 - s.half
  let geo := s.geometry f.w f.h f.lines
  let sample := s.sampleFrame f
  let write := decide (0 < f.lines)
  let (s, acc) := f.pixels.zipIdx.foldl
    (fun (a : State × Gathered) e => a.1.correctPixel f geo half write sample e.2 e.1 a.2)
    (s, ⟨List.replicate 24 0, 0⟩)
  let s := s.set F.COR_DEADCNT_LAMPS acc.dead
  let s := s.set F.COR_CTIME_US (satN 20 (ticksUs (s.tim.ticks - f.started)))
  let s := s.modCor fun c => { c with halfSums := modAt half (fun _ => acc.sums) c.halfSums }
  match sample with
  | some _ => (s.wrapUp F.COR_LEDSEQ_COUNT).modCor fun c =>
      { c with sinceSample := 0, lastSample := some (f.instant, s.darkBy f.instant) }
  | none => s.modCor fun c => { c with sinceSample := if s.on F.COR_CFG_LEDEN then c.sinceSample + 1 else 0 }

/-- A write of COR.CFG: LEDEN newly 1 begins the sampling anew (R321). -/
def State.writeCorCfg (s : State) (v : Word) : State :=
  let was := s.on F.COR_CFG_LEDEN
  let s := s.wr .COR_CFG (v &&& 7)
  if !was && s.on F.COR_CFG_LEDEN then s.modCor fun c => { c with sinceSample := 0, lastSample := none } else s

/-! ### The colour loop -/

/-- R324: the sums of the half shown go into the window, once per frame period. -/
def State.addWitness (s : State) : State :=
  let h := s.cor.halfSums.getD s.half []
  s.modCor fun c => { c with window := (List.range 24).map fun i => c.window.getD i 0 + h.getD i 0 }

/-- R325: the loop gain of one colour at a window's end. A quotient by 0, which EMIN = 0 lets come about, is a free
value. -/
def State.loopColour (s : State) (e : List Nat) (c : Nat) : State :=
  let use := (List.range 8).filter fun k => decide (0 < (s.rd (.COR_WREF k c)).toNat) && s.on (F.HKP_CSM_VALID k c)
  let msum := (use.map fun k => s.get (F.HKP_CSM_COUNT k c)).foldl (· + ·) 0
  let esum := (use.map fun k => e.getD (3 * k + c) 0 * (s.rd (.COR_WREF k c)).toNat / 2 ^ 32).foldl (· + ·) 0
  if esum < (s.rd .COR_EMIN).toNat then s.flagF ⟨.COR_EV, 3, 1⟩
  else
    let (free, s) := s.draw
    let lo : Int := s.get F.COR_LOOPLIM_MIN
    let hi : Int := s.get F.COR_LOOPLIM_MAX
    let g : Int := s.get (F.COR_LOOP_GAIN c)
    let q := if esum = 0 then free.toNat else msum * 65536 / esum
    let target : Int := if q = 0 then hi else (s.get (F.COR_LOOP_GAIN c) * 65536 / q : Nat)
    let g' := g + fdiv (target - g) (2 ^ s.get F.COR_LOOPCFG_KL)
    if g' ≤ lo ∨ hi ≤ g' then
      (s.set (F.COR_LOOP_GAIN c) (clampI lo hi g').toNat).flagF ⟨.COR_EV, 3, 1⟩
    else s.set (F.COR_LOOP_GAIN c) g'.toNat

/-- Table 12.6: a loop gain is at a limit. -/
def State.atLoopLimit (s : State) : Bool :=
  (List.range 3).any fun c =>
    let g := s.get (F.COR_LOOP_GAIN c)
    decide (g ≤ s.get F.COR_LOOPLIM_MIN ∨ s.get F.COR_LOOPLIM_MAX ≤ g)

/-- R324, R325: the end of a loop window. A window with dark time updates nothing. -/
def State.endWindow (s : State) : State :=
  let e := s.cor.window
  let s := (List.range 8).foldl (fun s k => (List.range 3).foldl
    (fun s c => s.wr (.COR_WEXP k c) (BitVec.ofNat 32 (min (2 ^ 32 - 1) (e.getD (3 * k + c) 0 / 4096)))) s) s
  let s := s.flagF ⟨.COR_EV, 5, 1⟩
  let dark := s.cor.windowDark
  let s := s.modCor fun c => { c with window := List.replicate 24 0, windowDark := s.on F.SCN_STAT_DARK }
  if s.on F.COR_CFG_LOOPEN && !dark then
    let s := (List.range 3).foldl (fun s c => s.loopColour e c) s
    s.set F.COR_STAT_LOOPLIM (b2n s.atLoopLimit)
  else s

/-- LOOP_WINDOW_END (R324, R325). -/
def execLoopWindowEnd (s : State) : Host.Outcome State Fault Refusal := .next (if s.isTile then s.endWindow else s)

end Sys2Proof.Machine
end

