-- ==== Sys2Proof/Machine/LinkOps.lean ====
section
/-! DEFINITION. The wall link's shared operations: the geometry of chains (R114 to R118), cells as units (R167,
Tables 7.6, 7.7), the queues of a port, positions and reports (R172, R173), announcements (R185, R186), ports coming
up and going down (R162, R163), the message ring (R180) and the tags of wall-addressed transactions (R181, R183). -/

namespace Sys2Proof.Machine

/-! ### Ports and chains -/

/-- Port `p`; an index above 8 gives a port that is not there. -/
def State.port (s : State) (p : Nat) : Port := (s.lnk.ports[p]?).getD Port.reset

/-- Port `p` changed. -/
def State.modPort (s : State) (p : Nat) (f : Port → Port) : State :=
  { s with lnk := { s.lnk with ports := s.lnk.ports.setIfInBounds p (f (s.port p)) } }

/-- The port is up (R163). -/
def State.up (s : State) (p : Nat) : Bool := s.get (F.LNK_PSTAT_STATE p) == 2

/-- This part is one of a sender pair (R116). -/
def State.paired (s : State) : Bool := s.on F.LNK_CFG_PAIR

/-- Sender role: port pair r, or in a pair port r, is a ring (R115, R116). -/
def State.ringPort (s : State) (p : Nat) : Bool := s.paired || bit (s.get F.LNK_CFG_RING) (p / 2)

/-- Sender role: a chain port that is a B-end (R115, R116). -/
def State.isBEnd (s : State) (p : Nat) : Bool :=
  if s.paired then s.on F.LNK_CFG_BEND else s.ringPort p && p % 2 == 1

/-- R118: the CHAIN value of a chain port. -/
def State.chainOf (s : State) (p : Nat) : Nat := if s.paired then p else if s.ringPort p then p / 2 * 2 else p

/-- R118: CHAIN names an A-end port; port 2r + 1 of a ring is none. -/
def State.chainValid (s : State) (c : Nat) : Bool := s.paired || !(s.ringPort c) || c % 2 == 0

/-- Chain `c` is a ring. -/
def State.isRing (s : State) (c : Nat) : Bool := s.ringPort c

/-- This sender's A-end port of chain `c`. -/
def State.aPort (s : State) (c : Nat) : Option Nat := if s.paired && s.on F.LNK_CFG_BEND then none else some c

/-- This sender's B-end port of chain `c`. -/
def State.bPort (s : State) (c : Nat) : Option Nat :=
  if s.paired then (if s.on F.LNK_CFG_BEND then some c else none)
  else if s.ringPort c then some (c + 1) else none

/-- A port of this sender that is up. -/
def State.endUp (s : State) : Option Nat → Bool
  | some p => s.up p
  | none => false

/-- The chain is split and fed from both ends (R188). -/
def State.split (s : State) (c : Nat) : Bool := s.isRing c && s.on (F.LNK_RING_SPLIT c)

/-- R188: the position is fed from the B-end. -/
def State.fedFromB (s : State) (c pos : Nat) : Bool := s.split c && decide (s.get (F.LNK_RING_BFIRST c) ≤ pos)

/-- The port of this sender that feeds a position (R188, R191); in a pair none where the partner's end feeds it. -/
def State.feedPort (s : State) (c pos : Nat) : Option Nat := if s.fedFromB c pos then s.bPort c else s.aPort c

/-- The master side of a tile: port 0 or port 1 (R168). -/
def State.masterPort (s : State) : Nat := s.get F.LNK_POS_FEDB

/-- A tile's master epoch, 0 if it has none (R185). -/
def State.masterEpoch (s : State) : BitVec 32 := s.rd .LNK_MASTER

/-- The epoch of an end's last announcement (R203, R210). -/
def State.endEpoch (s : State) (p : Nat) : BitVec 32 := (s.port p).annEpoch

/-- The 16-byte device identity (Table 7.7); ASR.DEVID holds it in four words, the first in the upper bits. -/
def State.devid (s : State) : BitVec 128 :=
  s.rd (.ASR_DEVID 0) ++ s.rd (.ASR_DEVID 1) ++ s.rd (.ASR_DEVID 2) ++ s.rd (.ASR_DEVID 3)

/-- LNK.DROP counts; its count sets EVTXN (Table 7.14). -/
def State.drop (s : State) (p : Nat) : State := (s.count (F.LNK_DROP_COUNT p) 1).flagF (F.LNK_PSTAT_EVTXN p)

/-- R183: LNK.STALE counts; its count sets EVTXN. -/
def State.stale (s : State) (p : Nat) : State := (s.count (F.LNK_STALE_COUNT p) 1).flagF (F.LNK_PSTAT_EVTXN p)

/-! ### Cells -/

/-- A unit whose fields stand at the given lowest bits. -/
def unitOf (l : List (Nat × Nat)) : BitVec 64 := BitVec.ofNat 64 (l.foldl (fun a e => a + e.2 * 2 ^ e.1) 0)

/-- Field [lo+n-1:lo] of a unit. -/
def uf (u : BitVec 64) (lo n : Nat) : Nat := bits u.toNat lo n

/-- Bytes as big-endian units, the last one padded with zeros. -/
def bytesToUnits (l : List Byte) : List (BitVec 64) :=
  (chunks 8 l.length l).map fun c => BitVec.ofNat 64 (beNat (padTo 8 c))

/-- The bytes of units. -/
def unitsToBytes (l : List (BitVec 64)) : List Byte := (l.map fun u => beBytes 8 u.toNat).flatten

/-- A header unit (R167). -/
def headUnit (type len : Nat) (l : List (Nat × Nat)) : BitVec 64 := unitOf ((56, type) :: (48, len) :: l)

/-- A cell taken from a link (Table 7.7); a pair cell keeps its units (Table 15.1). -/
inductive Cell where
  | time (c : TimeCell)
  | ldreq (seq : BitVec 16)
  | ldrsp (c : LdRsp)
  | pos (value : BitVec 7) (valid : Bool)
  | announce (c : AnnounceCell)
  | token (c : TokenCell)
  | retract (c : RetractCell)
  | gack (c : GackCell)
  | report (c : ReportCell)
  | msg (c : MsgCell)
  | request (req : Nat) (c : RequestCell)
  | response (c : ResponseCell)
  | pair (units : List (BitVec 64))
deriving DecidableEq, Repr

/-- The virtual channel of a cell (Table 7.6). -/
def Cell.vc : Cell → Nat
  | .time .. | .ldreq .. | .ldrsp .. => 0
  | .request .. | .response .. => 2
  | _ => 1

/-- Two 32-bit layer words to a unit (Table 7.7). -/
def layerUnits : List (BitVec 32) → List (BitVec 64)
  | [] => []
  | [a] => [a ++ 0#32]
  | a :: b :: r => (a ++ b) :: layerUnits r

/-- A cell as units (R167, Tables 7.6 and 7.7). -/
def Cell.units : Cell → List (BitVec 64)
  | .time c => [headUnit 0x01 4 [(32, c.seq.toNat), (0, c.epoch.toNat)],
      unitOf [(16, c.sec.toNat), (8, c.hops.toNat), (0, b2n c.fromB)],
      unitOf [(32, c.ns.toNat), (16, c.frac.toNat)], c.corr]
  | .ldreq seq => [headUnit 0x02 1 [(32, seq.toNat)]]
  | .ldrsp c => [headUnit 0x03 4 [(32, c.seq.toNat)], c.t2sec ++ c.t2ns, c.t3sec ++ c.t3ns,
      unitOf [(48, c.t2frac.toNat), (32, c.t3frac.toNat)]]
  | .pos v valid => [headUnit 0x08 1 [(41, v.toNat), (40, b2n valid)]]
  | .announce c => [headUnit 0x10 3 [(40, b2n c.fromB), (0, c.epoch.toNat)],
      c.devid.extractLsb' 64 64, c.devid.extractLsb' 0 64]
  | .token c => [headUnit 0x11 (3 + (c.n.toNat + 1) / 2) [(40, c.n.toNat), (0, c.epoch.toNat)],
      unitOf [(16, c.sec.toNat), (0, c.frac.toNat)], c.ns ++ c.commit]
      ++ (layerUnits c.layers).take ((c.n.toNat + 1) / 2)
  | .retract c => [headUnit 0x12 2 [(0, c.epoch.toNat)], unitOf [(52, c.handle.toNat), (32, c.gen.toNat)]]
  | .gack c => [headUnit 0x14 2 [(41, c.position.toNat), (0, c.epoch.toNat)],
      unitOf [(52, c.handle.toNat), (32, c.gen.toNat), (0, c.missing.toNat)]]
  | .report c => [headUnit 0x15 1 [(41, c.position.toNat), (40, b2n c.towardB), (32, c.reason.toNat),
      (0, c.epoch.toNat)]]
  | .msg c => headUnit 0x16 (1 + (c.body.length / 4 + 1) / 2) [(40, c.kind.toNat), (33, c.position.toNat),
      (32, b2n c.all), (31, b2n c.up), (24, c.body.length / 4)] :: bytesToUnits c.body
  | .request req c =>
    let u0 len := headUnit (0x20 + req) len [(41, c.position.toNat), (28, c.tag.toNat), (24, c.tgen.toNat)]
    let u1 := unitOf [(40, c.words.toNat), (0, c.addr.toNat)]
    match req with
    | 0 => [u0 2, u1]
    | 1 => u0 (2 + (c.words.toNat + 1) / 2) :: u1 :: bytesToUnits c.data
    | 2 => [u0 3, u1, c.pattern ++ 0#32]
    | _ => [u0 1]
  | .response c =>
    let n := if c.req = 0 ∧ c.status = 0 then c.words.toNat else 0
    headUnit (0xA0 + c.req.toNat) (1 + (n + 1) / 2) [(41, c.position.toNat), (28, c.tag.toNat), (24, c.tgen.toNat),
      (8, n), (0, c.status.toNat)] :: bytesToUnits (if n = 0 then [] else c.data)
  | .pair units => units

/-- The layer words of a token from its units. -/
def layersOf (n : Nat) (l : List (BitVec 64)) : List (BitVec 32) :=
  ((l.map fun u => [u.extractLsb' 32 32, u.extractLsb' 0 32]).flatten).take n

/-- R383, Table 15.1: the LEN of a pair cell of a type lies in its range. -/
def pairLenOk (t len : Nat) : Bool :=
  match t with
  | 0x30 | 0x32 => len == 3
  | 0x31 => decide (7 ≤ len ∧ len ≤ 255)
  | 0x33 => decide (3 ≤ len ∧ len ≤ 130)
  | 0x34 => len == 1
  | 0x35 => decide (2 ≤ len ∧ len ≤ 255)
  | _ => false

/-- The virtual channel of a cell type (Table 7.6); none for an unknown type. -/
def typeVc (t : Nat) : Option Nat :=
  if 1 ≤ t ∧ t ≤ 3 then some 0
  else if t = 8 ∨ (0x10 ≤ t ∧ t ≤ 0x12) ∨ (0x14 ≤ t ∧ t ≤ 0x16) ∨ (0x30 ≤ t ∧ t ≤ 0x3F) then some 1
  else if (0x20 ≤ t ∧ t ≤ 0x23) ∨ (0xA0 ≤ t ∧ t ≤ 0xA3) then some 2
  else none

/-- A cell of a type read from its units; none for an unknown type or a LEN outside Table 7.6 (R167). -/
def Cell.decode (l : List (BitVec 64)) : Option Cell :=
  let u := fun i => l.getD i 0
  let u0 := u 0
  let len := l.length
  let onlyIf (b : Bool) (c : Cell) : Option Cell := if b then some c else none
  match uf u0 56 8 with
  | 0x01 => onlyIf (len == 4) (.time ⟨u0.extractLsb' 32 16, u0.extractLsb' 0 32, (u 1).extractLsb' 16 48,
      (u 1).extractLsb' 8 8, (u 1).getLsbD 0, (u 2).extractLsb' 32 32, (u 2).extractLsb' 16 16, u 3⟩)
  | 0x02 => onlyIf (len == 1) (.ldreq (u0.extractLsb' 32 16))
  | 0x03 => onlyIf (len == 4) (.ldrsp ⟨u0.extractLsb' 32 16, (u 1).extractLsb' 32 32, (u 1).extractLsb' 0 32,
      (u 2).extractLsb' 32 32, (u 2).extractLsb' 0 32, (u 3).extractLsb' 48 16, (u 3).extractLsb' 32 16⟩)
  | 0x08 => onlyIf (len == 1) (.pos (u0.extractLsb' 41 7) (u0.getLsbD 40))
  | 0x10 => onlyIf (len == 3) (.announce ⟨u0.getLsbD 40, u0.extractLsb' 0 32, u 1 ++ u 2⟩)
  | 0x11 =>
    let n := uf u0 40 8
    onlyIf (len == 3 + (n + 1) / 2) (.token ⟨u0.extractLsb' 40 8, u0.extractLsb' 0 32, (u 1).extractLsb' 16 48,
      (u 1).extractLsb' 0 16, (u 2).extractLsb' 32 32, (u 2).extractLsb' 0 32, layersOf n (l.drop 3)⟩)
  | 0x12 => onlyIf (len == 2) (.retract ⟨u0.extractLsb' 0 32, (u 1).extractLsb' 52 12, (u 1).extractLsb' 32 16⟩)
  | 0x14 => onlyIf (len == 2) (.gack ⟨u0.extractLsb' 41 7, u0.extractLsb' 0 32, (u 1).extractLsb' 52 12,
      (u 1).extractLsb' 32 16, (u 1).extractLsb' 0 32⟩)
  | 0x15 => onlyIf (len == 1) (.report ⟨u0.extractLsb' 41 7, u0.getLsbD 40, u0.extractLsb' 32 8, u0.extractLsb' 0 32⟩)
  | 0x16 =>
    let w := uf u0 24 7
    onlyIf (decide (1 ≤ w ∧ w ≤ 64) && len == 1 + (w + 1) / 2) (.msg ⟨u0.extractLsb' 40 8, u0.extractLsb' 33 7,
      u0.getLsbD 32, u0.getLsbD 31, (unitsToBytes (l.drop 1)).take (4 * w)⟩)
  | 0xA0 =>
    let w := uf u0 8 16
    let st := uf u0 0 8
    onlyIf (len == 1 + (if st = 0 then (w + 1) / 2 else 0)) (.response ⟨0, u0.extractLsb' 41 7, u0.extractLsb' 28 12,
      u0.extractLsb' 24 4, u0.extractLsb' 8 16, u0.extractLsb' 0 8, (unitsToBytes (l.drop 1)).take (4 * w)⟩)
  | t =>
    if 0x20 ≤ t ∧ t ≤ 0x23 then
      let w := uf (u 1) 40 24
      let c : RequestCell := { position := u0.extractLsb' 41 7, tag := u0.extractLsb' 28 12, tgen := u0.extractLsb' 24 4
                               words := (u 1).extractLsb' 40 24, addr := (u 1).extractLsb' 0 40
                               data := if t = 0x21 then (unitsToBytes (l.drop 2)).take (4 * w) else []
                               pattern := if t = 0x22 then (u 2).extractLsb' 32 32 else 0 }
      let rw := decide (1 ≤ w ∧ w ≤ 256)
      let ok := if t = 0x20 then rw && len == 2 else if t = 0x21 then rw && len == 2 + (w + 1) / 2
        else if t = 0x22 then decide (1 ≤ w) && len == 3 else len == 1
      onlyIf ok (.request (t - 0x20) (if t = 0x23 then { c with words := 0, addr := 0 } else c))
    else if 0xA1 ≤ t ∧ t ≤ 0xA3 then
      onlyIf (len == 1) (.response ⟨BitVec.ofNat 2 (t - 0xA0), u0.extractLsb' 41 7, u0.extractLsb' 28 12,
        u0.extractLsb' 24 4, 0, u0.extractLsb' 0 8, []⟩)
    else onlyIf (pairLenOk t len) (.pair l)

/-! ### Queues -/

/-- The credit in 64-byte granules that `n` units use (R165). -/
def granules (n : Nat) : Nat := (n + 7) / 8

/-- A VC1 cell put in a port's queue. -/
def State.sendVc1 (s : State) (p : Nat) (q : QCell) : State := s.modPort p fun t => { t with vc1 := t.vc1 ++ [q] }

/-- A VC2 cell put in a port's queue. -/
def State.sendVc2 (s : State) (p : Nat) (q : QCell) : State := s.modPort p fun t => { t with vc2 := t.vc2 ++ [q] }

/-- A cell of the part's own, sent on a port that is up; none after Midnight (Table 20.10). -/
def State.sendCell (s : State) (p : Nat) (c : Cell) : State :=
  if s.up p && !s.midnight then
    let q : QCell := ⟨c.units, none, false, none⟩
    if c.vc = 2 then s.sendVc2 p q else s.sendVc1 p q
  else s

/-- A cell that the part sends on, not one of its own. -/
def Vc0Item.passing : Vc0Item → Bool
  | .forward .. => true
  | _ => false

/-- VC0 content put in a port's queue. -/
def State.sendVc0 (s : State) (p : Nat) (x : Vc0Item) : State :=
  if s.up p && (x.passing || !s.midnight) then s.modPort p fun t => { t with vc0 := t.vc0 ++ [x] } else s

/-- Credit returned to the partner of a port (R165). -/
def State.giveCredit (s : State) (p vc n : Nat) : State :=
  s.modPort p fun t => match vc with
    | 1 => { t with return1 := t.return1 + n }
    | 2 => { t with return2 := t.return2 + n }
    | _ => { t with return3 := t.return3 + n }

/-- The messages that wait on a port (R179). -/
def State.msgsWaiting (s : State) (p : Nat) : Nat := (s.port p).vc1.countP (·.isMsg)

/-! ### Positions and reports -/

/-- R172: the POS that a port facing a tile upstream port sends; none for a port that sends none. -/
def State.posToSend (s : State) (p : Nat) : Option (Nat × Bool) :=
  if p = 8 ∨ s.get (F.LNK_PSTAT_PKIND p) ≠ 0 then none
  else if s.isTile then
    if p ≠ 1 then none
    else if s.on F.LNK_POS_VALID && decide (s.get F.LNK_POS_POSITION < 127) then some (s.get F.LNK_POS_POSITION + 1, true)
    else some (0, false)
  else some (0, true)

/-- R172: POS is sent after each up and whenever its content changes. -/
def State.refreshPos (s : State) (p : Nat) : State :=
  if s.up p then
    match s.posToSend p with
    | some (v, valid) =>
      if (s.port p).posSent = some (v, valid) then s
      else (s.sendCell p (.pos (BitVec.ofNat 7 v) valid)).modPort p fun t => { t with posSent := some (v, valid) }
    | none => s
  else s

/-- R173: a REPORT of this tile on one port; TOWARDB is 1 downstream. -/
def State.reportOn (s : State) (p reason : Nat) : State :=
  s.sendCell p (.report ⟨BitVec.ofNat 7 (s.get F.LNK_POS_POSITION), p == 1, BitVec.ofNat 8 reason, s.masterEpoch⟩)

/-- R173: a REPORT towards each feeding end; a tile without a position sends none. -/
def State.reportAll (s : State) (reason : Nat) : State :=
  if s.isTile && s.on F.LNK_POS_VALID then (s.reportOn 0 reason).reportOn 1 reason else s

/-- The downstream port is down or faces a B-end (R173). -/
def State.lastOfChain (s : State) : Bool := !(s.up 1) || s.get (F.LNK_PSTAT_PKIND 1) == 3

/-! ### Announcements -/

/-- R393: the launch queue of a port is silent: a shadow's, on a ring that is not split. -/
def State.silent (s : State) (p : Nat) : Bool :=
  !s.isTile && s.paired && s.get F.MIR_STAT_ROLE == 2 && decide (p < 8) && !(s.split p)

/-- R186: ANNOUNCE with the end's announced epoch; a silent port sends none (R393). -/
def State.sendAnnounce (s : State) (p : Nat) : State :=
  if s.silent p then s else s.sendCell p (.announce ⟨s.isBEnd p, s.endEpoch p, s.devid⟩)

/-- R186: an end announces the epoch of its chain and goes on announcing; OUTRANKED is cleared when that epoch is
higher than the end's last one (Table 7.14). -/
def State.announceEnd (s : State) (p : Nat) : State :=
  let e := s.rd (.LNK_EPOCH (s.chainOf p))
  let s := if (s.endEpoch p).toNat < e.toNat then s.set (F.LNK_PSTAT_OUTRANKED p) 0 else s
  (s.modPort p fun t => { t with announcing := true, annEpoch := e }).sendAnnounce p

/-- R186: a write that announces on the A-end or the B-end of chain `c`, ignored for an end this sender does not hold. -/
def State.announceOn (s : State) (c : Nat) (bEnd : Bool) : State :=
  if s.isTile || !(s.chainValid c) then s
  else match if bEnd then s.bPort c else s.aPort c with
    | some p => s.announceEnd p
    | none => s

/-! ### Tags -/

/-- The tags of a chain in use (Table 7.10). -/
def State.tagsInUse (s : State) (c : Nat) : Nat := s.lnk.tags.countP fun t => t.chain == c

/-- LNK.TAGS[c] after a tag is taken or freed. -/
def State.tagWords (s : State) (c : Nat) : State :=
  let n := s.tagsInUse c
  let s := s.set (F.LNK_TAGS_INUSE c) n
  s.set (F.LNK_TAGS_PEAK c) (max n (s.get (F.LNK_TAGS_PEAK c)))

/-- The lowest free tag of a chain (R181). -/
def State.freeTag (s : State) (c : Nat) : Option Nat :=
  (List.range 4096).find? fun t => !(s.lnk.tags.any fun e => e.chain == c && e.tag == t)

/-- The last tag generation of a tag; 0 before its first use. -/
def State.tagGen (s : State) (c t : Nat) : Nat :=
  ((s.lnk.tgens.find? fun e => e.1 == c && e.2.1 == t).map fun e => e.2.2).getD 0

/-- A tag generation recorded. -/
def State.setTagGen (s : State) (c t g : Nat) : State :=
  { s with lnk := { s.lnk with tgens := (c, t, g) :: s.lnk.tgens.filter fun e => !(e.1 == c && e.2.1 == t) } }

/-- The partner of a pair can be asked to send on its end of chain `c`: the mirror port is up, the partner is heard, and
its end is up (R181). -/
def State.partnerEnd (s : State) (c : Nat) : Bool :=
  s.paired && s.up 8 && s.on F.MIR_STAT_PARTNER && Config.partnerEndUp c s.tim.ticks

/-- R181: the status with which a wall transaction completes before it is sent, if any: 1 ADDRESS_ERROR, 6 LINK_DOWN
(Table 2.3). -/
def State.wallRefusal (s : State) (c pos : Nat) : Option Nat :=
  let feedUp := match s.feedPort c pos with
    | some p => s.up p
    | none => s.partnerEnd c
  if !(s.endUp (s.aPort c) || s.endUp (s.bPort c) || s.partnerEnd c) then some 6
  else if s.get (F.LNK_PSTAT_TILES c) ≤ pos then some 1
  else if !feedUp then some 6
  else none

/-- R391: a whole cell in a FWD cell. -/
def fwdUnits (chain : Nat) (toLead : Bool) (inner : List (BitVec 64)) : List (BitVec 64) :=
  headUnit 0x35 (1 + inner.length) [(45, chain), (44, b2n toLead)] :: inner

/-- A cell sent towards a position over the end that feeds it, or through the partner where the partner's end does
(R183, R188, R391); none where no feeding end reaches the position. -/
def State.routeCell (s : State) (c pos : Nat) (x : Cell) : Option State :=
  match s.feedPort c pos with
  | some p => if s.up p then some (s.sendCell p x) else none
  | none => if s.partnerEnd c then some (s.sendCell 8 (.pair (fwdUnits c false x.units))) else none

/-- The PROBE of a tag (Table 7.7). -/
def SendTag.probe (t : SendTag) : Cell :=
  .request 3 ⟨BitVec.ofNat 7 t.position, BitVec.ofNat 12 t.tag, BitVec.ofNat 4 t.tgen, 0, 0, [], 0⟩

/-- A tag's record changed. -/
def State.modTag (s : State) (c t : Nat) (f : SendTag → SendTag) : State :=
  { s with lnk := { s.lnk with tags := s.lnk.tags.map fun e => if e.chain = c ∧ e.tag = t then f e else e } }

/-- R183: the PROBE of a tag is sent, or falls due when a feeding end next reaches the tile. -/
def State.sendProbe (s : State) (t : SendTag) : State :=
  match s.routeCell t.chain t.position t.probe with
  | some s => s.modTag t.chain t.tag fun e => { e with probeDue := false }
  | none => s.modTag t.chain t.tag fun e => { e with probeDue := true }

/-- R183: probes that fell due while no feeding end reached their tiles. -/
def State.sendDueProbes (s : State) : State :=
  (s.lnk.tags.filter (·.probeDue)).foldl (fun s t => s.sendProbe t) s

/-! ### Ports coming up and going down -/

/-- R163, Table 7.4: the PORTKIND of this end. -/
def State.ownKind (s : State) (p : Nat) : Nat :=
  if p = 8 then 4 else if s.isTile then p else if s.isBEnd p then 3 else 2

/-- Table 7.4: the partner's PORTKIND pairs with this end's; a tile at position 127 faces only a B-end downstream. -/
def State.pairsWith (s : State) (p kind : Nat) : Bool :=
  match s.ownKind p with
  | 2 => kind == 0
  | 0 => kind == 2 || kind == 1
  | 1 => kind == 3 || (kind == 0 && !(s.on F.LNK_POS_VALID && s.get F.LNK_POS_POSITION == 127))
  | 3 => kind == 1
  | _ => kind == 4

/-- STATE of a port changes, and EVLINK is set (Table 7.14). -/
def State.setPortState (s : State) (p st : Nat) : State :=
  if s.get (F.LNK_PSTAT_STATE p) = st then s
  else (s.set (F.LNK_PSTAT_STATE p) st).flagF (F.LNK_PSTAT_EVLINK p)

/-- What a port keeps over a link: whether it announces, its epoch and its cell numbers. -/
def Port.fresh (t : Port) : Port :=
  { Port.reset with announcing := t.announcing, annEpoch := t.annEpoch, timeSeq := t.timeSeq, ldSeq := t.ldSeq }

/-- Launch entries that a port held started are gone with its queues (R162, R207). -/
def State.dropStarted (s : State) (p : Nat) : State :=
  let q := ((s.tim.queues[p]?).getD []).filter fun e => !e.started
  let s := { s with tim := { s.tim with queues := s.tim.queues.setIfInBounds p q } }
  s.set (F.TIM_LQSTAT_ENTRIES p) q.length

/-- What ends when the mirror port goes down: held responses go out (R386), a checkpoint copy is abandoned at both ends
(R390), and no further record of the old lead comes (R401). -/
def State.mirrorLost (s : State) : State :=
  let s := s.releaseAllHeld.hostMoves
  let s := { s with mir := { s.mir with ckRx := none } }
  match s.mir.ckTx with
  | some _ =>
    let s := { s with mir := { s.mir with ckTx := none } }
    (s.set F.MIR_CKSTAT_BUSY 0).set F.MIR_CKSTAT_FAIL 1
  | none => s

/-- R165: the credit of forwarded content that a port discards goes back to the ports it came from. -/
def State.returnCredits (s : State) (p : Nat) : State :=
  let t := s.port p
  let cells (s : State) (vc : Nat) (l : List QCell) : State :=
    l.foldl (fun s q => match q.via with
      | some v => s.giveCredit v vc (granules q.units.length)
      | none => s) s
  t.vc3.foldl (fun s x => match x with
    | .run _ _ _ _ _ (some v) gran => s.giveCredit v 3 gran
    | _ => s) (cells (cells s 1 t.vc1) 2 t.vc2)

/-- R162: a port that is up goes down: frames held for resend, partial cells and waiting content are discarded, the
link delay starts again, and a tile reports. -/
def State.portDown (s : State) (p : Nat) : State :=
  let was := s.up p
  let s := s.setPortState p 0
  if was then
    let s := (s.returnCredits p).modPort p Port.fresh
    let s := s.set (F.LNK_PSTAT_FECON p) 0
    let s := s.set (F.TIM_LDELAY_VALID p) 0
    let s := if p = 8 then s.mirrorLost else (s.dropStarted p).passFences
    s.reportAll 0
  else s

/-- R163: a port comes up: SEQ from 0 and full credits, POS, ANNOUNCE and REPORT. -/
def State.portUp (s : State) (p : Nat) (fec : Bool) : State :=
  let s := s.modPort p Port.fresh
  let s := s.set (F.LNK_PSTAT_FECON p) (b2n fec)
  let s := s.set (F.LNK_PSTAT_MISROLE p) 0
  let s := s.setPortState p 2
  let s := s.refreshPos p
  let s := if (s.port p).announcing then s.sendAnnounce p else s
  s.sendDueProbes.reportAll 2

/-- R117, R163: the port has its two lanes, and its enable and its partner decide; STATE is 1 while the partner is checked,
so EVLINK is set whatever the outcome. -/
def State.tryUp (s : State) (p : Nat) (kind : Nat) (fec : Bool) : State :=
  if s.up p then s
  else
    let s := s.set (F.LNK_PSTAT_PKIND p) kind
    if !(s.on (F.LNK_PCTL_EN p)) then s.setPortState p 0
    else
      let s := s.setPortState p 1
      if s.pairsWith p kind then s.portUp p fec
      else (s.set (F.LNK_PSTAT_MISROLE p) 1).setPortState p 0

/-- The lanes of a port (R130). -/
def laneOf (p i : Nat) : Nat := if p = 8 then 32 + i else 8 + 3 * p + i

/-- The number of lanes of a port (R132). -/
def laneCount (p : Nat) : Nat := if p = 8 then 4 else 3

/-- The active lanes of a port, lowest first. -/
def State.activeLanes (s : State) (p : Nat) : List Nat :=
  ((List.range (laneCount p)).map (laneOf p)).filter fun n => s.get (F.LAN_STAT_STATE n) == 6

/-- R158, R163: the port looked at after its lanes, its enable, its partner or its geometry have changed. -/
def State.checkPort (s : State) (p : Nat) : State :=
  match s.activeLanes p with
  | n :: _ :: _ =>
    let fec := (s.activeLanes p).any s.lan.fec.contains
    s.tryUp p (s.get (F.LAN_PARTNER_PORTKIND n)) fec
  | _ => s.portDown p

/-- A write of LNK.PCTL[p].EN (R162, R163). -/
def State.setPortEnable (s : State) (p : Nat) (en : Bool) : State :=
  if s.get (F.LNK_PCTL_EN p) = b2n en then s
  else
    let s := s.set (F.LNK_PCTL_EN p) (b2n en)
    if en then s.checkPort p else s.portDown p

/-! ### Messages -/

/-- R180: a message written to the receive ring, or dropped and counted. -/
def State.takeMsg (s : State) (kind position : Nat) (pair all : Bool) (port : Nat) (body : List Byte) : State :=
  let head := s.get F.LNK_MRXHEAD_SLOT
  if !(s.on F.LNK_MRXCFG_EN) || (head + 1) % 64 == s.get F.LNK_MRXTAIL_SLOT then s.count F.LNK_MRXDROP_COUNT 1
  else
    let a := 0xE100000000 + min (s.get F.LNK_MRXBASE_OFFSET) 0x1FB * 4096 + head * 272
    let slot := [BitVec.ofNat 8 kind, BitVec.ofNat 8 (body.length / 4), BitVec.ofNat 8 position,
      BitVec.ofNat 8 (b2n pair + 2 * b2n all + 16 * (port % 16))] ++ List.replicate 12 0 ++ body
    (s.store a slot).set F.LNK_MRXHEAD_SLOT ((head + 1) % 64)

end Sys2Proof.Machine
end

