-- ==== Sys2Proof/Machine/AsrOps.lean ====
section
/-! DEFINITION. The journal's writes with their three checks and their spares (R497 to R502), journal records (R503),
two-copy records (R501), and the repair map (R514 to R516). -/

namespace Sys2Proof.Machine

/-- The assurance record changed. -/
def State.modAsr (s : State) (f : AsrState → AsrState) : State := { s with asr := f s.asr }

/-! ### Test units -/

/-- Table 21.7: the kinds of block in table order, as kind, units of one block and blocks. -/
def testKinds : List (Nat × Nat × Nat) :=
  [(0, 16, 5), (1, 4, 5), (2, 128, 1), (3, 8, 1), (4, 4, 1), (5, 4, 1), (6, 4, 1), (7, 408, 1), (8, 64, 1), (9, 16, 1),
    (10, 8, 1), (11, 4, 9), (12, 4, 9), (13, 2, 16)]

/-- The block of a unit: its kind, its number within the kind and the units that it still has from this one on. -/
def unitBlock (u : Nat) : Nat × Nat × Nat :=
  (testKinds.foldl
    (fun (a : Nat × Option (Nat × Nat × Nat)) (e : Nat × Nat × Nat) =>
      let size := e.2.1 * e.2.2
      match a.2 with
      | some _ => a
      | none =>
        if u < a.1 + size then (a.1, some (e.1, (u - a.1) / e.2.1, e.2.1 - (u - a.1) % e.2.1)) else (a.1 + size, none))
    (0, none)).2.getD (0, 0, 1)

/-- R510: a slice of the frame program memory or of a compositor lane holds a compose start. -/
def State.composeHeld (s : State) : Bool :=
  match s.asr.slice with
  | some r => r.slice.isSome && ((unitBlock r.next).1 == 10 || (unitBlock r.next).1 == 11)
  | none => false

/-! ### Pages -/

/-- The 32 bytes of a page as the window shows them. -/
def State.nvPage (s : State) (page : Nat) : List Byte := (List.range 32).map fun i => s.nvj.windowByte (page * 32 + i)

/-- The write count of a page, saturating at 0xFFFF (R86). -/
def State.nvCount (s : State) (page : Nat) : Nat := min 65535 ((s.nvj.counts.lookup page).getD 0)

/-- A page failed (R500). -/
def State.nvFailed (s : State) (page : Nat) : Bool := s.nvj.failed.contains page

/-- A spare stands behind a page (R500). -/
def State.nvSpare (s : State) (page : Nat) : Bool := (s.nvj.spares.lookup page).isSome

/-- ASR.NVQ as it reads: count, spare and failure of the page it names. -/
def State.nvqWord (s : State) : Word :=
  let p := s.get F.ASR_NVQ_PAGE
  BitVec.ofNat 32 (p + s.nvCount p * 256 + b2n (s.nvSpare p) * 2 ^ 24 + b2n (s.nvFailed p) * 2 ^ 25)

/-- The physical sensor of a logical one (R462). -/
def State.physSensor (s : State) (k : Nat) : Nat := getBits (s.rd .HKP_DIEMAP) (4 * k) 4

/-- The reading of a logical on-die sensor; none where it is invalid (R462). -/
def State.sensorNow (s : State) (k : Nat) : Option Int :=
  let p := s.physSensor k
  if s.on (F.HKP_DIE_VALID p) then some (sgn 16 (s.get (F.HKP_DIE_TEMP p))) else none

/-- The valid readings of the logical on-die sensors. -/
def State.validSensors (s : State) : List Int := (List.range 8).filterMap s.sensorNow

/-- R468: the junction temperature is proven, and lies within −25 °C to +125 °C. -/
def State.tempProven (s : State) : Bool :=
  let t := s.validSensors
  decide (2 ≤ t.length) && t.all fun x => decide (-400 ≤ x ∧ x ≤ 2000)

/-- Table 3.13: a refused write is counted and shown. -/
def State.nvRefused (s : State) (res : Nat) : State :=
  ((s.set F.ASR_NVSTAT_LASTRES res).count F.ASR_NVSTAT_REFCNT 1).flag .ASR_EV 0

/-- R498, R499: a write of `n` pages passes the temperature check and the rate guard; `cost` is its credits. The result
is 0 to go on, 2 for the temperature, 1 for the rate guard. -/
def State.nvCheck (s : State) (cost : Nat) : Nat :=
  if !s.tempProven then 2 else if s.get F.ASR_NVSTAT_CREDITS < cost then 1 else 0

/-- R499: credits taken. -/
def State.nvPay (s : State) (cost : Nat) : State := s.set F.ASR_NVSTAT_CREDITS (s.get F.ASR_NVSTAT_CREDITS - cost)

/-- R498: the first page of the job in hand: its count rises, and programming begins. -/
def State.nvBegin (s : State) : State :=
  match s.asr.jobs with
  | [] => s.set F.ASR_STAT_NVBUSY 0
  | j :: _ => match j.pages with
    | [] => s
    | (p, _) :: _ =>
      let c := (s.nvj.counts.lookup p).getD 0 + 1
      ({ s with nvj := { s.nvj with counts := (p, c) :: s.nvj.counts.filter fun e => e.1 != p } }).set F.ASR_STAT_NVBUSY 1

/-- R498: writes are taken one at a time. -/
def State.nvQueue (s : State) (j : NvjJob) : State :=
  let idle := s.asr.jobs.isEmpty
  let s := s.modAsr fun a => { a with jobs := a.jobs ++ [j] }
  if idle then s.nvBegin else s

/-- Bytes stored in a page. -/
def State.nvStore (s : State) (page : Nat) (l : List Byte) : State :=
  { s with nvj := { s.nvj with data := Memory.writeBytes s.nvj.data (s.nvj.phys page * 32) l } }

/-- R500: a page that fails its verify is moved to the lowest spare page not in use, or fails for good; true if it
moved. -/
def State.nvMove (s : State) (page : Nat) : Bool × State :=
  let used := s.get F.ASR_NVSTAT_SPARES
  let s := s.flag .ASR_EV 0
  match (List.range 8).find? fun i => !(bit used i) with
  | some i =>
    let s := { s with nvj := { s.nvj with spares := (page, 120 + i) :: s.nvj.spares.filter fun e => e.1 != page } }
    (true, s.set F.ASR_NVSTAT_SPARES (used + 2 ^ i))
  | none =>
    let (l, s) := s.drawBytes 32
    let s := s.nvStore page l
    (false, { s with nvj := { s.nvj with failed := page :: s.nvj.failed } })

/-- How the writing of a page ended: the result of Table 3.13 and the state; a write to a failed page fails (R500). -/
def State.nvEndPage (s : State) (page : Nat) (l : List Byte) (verified : Bool) : Bool × State :=
  if verified && !(s.nvFailed page) then (true, s.nvStore page l)
  else if s.nvFailed page then (false, s.flag .ASR_EV 0)
  else (false, (s.nvMove page).2)

/-- The job in hand ends, and the next one begins. -/
def State.nvPop (s : State) : State := (s.modAsr fun a => { a with jobs := a.jobs.drop 1 }).nvBegin

/-! ### Records -/

/-- The check word of a record, little-endian (R501). -/
def checkWord (l : List Byte) : List Byte := leBytes 4 (crc32 l).toNat

/-- R501: which of two copies to write: the invalid one, or the one with the lower SEQ; and the SEQ it gets. Each copy
is given as its SEQ if valid. -/
def nextCopy (c0 c1 : Option Nat) : Nat × Nat :=
  match c0, c1 with
  | none, none => (0, 1)
  | none, some b => (0, b + 1)
  | some a, none => (1, a + 1)
  | some a, some b => if a < b then (0, b + 1) else (1, a + 1)

/-- R501: which of two copies is in force. -/
def copyInForce (c0 c1 : Option Nat) : Option Nat :=
  match c0, c1 with
  | none, none => none
  | some _, none => some 0
  | none, some _ => some 1
  | some a, some b => if a < b then some 1 else some 0

/-- A one-page record is valid; its SEQ or its first bytes are read apart. -/
def pageValid (l : List Byte) : Bool := decide (slice l 28 4 = checkWord (l.take 28))

/-- A journal page that is valid, with its JSEQ (Table 21.3). -/
def State.journalSeq (s : State) (page : Nat) : Option Nat :=
  let l := s.nvPage page
  if pageValid l then some (leAt l 0 4) else none

/-- R503: the newest valid journal page and its JSEQ. -/
def State.journalNewest (s : State) : Option (Nat × Nat) :=
  ((List.range 96).map (· + 24)).foldl
    (fun best p => match s.journalSeq p, best with
      | some q, some (_, b) => if b < q then some (p, q) else best
      | some q, none => some (p, q)
      | none, _ => best) none

/-- The page after a journal page (R503). -/
def journalAfter (p : Nat) : Nat := if 119 ≤ p then 24 else p + 1

/-- The time of a record: 6 bytes of seconds and 4 of nanoseconds, 0xFF while wall time is invalid (R503). -/
def State.recordTime (s : State) (ns : Bool) : List Byte :=
  let n := if ns then 10 else 6
  if s.on F.TIM_STAT_VALID then (leBytes 6 (wuSec s.now) ++ leBytes 4 (wuNs s.now)).take n
  else List.replicate n 0xFF

/-- A journal page (Table 21.3). -/
def journalPage (seq type part : Nat) (data : List Byte) : List Byte :=
  let l := leBytes 4 seq ++ [BitVec.ofNat 8 type, BitVec.ofNat 8 part] ++ padTo 22 data
  l ++ checkWord l

/-- Records of the queue that will be written before a new one: the pages the journal will have reached. -/
def State.journalNext (s : State) : Nat × Nat :=
  let start := match s.journalNewest with
    | some (p, q) => (journalAfter p, q + 1)
    | none => (24, 1)
  (s.asr.jobs.map fun j => j.pages).flatten.foldl
    (fun a e => if 24 ≤ e.1 ∧ e.1 < 120 then (journalAfter a.1, a.2 + 1) else a) start

/-- A journal record queued: one page for each part's data (R503). -/
def State.journalRecord (s : State) (owner : NvjOwner) (type : Nat) (parts : List (List Byte)) : State :=
  let (p, q) := s.journalNext
  let page (i : Nat) := if p + i ≤ 119 then p + i else p + i - 96
  s.nvQueue ⟨owner, parts.zipIdx.map fun e => (page e.2, journalPage (q + e.2) type e.2 e.1), false⟩

/-! ### The repair map -/

/-- Entries of `n` bytes each in their fixed number. -/
def mapEntries (n count : Nat) (l : List Nat) : List Byte :=
  ((List.range count).map fun i => leBytes n (l.getD i 0)).flatten

/-- The valid bit above an entry. -/
def validEntry (b : Nat) (l : List Nat) : List Nat := l.map (· + 2 ^ b)

/-- Table 21.10: the repair map record. -/
def RepairMap.page (m : RepairMap) (seq : Nat) : List Byte :=
  let l := leBytes 2 seq ++ leBytes 4 (m.lanes % 2 ^ 28 + min 15 m.hppr * 2 ^ 28) ++ [BitVec.ofNat 8 (m.core % 8)]
    ++ [BitVec.ofNat 8 (m.cmpLane % 16 + 16 * (m.corLane % 16))] ++ [BitVec.ofNat 8 (m.sens8 % 16 + 16 * (m.sens9 % 16))]
    ++ mapEntries 1 4 (validEntry 7 m.cells) ++ mapEntries 3 3 (validEntry 23 m.rows) ++ mapEntries 3 2 (validEntry 23 m.dram)
  l ++ checkWord l

/-- Valid entries of `n` bytes each, the valid bit being bit `b`. -/
def entriesOf (n b count : Nat) (l : List Byte) : List Nat :=
  ((List.range count).map fun i => leAt l (n * i) n).filterMap fun x => if bit x b then some (x % 2 ^ b) else none

/-- A repair map record read. -/
def RepairMap.ofPage (l : List Byte) : RepairMap where
  lanes := leAt l 2 4 % 2 ^ 28
  hppr := leAt l 2 4 / 2 ^ 28
  core := leAt l 6 1 % 8
  cmpLane := leAt l 7 1 % 16
  corLane := leAt l 7 1 / 16
  sens8 := leAt l 8 1 % 16
  sens9 := leAt l 8 1 / 16
  cells := entriesOf 1 7 4 (l.drop 9)
  rows := entriesOf 3 23 3 (l.drop 13)
  dram := entriesOf 3 23 2 (l.drop 22)

/-- The SEQ of a one-page two-byte-SEQ record if it is valid (Tables 21.10 and 20.9). -/
def State.recordSeq (s : State) (page : Nat) : Option Nat :=
  let l := s.nvPage page
  if pageValid l then some (leAt l 0 2) else none

/-- The SEQs of the two copies of the repair map once the writes in hand have been done (R501). -/
def State.mapCopies (s : State) : Option Nat × Option Nat :=
  ((s.asr.jobs.filter fun j => j.owner == .map).map fun j => j.pages).flatten.foldl
    (fun a e => if e.1 = 22 then (some (leAt e.2 0 2), a.2) else (a.1, some (leAt e.2 0 2)))
    (s.recordSeq 22, s.recordSeq 23)

/-- R501: a repair map record is queued for the journal. -/
def State.queueMap (s : State) (m : RepairMap) : State :=
  let (j, q) := nextCopy s.mapCopies.1 s.mapCopies.2
  s.nvQueue ⟨.map, [(22 + j, m.page (q % 65536))], false⟩

/-- R515: a repair map record is queued, or held while the junction temperature is not proven. Its credit is free. -/
def State.recordMap (s : State) : State :=
  if s.tempProven then
    (({ s with aon := { s.aon with mapHeld := none } }).set F.ASR_STAT_MAPHELD 0).queueMap s.asr.map
  else ({ s with aon := { s.aon with mapHeld := some s.asr.map } }).set F.ASR_STAT_MAPHELD 1

/-- R515: a substitution has taken effect: EVSPARE, and the record with the map changed. -/
def State.substituted (s : State) (f : RepairMap → RepairMap) : State :=
  ((s.flag .ASR_EV 1).modAsr fun a => { a with map := f a.map }).recordMap

/-- R515: a class whose entries are full: the substitution lasts until reset. -/
def State.mapFull (s : State) (b : Nat) : State :=
  ((s.flag .ASR_EV 1).set ⟨.ASR_MAPSTAT, 16 + b, 1⟩ 1).flag .ASR_EV 2

/-- A substitution recorded as an entry where one of `n` is free; FULL bit `b` is set otherwise (R515). -/
def State.substitutedEntry (s : State) (b n : Nat) (l : RepairMap → List Nat) (f : RepairMap → RepairMap) : State :=
  if (l s.asr.map).length < n then s.substituted f else s.mapFull b

/-- A SPARE request armed or taken away. -/
def State.arm (s : State) (cls idx : Nat) : State := s.modAsr fun a => { a with armed := a.armed ++ [(cls, idx)] }
def State.disarm (s : State) (cls idx : Nat) : State := s.modAsr fun a => { a with armed := a.armed.erase (cls, idx) }

/-- The index armed in a class, if any. -/
def State.armedIn (s : State) (cls : Nat) : Option Nat := (s.asr.armed.find? fun e => e.1 == cls).map (·.2)

end Sys2Proof.Machine
end

