-- ==== Sys2Proof/Machine/ScanCheck.lean ====
section
/-! DEFINITION. Scan programs: their instructions (Table 13.2), the check of a slot (R333, R335, R339 to R341, R347,
Table 13.3) and the words it finds. -/

namespace Sys2Proof.Machine

/-- A scan instruction (Table 13.2). -/
inductive ScanInstr where
  | line (usei : Bool) (l : Nat)
  | plane (j : Nat) (low : Bool)
  | slot (j sp : Nat)
  | blank (d : Nat)
  | prechg
  | diag (d : Nat)
  | gain (col value : Nat)
  | rowsel
  | loop (n len : Nat)
  | sync (n lines t0 : Nat)
  | readbk (headroom : Bool)
  | done
deriving DecidableEq, Repr

/-- The fields that Table 13.2 allows. -/
def ScanInstr.fieldsOk : ScanInstr → Bool
  | .plane j _ => decide (j ≤ 17)
  | .slot j _ => decide (j ≤ 17)
  | .blank d => decide (1 ≤ d)
  | .loop _ len => decide (1 ≤ len)
  | .sync _ _ t0 => decide (50 ≤ t0)
  | _ => true

/-- A word of a scan program decoded; an ERRCODE of Table 13.3 where it is none: 1 for the opcode, 2 for a reserved bit
or a field. -/
def ScanInstr.decode (w : Word) : Except Nat ScanInstr :=
  let f := getBits w
  let keep (ok : Bool) (i : ScanInstr) : Except Nat ScanInstr := if ok && i.fieldsOk then .ok i else .error 2
  match f 26 6 with
  | 0x20 => keep (f 0 19 == 0) (.line (w.getLsbD 25) (f 19 6))
  | 0x21 => keep (f 0 20 == 0) (.plane (f 21 5) (w.getLsbD 20))
  | 0x22 => keep (f 0 19 == 0) (.slot (f 21 5) (f 19 2))
  | 0x23 => keep true (.blank (f 0 26))
  | 0x24 => keep (f 0 26 == 0) .prechg
  | 0x25 => keep true (.diag (f 0 26))
  | 0x26 => keep (f 8 16 == 0) (.gain (f 24 2) (f 0 8))
  | 0x27 => keep (f 0 26 == 0) .rowsel
  | 0x28 => keep (f 11 9 == 0) (.loop (f 20 6 + 1) (f 0 11))
  | 0x29 => keep true (.sync (f 18 8 + 1) (f 12 6 + 1) (f 0 12))
  | 0x2A => keep (f 0 25 == 0) (.readbk (w.getLsbD 25))
  | 0x2B => keep (f 0 26 == 0) .done
  | _ => .error 1

/-- The instructions of a slot with their word offsets up to END, or the first faulty word as ERRCODE and ERRWORD; 4
where the slot ends without END. -/
def scanWords (rd : Nat → Word) : Nat → Nat → List (Nat × ScanInstr) → Except (Nat × Nat) (List (Nat × ScanInstr))
  | 0, pos, _ => .error (4, pos - 1)
  | fuel + 1, pos, acc =>
    match ScanInstr.decode (rd pos) with
    | .error c => .error (c, pos)
    | .ok .done => .ok ((pos, .done) :: acc).reverse
    | .ok i => scanWords rd fuel (pos + 1) ((pos, i) :: acc)

/-- R339: the preamble's head, updated by a PLANE; false if it declares a plane again. -/
def ScanHead.plane (x : ScanHead) (j : Nat) (low : Bool) : ScanHead × Bool :=
  ({ x with planes := x.planes ++ [(j, low)] }, !(x.planes.any fun e => e.1 == j))

/-- The colours that a GAIN sets. -/
def gainColours (col : Nat) : List Nat := if col = 3 then [0, 1, 2] else [col]

/-- The head updated by a GAIN; false if a colour has one already. -/
def ScanHead.gain (x : ScanHead) (col value : Nat) : ScanHead × Bool :=
  ({ x with gains := x.gains ++ (gainColours col).map fun c => (c, value) },
    (gainColours col).all fun c => !(x.gains.any fun e => e.1 == c))

/-- K: the number of planes. -/
def ScanHead.k (x : ScanHead) : Nat := x.planes.length

/-- R339: planes 0 to K − 1 with K from 4 to 18. -/
def ScanHead.planesOk (x : ScanHead) : Bool :=
  decide (4 ≤ x.k ∧ x.k ≤ 18) && (List.range x.k).all fun j => x.planes.any fun e => e.1 == j

/-- Plane `j` is at LOW. -/
def ScanHead.low (x : ScanHead) (j : Nat) : Bool := (x.planes.lookup j).getD false

/-- R335: the ON time of plane `j` shown as a fraction 1/2^SP, in 1/128 of a grid step so that no part is lost. -/
def ScanHead.onParts (x : ScanHead) (j sp : Nat) : Nat := x.t0 * 2 ^ j * 128 / (if x.low j then 1 else 16) / 2 ^ sp

/-- The ON time in 160 ps steps. -/
def ScanHead.on (x : ScanHead) (j sp : Nat) : Nat := x.onParts j sp / 128

/-- R335: the ON time is a whole number of steps and at least 8 ns. -/
def ScanHead.onOk (x : ScanHead) (j sp : Nat) : Bool := decide (x.onParts j sp % 128 = 0 ∧ 50 ≤ x.on j sp)

/-- R339: the preamble up to SYNC: its head, SYNC's offset and the words after it. -/
def scanPreamble : ScanHead → List (Nat × ScanInstr) → Except (Nat × Nat) (ScanHead × Nat × List (Nat × ScanInstr))
  | _, [] => .error (3, 0)
  | x, (p, i) :: r =>
    match i with
    | .plane j low => let (y, ok) := x.plane j low; if ok then scanPreamble y r else .error (3, p)
    | .gain c v => let (y, ok) := x.gain c v; if ok then scanPreamble y r else .error (3, p)
    | .sync n lines t0 =>
      let y := { x with n := n, lines := lines, t0 := t0 }
      if y.planesOk then .ok (y, p, r) else .error (3, p)
    | _ => .error (3, p)

/-- Whether an instruction may stand in a body. -/
def ScanInstr.inBody : ScanInstr → Bool
  | .plane .. | .gain .. | .sync .. => false
  | _ => true

/-- Whether an instruction is a LOOP or the END. -/
def ScanInstr.noLoopWord : ScanInstr → Bool
  | .loop .. | .done => false
  | _ => true

/-- R339: the body unrolled: every executed instruction with its offset and the loop counter, 0 outside a loop. -/
def scanUnroll : Nat → List (Nat × ScanInstr) → Except (Nat × Nat) (List (Nat × Nat × ScanInstr))
  | 0, _ => .ok []
  | _, [] => .ok []
  | fuel + 1, (p, i) :: r =>
    if !i.inBody then .error (3, p)
    else match i with
      | .done => .ok []
      | .loop n len =>
        let ws := r.take len
        if ws.length < len ∨ !(ws.all fun e => e.2.inBody && e.2.noLoopWord) then .error (3, p)
        else
          let once := fun k => ws.map fun e => (e.1, k, e.2)
          (scanUnroll fuel (r.drop len)).map fun rest => ((List.range n).map once).flatten ++ rest
      | _ => (scanUnroll fuel r).map fun rest => (p, 0, i) :: rest

/-- What the check of R340 knows within a body: lines visited, whether a visit runs, the fractions of each plane shown
in eighths, and the ROWSELs and whether a SLOT or DIAG has come. -/
structure VisitCheck where
  lines : List Nat
  visiting : Bool
  eighths : List (Nat × Nat)
  rowsels : Nat
  litYet : Bool

/-- R340: the visit in progress is complete. -/
def VisitCheck.closes (x : ScanHead) (v : VisitCheck) : Bool :=
  !v.visiting || (v.rowsels == 1 && (List.range x.k).all fun j =>
    ((v.eighths.filter fun e => e.1 == j).map (·.2)).foldl (· + ·) 0 == 8)

/-- R340: one instruction of the unrolled body. -/
def VisitCheck.step (x : ScanHead) (v : VisitCheck) (k : Nat) : ScanInstr → Option VisitCheck
  | .line usei l =>
    let n := if usei then l + k else l
    if v.closes x && decide (n < x.lines) && !(v.lines.contains n) then some ⟨n :: v.lines, true, [], 0, false⟩ else none
  | .slot j sp =>
    if v.visiting && decide (j < x.k) && v.rowsels == 1 then
      some { v with eighths := (j, 8 / 2 ^ sp) :: v.eighths, litYet := true }
    else none
  | .diag _ => if v.visiting && v.rowsels == 1 then some { v with litYet := true } else none
  | .rowsel => if v.visiting && v.rowsels == 0 && !v.litYet then some { v with rowsels := 1 } else none
  | .readbk _ => if v.visiting then some v else none
  | _ => some v

/-- R340: the whole body. -/
def visitCheck (x : ScanHead) : VisitCheck → List (Nat × Nat × ScanInstr) → Except (Nat × Nat) VisitCheck
  | v, [] => .ok v
  | v, (p, k, i) :: r => match v.step x k i with
    | some v' => visitCheck x v' r
    | none => .error (3, p)

/-- The shift time t_SH in 160 ps steps (R341): 0.8 ns is five steps. -/
def shiftSteps (cpl : Nat) : Nat := (cpl + 16) * 5

/-- The next timed instruction is a SLOT or DIAG. -/
def nextLights : List (Nat × Nat × ScanInstr) → Bool
  | [] => false
  | (_, _, .slot ..) :: _ => true
  | (_, _, .diag _) :: _ => true
  | (_, _, .blank _) :: _ => false
  | (_, _, .readbk _) :: _ => false
  | _ :: r => nextLights r

/-- What the timing check knows: the steps so far, whether the last interval can carry plane data, and the start of the
last row frame. -/
structure TimeCheck where
  at' : Nat
  carries : Bool
  row : Option Nat

/-- R341: t_ROW, 1,000 steps, has passed since the last row frame. -/
def TimeCheck.rowOk (t : TimeCheck) : Bool :=
  match t.row with
  | some r => decide (r + 1000 ≤ t.at')
  | none => true

/-- R341: the intervals of the body. -/
def timeCheck (x : ScanHead) (tsh : Nat) : TimeCheck → List (Nat × Nat × ScanInstr) → Except (Nat × Nat) Nat
  | t, [] => .ok t.at'
  | t, (p, _, i) :: r =>
    let lights (on : Nat) (ok : Bool) : Except (Nat × Nat) TimeCheck :=
      if ok && t.carries && t.rowOk then
        let d := if nextLights r then max on tsh else on
        .ok ⟨t.at' + d, decide (tsh ≤ d), t.row⟩
      else .error (5, p)
    let row : Except (Nat × Nat) TimeCheck := if t.rowOk then .ok { t with row := some t.at' } else .error (5, p)
    let next : Except (Nat × Nat) TimeCheck := match i with
      | .blank d => .ok ⟨t.at' + d, decide (tsh ≤ d), t.row⟩
      | .readbk _ => .ok ⟨t.at' + tsh, false, t.row⟩
      | .slot j sp => lights (x.on j sp) (x.onOk j sp)
      | .diag d => lights d (decide (50 ≤ d))
      | .prechg => row
      | .rowsel => row
      | _ => .ok t
    match next with
    | .error e => .error e
    | .ok t' => timeCheck x tsh t' r

/-- A scan program that has passed its check: its head, the offset of its body and the body duration in 160 ps steps. -/
structure ScanProg where
  head : ScanHead
  base : Nat
  duration : Nat

/-- R341: the body fits P / N − 2.5 µs, and P / N lies from 65,104 ns to 1,041,667 ns; P in 1/65,536 ns. -/
def periodOk (n p duration : Nat) : Bool :=
  decide ((duration * 160 + 2500000) * 65536 * n ≤ p * 1000) && decide (65104 * 65536 * n ≤ p ∧ p ≤ 1041667 * 65536 * n)

/-- The numbers of channels per port and line that R333 allows. -/
def allowedChannels : List Nat := (List.range 128).map fun k => 3 * (k + 1)

/-- R347: the check of a slot for a frame of size W × H and period P; `others` are the N and LINES of the other running
groups. The result is ERRCODE and ERRWORD, or the program. While no frame program has given W and H, a program is at fault
where it is so at every size (DEDUCED). -/
def checkScan (rd : Nat → Word) (sized : Bool) (geo : Nat → Geometry) (p : Nat) (others : List (Nat × Nat)) :
    Except (Nat × Nat) ScanProg :=
  (scanWords rd 2048 0 []).bind fun ws =>
  (scanPreamble ⟨[], [], 0, 0, 0⟩ ws).bind fun (x, sync, body) =>
  (scanUnroll 2048 body).bind fun trace =>
  (visitCheck x ⟨[], false, [], 0, false⟩ trace).bind fun v =>
  let last := (ws.getLast?.map (·.1)).getD 0
  if !(v.closes x) || v.lines.length != x.lines then .error (3, last)
  else
    let g := geo x.lines
    let time (cpl : Nat) : Except (Nat × Nat) ScanProg :=
      (timeCheck x (shiftSteps cpl) ⟨0, false, none⟩ trace).bind fun d =>
        if periodOk x.n p d then .ok ⟨x, sync + 1, d⟩ else .error (5, sync)
    if (if sized then !g.valid else decide (128 < g.nx * g.ny)) || others.any (fun e => e != (x.n, x.lines)) then
      .error (6, sync)
    else if !((List.range x.k).all fun j => x.onOk j 0) then .error (5, sync)
    else if sized then time g.cpl
    else match allowedChannels.findSome? fun c => (time c).toOption with
      | some y => .ok y
      | none => time 3

/-- Word `i` of slot `slot` of group `g` (R338). -/
def State.scanWord (s : State) (g slot i : Nat) : Word :=
  BitVec.ofNat 32 (leNat (s.bytes (0xE400000000 + g * 0x4000 + slot * 0x2000 + 4 * i) 4))

/-- The check of a slot of group `g` with the given size, if known, and period; `others` as for `checkScan`. -/
def State.checkSlot (s : State) (g slot : Nat) (dims : Option (Nat × Nat)) (p : Nat) (others : List (Nat × Nat)) :
    Except (Nat × Nat) ScanProg :=
  let d := dims.getD (0, 0)
  checkScan (s.scanWord g slot) dims.isSome (fun lines => s.geometry d.1 d.2 lines) p others

/-- The head of the program in a slot of group `g`, if its preamble is whole. -/
def State.slotHead (s : State) (g slot : Nat) : Option ScanHead :=
  (((scanWords (s.scanWord g slot) 2048 0 []).bind fun ws => scanPreamble ⟨[], [], 0, 0, 0⟩ ws).toOption).map (·.1)

/-- A switch of group `g` is to take effect at a coming show instant. -/
def State.switching (s : State) (g : Nat) : Bool := s.scn.switches.any fun e => e.2 == g

/-- The slot of group `g` that is not in force. -/
def State.otherSlot (s : State) (g : Nat) : Nat := 1 - s.get (F.SCN_GSTAT_INFORCE g)

/-- The slot of group `g` that will be in force once the accepted switches have taken effect. -/
def State.comingSlot (s : State) (g : Nat) : Nat :=
  if s.switching g then s.otherSlot g else s.get (F.SCN_GSTAT_INFORCE g)

/-- The head of the program of group `g` that will be in force then. -/
def State.comingHead (s : State) (g : Nat) : ScanHead :=
  if s.switching g then (s.slotHead g (s.otherSlot g)).getD (s.group g).head else (s.group g).head

/-- N and LINES that the running groups other than `g` will have then. -/
def State.comingOthers (s : State) (g : Nat) : List (Nat × Nat) :=
  ((List.range 16).filter fun k => k != g && s.running k).map fun k => ((s.comingHead k).n, (s.comingHead k).lines)

/-- LINES of the scan programs that will be in force for the coming frame (R334), of a running group, or of one that ran
last; 0 while there is no program. -/
def State.comingLines (s : State) : Nat :=
  match (List.range 16).find? s.running with
  | some g => (s.comingHead g).lines
  | none => (((List.range 16).map fun g => (s.comingHead g).lines).find? (· != 0)).getD 0

/-- N and LINES of the running groups other than `g`. -/
def State.otherRunning (s : State) (g : Nat) : List (Nat × Nat) :=
  ((List.range 16).filter fun k => k != g && s.running k).map fun k => ((s.group k).head.n, (s.group k).head.lines)

end Sys2Proof.Machine
end

