-- ==== Sys2Proof/Machine/Scan.lean ====
section
/-! DEFINITION. The scan sequencers at work: starting and stopping groups (R346, R347), the instructions of a scan body
(Table 13.2, R336, R341 to R345, R350), the streams and row frames of the lamp ports (R361, R362, R369), flag readback
and the lamp state map (R371 to R376), and the spare driver cells (R377, R378). -/

namespace Sys2Proof.Machine

/-! ### Streams -/

/-- A command word with the given command and low bits (Table 14.2). -/
def commandWord (cmd low : Nat) : BitVec 16 := BitVec.ofNat 16 (0x2000 + cmd * 1024 + low)

/-- One stream on every lamp port of a group that carries lamps. -/
def State.streamAll (s : State) (g : Nat) (cmd : BitVec 16) : State :=
  (s.groupPorts g).foldl (fun s p => s.emit (.stream p cmd [])) s

/-- The GAIN streams of a group, one per colour that a preamble sets (R345, R361). -/
def State.sendGains (s : State) (g : Nat) (x : ScanHead) : State :=
  x.gains.foldl (fun s e => s.streamAll g (commandWord 1 (e.1 * 256 + e.2))) s

/-- R369: a row frame: a start bit of 1, the row code from bit 7 to bit 0, and a strobe bit of 1. -/
def State.rowFrame (s : State) (g code : Nat) : State := s.emit (.rowFrame g (1#1 ++ BitVec.ofNat 8 code ++ 1#1))

/-! ### Readback rotation -/

/-- R371: the rotation of a group: port, driver and block of every entry, block fastest. -/
def rotation (ports : List Nat) (cpl : Nat) : List (Nat × Nat × Nat) :=
  (ports.map fun p => ((List.range ((cpl + 47) / 48)).map fun d =>
    (List.range (min 6 ((cpl - 48 * d + 7) / 8))).map fun b => (p, d, b)).flatten).flatten

/-- The rotation of group `g`. -/
def State.rotationOf (s : State) (g : Nat) : List (Nat × Nat × Nat) :=
  rotation (s.groupPorts g) (s.groupGeometry g).cpl

/-- LMP.RBPTR[g] shows entry P of the rotation. -/
def State.showPointer (s : State) (g : Nat) : State :=
  let l := s.rotationOf g
  let (p, d, b) := l.getD (s.group g).pointer (8 * g, 0, 0)
  let s := s.set (F.LMP_RBPTR_BLOCK g) b
  let s := s.set (F.LMP_RBPTR_DRV g) d
  let s := s.set (F.LMP_RBPTR_PORT g) (p % 8)
  s.set (F.LMP_RBPTR_ENTRIES g) l.length

/-- R371: the pointer advances at a refresh boundary; a wrap counts a sweep. -/
def State.advancePointer (s : State) (g : Nat) : State :=
  let n := (s.rotationOf g).length
  let p := (s.group g).pointer + 1
  let s := if n ≤ p then (s.modGroup g fun x => { x with pointer := 0 }).count (F.LMP_SWEEPS_COUNT g) 1
    else s.modGroup g fun x => { x with pointer := p }
  s.showPointer g

/-! ### The lamp state map -/

/-- The address of a lamp's state byte (R374). -/
def State.lampByte (s : State) (n : Nat) : Nat := s.get F.LMP_STBASE_ADDR * 4096 + n

/-- R374: a check result other than 00 on a lamp of port `p`. -/
def State.lampResult (s : State) (p n code : Nat) : State :=
  let a := s.lampByte n
  if code = 0 ∨ !(s.inMemory a 1) then s
  else
    let old := (s.byte a).toNat
    let s := s.store a [BitVec.ofNat 8 (code + 4 + old / 8 % 2 * 8)]
    if 2 ≤ code ∧ old % 4 ≠ code then (s.count (F.LMP_PCNT_FAULTS p) 1).flagF (F.LMP_PSTAT_EVFAULT p) else s

/-- The map is kept and is not being cleared (R374, R376). -/
def State.mapLive (s : State) : Bool := s.on F.LMP_CFG_MAPEN && !(s.on F.LMP_STAT_CLEARING)

/-- R372 to R374: an accepted READ FLAGS response of an entry on a line; code `i` is in bits 2i and 2i + 1, its first bit
first. -/
def State.flagsRead (s : State) (g line : Nat) (e : Nat × Nat × Nat) (bits : BitVec 16) : State :=
  if !s.mapLive then s
  else
    let x := s.groupGeometry g
    let (p, d, b) := e
    (List.range 8).foldl
      (fun s i =>
        let ch := 48 * d + 8 * b + i
        let code := 2 * b2n (bits.getLsbD (2 * i)) + b2n (bits.getLsbD (2 * i + 1))
        if ch < x.cpl then s.lampResult p (x.lamp p line ch) code else s) s

/-- R373: a response without its presence bit. -/
def State.noResponse (s : State) (p : Nat) : State :=
  (s.count (F.LMP_PCNT_NORESP p) 1).flagF (F.LMP_PSTAT_EVNORESP p)

/-- R374: an epoch advance: every byte of a lamp of a port that carries lamps takes PREV = CUR and CUR = 0. -/
def State.advanceEpoch (s : State) : State :=
  let s := s.wrapUp F.LMP_EPOCH_COUNT
  match s.cmp.dims with
  | none => s
  | some (w, h) =>
    (List.range (3 * w * h)).foldl
      (fun s n =>
        let a := s.lampByte n
        if s.inMemory a 1 then
          let b := (s.byte a).toNat
          let b' := BitVec.ofNat 8 (b % 4 + b / 4 % 2 * 8)
          if b' = s.byte a then s else s.store a [b']
        else s) s

/-! ### Starting, stopping and halting -/

/-- A group is no longer in a line visit: a stop asked for takes effect, and a line-end hold takes hold (R346, R353). -/
def State.lineEnd (s : State) (g : Nat) : State :=
  let x := s.group g
  let s := s.modGroup g fun y => { y with line := none, reads := 0, held := y.held || s.lineHolds, stopping := false }
  let s := if x.stopping then s.set (F.SCN_GSTAT_STATE g) 0 else s
  if x.stopping || s.lineHolds then s.updateDark else s

/-- R347: a group halts with a fault. -/
def State.haltGroup (s : State) (g code word slot : Nat) : State :=
  let s := s.set (F.SCN_GSTAT_STATE g) 2
  let s := s.set (F.SCN_GSTAT_ERRCODE g) code
  let s := s.set (F.SCN_GSTAT_ERRWORD g) word
  let s := s.set (F.SCN_GSTAT_ERRSLOT g) slot
  ((s.modGroup g fun x => { x with line := none, stopping := false }).flagF (F.SCN_GSTAT_EVHALT g)).updateDark

/-- R336: the residuals of every lamp start from zero. -/
def State.clearAllResiduals (s : State) : State :=
  let there (a : Nat) : Bool := decide (residualAddr 0 ≤ a ∧ a < residualAddr 786432)
  { s with
    mem := s.mem.filter fun c => !(there c.1)
    poison := s.poison.filter fun e => !(there e.1)
    soft := s.soft.filter fun w => !(there w) }

/-- R336: the residuals of a group's lamps start from zero. Which they are is not known before a frame program has given
W and H; no lamp has been visited then, and all start from zero (DEDUCED). -/
def State.clearResiduals (s : State) (g : Nat) : State :=
  if s.cmp.dims.isNone then s.clearAllResiduals
  else
    let n := (s.groupGeometry g).perPort
    (s.groupPorts g).foldl (fun s p => s.putBytes (residualAddr (p * n)) (List.replicate (2 * n) 0)) s

/-- The body duration of the program in force (R347), in the group and in SCN.GTIME. While W and H are not known, t_SH and
with it the duration are not, and it is a free value. -/
def State.showDuration (s : State) (g duration : Nat) : State :=
  let (d, s) := if s.cmp.dims.isNone then let (f, s) := s.draw; (f.toNat % 2 ^ 24, s) else (duration, s)
  (s.modGroup g fun x => { x with duration := d }).set (F.SCN_GTIME_NS g) (d * 160 / 1000)

/-- A slot of a group comes into force. -/
def State.takeSlotInForce (s : State) (g slot : Nat) : State :=
  (s.modGroup g fun x => { x with inForce := true }).set (F.SCN_GSTAT_INFORCE g) slot

/-- A group takes a checked program of a slot into force. -/
def State.takeProgram (s : State) (g slot : Nat) (p : ScanProg) : State :=
  let s := s.modGroup g fun x => { x with head := p.head, base := p.base, pos := 0, loop := none }
  (s.takeSlotInForce g slot).showDuration g p.duration

/-- R346: START: the slot comes into force, is checked, and the group runs or halts. -/
def State.startGroup (s : State) (g slot : Nat) : State :=
  if !s.isTile || !(s.groupUsed g) || s.running g then s
  else if (s.group g).sliceHold then s.modGroup g fun x => { x with startHeld := some (slot == 1) }
  else
    let s := s.takeSlotInForce g slot
    match s.checkSlot g slot s.cmp.dims s.period (s.otherRunning g) with
    | .error (c, w) => s.haltGroup g c w slot
    | .ok p =>
      let s := (s.takeProgram g slot p).set (F.SCN_GSTAT_STATE g) 1
      let s := s.modGroup g fun x => { x with line := none, stopping := false, pointer := 0, held := s.lineHolds }
      ((((s.clearResiduals g).showPointer g).streamAll g (commandWord 4 0)).sendGains g p.head).updateDark

/-- R346: STOP: the group stops at the end of its line visit. -/
def State.stopGroup (s : State) (g : Nat) : State :=
  if !s.isTile || !(s.groupUsed g) || !(s.running g) then s
  else if (s.group g).line.isSome then s.modGroup g fun x => { x with stopping := true }
  else (s.set (F.SCN_GSTAT_STATE g) 0).updateDark

/-- GROUP_START: a write of 1 to SCN.GCTL[g].START with its SLOT (R346). -/
def execGroupStart (g : Fin 16) (slot : Bool) (s : State) : Host.Outcome State Fault Refusal :=
  .next (if s.isTile then (s.set (F.SCN_GCTL_SLOT g) (b2n slot)).startGroup g (b2n slot) else s)

/-- GROUP_STOP (R346). -/
def execGroupStop (g : Fin 16) (s : State) : Host.Outcome State Fault Refusal := .next (s.stopGroup g)

/-! ### The instructions of a body -/

/-- The word of a body that a running group executes is at fault (Table 13.3). -/
def State.scanFault (s : State) (g code : Nat) : State :=
  s.haltGroup g code ((s.group g).base + (s.group g).pos) (s.get (F.SCN_GSTAT_INFORCE g))

/-- The next word of a body, round its loop (R339). -/
def Group.next (x : Group) : Group :=
  match x.loop with
  | some l =>
    if x.pos < l.last then { x with pos := x.pos + 1 }
    else if l.i + 1 < l.n then { x with pos := l.first, loop := some { l with i := l.i + 1 } }
    else { x with pos := x.pos + 1, loop := none }
  | none => { x with pos := x.pos + 1 }

/-- The interval of a SLOT or DIAG ends at the next timed instruction (R341). -/
def Group.settle (x : Group) (lights : Bool) (tsh : Nat) : Group :=
  match x.lit with
  | some on => { x with elapsed := x.elapsed + (if lights then max on tsh else on), lit := none }
  | none => x

/-- A running group executes a word: `f` on a tile whose group runs, and nothing otherwise. -/
def State.scanStep (s : State) (g : Nat) (f : State → State) : State :=
  if s.isTile && s.running g then (f s).modGroup g Group.next else s

/-- t_SH of group `g` in steps. -/
def State.groupShift (s : State) (g : Nat) : Nat := shiftSteps (s.groupGeometry g).cpl

/-- R336: refresh value and residual of a lamp code. -/
def refreshValue (k code residual : Nat) : Nat × Nat :=
  let c := code / 4
  let sh := 18 - k
  let acc := residual + c % 2 ^ sh
  (min (c / 2 ^ sh + acc / 2 ^ sh) (2 ^ k - 1), acc % 2 ^ sh)

/-- R336: the refresh values of one port's lamps on a line, and the residuals written back. -/
def State.portVisit (s : State) (x : Geometry) (k half p line : Nat) : List Nat × State :=
  (List.range x.cpl).foldl
    (fun (acc : List Nat × State) ch =>
      let j := p * x.perPort + line * x.cpl + ch
      let (q, r) := refreshValue k (s.codeAt half j) (leNat (s.bytes (residualAddr j) 2) % 2 ^ 14)
      (acc.1 ++ [q], acc.2.putBytes (residualAddr j) (leBytes 2 r))) ([], s)

/-- LINE: the current line becomes L + i or L, and its visit begins: its refresh values are formed (R336), or it is dark
for lack of data (R350). -/
def State.scanLine (s : State) (g : Nat) (usei : Bool) (l : Nat) (ready : Bool) : State :=
  let s := s.lineEnd g
  let x := s.group g
  let n := if usei then l + ((x.loop.map (·.i)).getD 0) else l
  if !(s.running g) then s
  else if x.head.lines ≤ n then s.scanFault g 3
  else if !ready then
    ((s.modGroup g fun y => { y with line := some n, ready := false, values := [] }).count F.SCN_UNDERCNT_COUNT 1).flagF
      ⟨.SCN_EV, 3, 1⟩
  else
    let geo := s.groupGeometry g
    let (vs, s) := (s.groupPorts g).foldl
      (fun (acc : List (List Nat) × State) p =>
        let (v, s) := acc.2.portVisit geo x.head.k s.half p n
        (acc.1 ++ [v], s)) ([], s)
    s.modGroup g fun y => { y with line := some n, ready := true, values := vs }

/-- The OE placement trim of a group, signed, in 20 ps (Table 21.5). -/
def State.oeTrim (s : State) (g : Nat) : Int := sgn 8 (s.asr.taps.getD (48 + g) 0).toNat

/-- An ON pulse, 2.4 ns after the start of its interval (R360), unless the group or its visit is dark. -/
def State.lightGroup (s : State) (g on : Nat) (dark : Bool) : State :=
  let x := s.group g
  let s' := s.modGroup g fun y => { y with lit := some on }
  if dark || s.groupDark g then s'
  else
    let first := s.scn.edge + x.elapsed + 15
    (s'.modGroup g fun y => { y with pulse := some (first, first + on) }).emit
      (.light g (((x.elapsed + 15) * 8 : Nat) + s.oeTrim g) on)

/-- R361: the PLANE streams of a group's ports for the current line. -/
def State.planeStreams (s : State) (g : Nat) (low : Bool) (line : Nat) (data : Nat → List Bool) : State :=
  (s.groupPorts g).zipIdx.foldl
    (fun s e => s.emit (.stream e.1 (commandWord 0 (b2n low * 512 + line)) (data e.2))) s

/-- SLOT: 1/2^SP of plane j of the current line (R335, R341, R361). -/
def State.scanSlot (s : State) (g j sp : Nat) : State :=
  let s := s.modGroup g fun x => x.settle true (s.groupShift g)
  let x := s.group g
  match x.line with
  | none => s.scanFault g 3
  | some line =>
    if 17 < j then s.scanFault g 2
    else if x.head.k ≤ j then s.scanFault g 3
    else
      let s := if x.ready then
          s.planeStreams g (x.head.low j) line fun i => (x.values.getD i []).map fun q => bit q j
        else s
      s.lightGroup g (x.head.on j sp) (!x.ready)

/-- DIAG: every channel at LOW in a diagnostic refresh, dark otherwise (R343, R361) and in a visit whose data is not ready
(R350). -/
def State.scanDiag (s : State) (g d : Nat) : State :=
  let s := s.modGroup g fun x => x.settle true (s.groupShift g)
  match (s.group g).line with
  | none => s.scanFault g 3
  | some line =>
    let n := (s.groupGeometry g).cpl
    (s.planeStreams g true line fun _ => List.replicate n s.scn.diag).lightGroup g d (!s.scn.diag || !(s.group g).ready)

/-- An interval that lights nothing. -/
def State.scanDarkTime (s : State) (g d : Nat) : State :=
  s.modGroup g fun x => let y := x.settle false (s.groupShift g); { y with elapsed := y.elapsed + d }

/-- R368: READ streams are sent: RBEN is 1 and the response fits t_SH; a short one sets RBSHORT. -/
def State.readAllowed (s : State) (g steps : Nat) : Bool × State :=
  if !(s.on F.LMP_CFG_RBEN) then (false, s)
  else if s.groupShift g < steps then (false, s.set F.LMP_STAT_RBSHORT 1)
  else (true, s)

/-- READBK: flags of the rotation's entry, or headroom of the whole group, as the drivers answer (R344, R367, R371 to
R374). Response bits after the presence bit are in `bits`, the first one in bit 0. -/
def State.scanReadback (s : State) (g : Nat) (headroom present : Bool) (bits : BitVec 16) : State :=
  let s := s.scanDarkTime g (s.groupShift g)
  match (s.group g).line with
  | none => s.scanFault g 3
  | some line =>
    if headroom then
      let (go, s) := s.readAllowed g 280
      if !go then s
      else
        let s := s.streamAll g (commandWord 3 0)
        if present then
          let f := bits.toNat % 8
          let s := s.set (F.LMP_HR_SHORT g) (s.get (F.LMP_HR_SHORT g) ||| f)
          s.modScn fun c => { c with headroom := (g, f) :: c.headroom }
        else ((s.groupPorts g).foldl (fun s p => s.noResponse p) s).set (F.LMP_HR_NORESP g) 1
    else
      let l := s.rotationOf g
      let k := (s.group g).reads
      let s := s.modGroup g fun x => { x with reads := k + 1 }
      let (go, s) := s.readAllowed g 800
      if !go || l.isEmpty then s
      else
        let e := l.getD (((s.group g).pointer + k) % l.length) (8 * g, 0, 0)
        let s := s.emit (.stream e.1 (commandWord 2 (e.2.1 * 64 + e.2.2)) [])
        if present then s.flagsRead g line e bits else s.noResponse e.1

/-- LINE (R339, R350); the operand says whether the visit's data is ready. -/
def execLine (g : Fin 16) (usei : Bool) (l : BitVec 6) (ready : Bool) (s : State) : Host.Outcome State Fault Refusal :=
  .next (s.scanStep g fun s => s.scanLine g usei l.toNat ready)

/-- The preamble of a group's program: one that already has its SYNC begins anew. -/
def ScanHead.fresh (x : ScanHead) : ScanHead := if x.n = 0 then x else ⟨[], [], 0, 0, 0⟩

/-- A preamble word of a group (R339): the head it gives, or a fault at its offset. -/
def State.scanPreambleWord (s : State) (g : Nat) (fieldOk : Bool) (f : ScanHead → ScanHead × Bool) : State :=
  if !s.isTile || !(s.groupUsed g) then s
  else
    let at' := if (s.group g).head.n = 0 then (s.group g).base else 0
    let fault (code : Nat) : State := s.haltGroup g code at' (s.get (F.SCN_GSTAT_INFORCE g))
    if !fieldOk then fault 2
    else
      let (x, ok) := f (s.group g).head.fresh
      if ok then s.modGroup g fun y => { y with head := x, base := at' + 1, pos := 0 } else fault 3

/-- PLANE: declares plane j at LOW or FULL (Table 13.2). -/
def execPlane (g : Fin 16) (j : BitVec 5) (low : Bool) (s : State) : Host.Outcome State Fault Refusal :=
  .next (s.scanPreambleWord g (decide (j.toNat ≤ 17)) fun x => x.plane j.toNat low)

/-- GAIN: current of a colour before the first ON pulse (R345). -/
def execGain (g : Fin 16) (col : BitVec 2) (value : Byte) (s : State) : Host.Outcome State Fault Refusal :=
  .next (s.scanPreambleWord g true fun x => x.gain col.toNat value.toNat)

/-- SYNC: ends the preamble with N, LINES and t0 (Table 13.2). -/
def execSync (g : Fin 16) (n : Byte) (lines : BitVec 6) (t0 : BitVec 12) (s : State) :
    Host.Outcome State Fault Refusal :=
  .next (s.scanPreambleWord g (decide (50 ≤ t0.toNat)) fun x =>
    ({ x with n := n.toNat + 1, lines := lines.toNat + 1, t0 := t0.toNat }, x.planesOk))

/-- SLOT (R341). -/
def execSlot (g : Fin 16) (j : BitVec 5) (sp : BitVec 2) (s : State) : Host.Outcome State Fault Refusal :=
  .next (s.scanStep g fun s => s.scanSlot g j.toNat sp.toNat)

/-- BLANK: OE_N high for D steps; D is at least 1 (Table 13.2). -/
def execBlank (g : Fin 16) (d : BitVec 26) (s : State) : Host.Outcome State Fault Refusal :=
  .next (s.scanStep g fun s => if d = 0 then s.scanFault g 2 else s.scanDarkTime g d.toNat)

/-- PRECHG: row code 0xFF (R369). -/
def execPrechg (g : Fin 16) (s : State) : Host.Outcome State Fault Refusal :=
  .next (s.scanStep g fun s => s.rowFrame g 0xFF)

/-- DIAG (R343). -/
def execDiag (g : Fin 16) (d : BitVec 26) (s : State) : Host.Outcome State Fault Refusal :=
  .next (s.scanStep g fun s => s.scanDiag g d.toNat)

/-- ROWSEL: the current line's row code (R369). -/
def execRowsel (g : Fin 16) (s : State) : Host.Outcome State Fault Refusal :=
  .next (s.scanStep g fun s => match (s.group g).line with
    | some l => s.rowFrame g l
    | none => s.scanFault g 3)

/-- LOOP: the next LEN words run n times, with i from 0 (R339). The operand n is n − 1 as encoded. -/
def execLoop (g : Fin 16) (n : BitVec 6) (len : BitVec 11) (s : State) : Host.Outcome State Fault Refusal :=
  .next (s.scanStep g fun s =>
    let x := s.group g
    if len = 0 then s.scanFault g 2
    else if x.loop.isSome then s.scanFault g 3
    else
      -- the loop's first word follows; `Group.next` steps onto it
      s.modGroup g fun y => { y with loop := some ⟨y.pos + 1, y.pos + len.toNat, n.toNat + 1, 0⟩ })

/-- READBK, with the response that the column drivers give (R344). -/
def execReadbk (g : Fin 16) (headroom present : Bool) (bits : BitVec 16) (s : State) :
    Host.Outcome State Fault Refusal :=
  .next (s.scanStep g fun s => s.scanReadback g headroom present bits)

/-- R345, R361: the start of the tail: the GAIN streams of the program whose ON pulses follow, which after the last refresh
before a switch is the new one. A group that has stopped has an idle port (R346). -/
def State.tail (s : State) (g : Nat) : State :=
  if !(s.running g) then s
  else s.sendGains g (if decide (s.refreshes ≤ s.scn.boundary) then s.comingHead g else (s.group g).head)

/-- END: the body ends, and the tail begins (R342). -/
def execEndScan (g : Fin 16) (s : State) : Host.Outcome State Fault Refusal :=
  .next (if s.isTile && s.running g then
      let s := s.modGroup g fun x => { x.settle false (s.groupShift g) with pos := 0, loop := none }
      (s.lineEnd g).tail g
    else s)

/-! ### Map and spare cells -/

/-- R376: a write of 1 to LMP.CFG.CLEAR. -/
def State.startClear (s : State) : State := if s.isTile then s.set F.LMP_STAT_CLEARING 1 else s

/-- MAP_CLEAR (R376). -/
def execMapClear (s : State) : Host.Outcome State Fault Refusal := .next s.startClear

/-- MAP_CLEAR_DONE: 0 in every byte of the map (R376). -/
def execMapClearDone (s : State) : Host.Outcome State Fault Refusal :=
  .next (if s.on F.LMP_STAT_CLEARING then
      let d := s.cmp.dims.getD (0, 0)
      let s := (List.range (3 * d.1 * d.2)).foldl
        (fun s n => if s.inMemory (s.lampByte n) 1 then s.store (s.lampByte n) [0] else s) s
      s.set F.LMP_STAT_CLEARING 0
    else s)

/-- R378: the spare cell of LPD pad `p` takes over. -/
def State.swapCell (s : State) (p : Nat) : State :=
  let s := s.disarm 2 p
  let s := s.set (F.LMP_PSTAT_ARMED p) 0
  let s := (s.set (F.LMP_PSTAT_SPARECELL p) 1).flagF (F.LMP_PSTAT_EVCELL p)
  s.substitutedEntry 0 4 (·.cells) fun m => { m with cells := m.cells ++ [p] }

/-- R89, R378: SPARE class 0x02: 0 armed, 2 the cell is in use; at once while the group does not run. -/
def State.spareCell (s : State) (p : Nat) : Nat × State :=
  if s.on (F.LMP_PSTAT_SPARECELL p) || s.on (F.LMP_PSTAT_ARMED p) then (2, s)
  else
    let s := (s.arm 2 p).set (F.LMP_PSTAT_ARMED p) 1
    (0, if s.running (p / 8) then s else s.swapCell p)

/-- LPD_CELL_SUBSTITUTION: the group's refresh tail (R378). -/
def execLpdCellSubstitution (p : Fin 128) (s : State) : Host.Outcome State Fault Refusal :=
  .next (if s.on (F.LMP_PSTAT_ARMED p) then s.swapCell p else s)

/-- R377: a failed pad monitor check. -/
def State.padFailed (s : State) (p : Nat) : State :=
  (s.count (F.LMP_PADFAIL_COUNT p) 1).flagF (F.LMP_PSTAT_EVPAD p)

end Sys2Proof.Machine
end

