-- ==== Sys2Proof/Machine/Proof.lean ====
section
/-! DEFINITION. Messages to the master sender (R179) and proof of display: signatures, steps, anchors and the freeze
check (R517 to R521). -/

namespace Sys2Proof.Machine

/-- R179: a message of this tile to its master sender; none if its queue is full or no port carries it. -/
def State.sendUp (s : State) (kind : Nat) (body : List Byte) : Option State :=
  let p := s.masterPort
  if s.isTile && s.up p && !s.midnight && decide (s.msgsWaiting p < 32) then
    let c : Cell := .msg ⟨BitVec.ofNat 8 kind, BitVec.ofNat 7 (s.get F.LNK_POS_POSITION), false, true, body⟩
    some (s.sendVc1 p ⟨c.units, none, true, none⟩)
  else none

/-- One byte of the CRC-64 of R517, bit 7 first. -/
def crc64Byte (c : BitVec 64) (b : Byte) : BitVec 64 :=
  (List.range 8).foldl (fun c _ => if c.getLsbD 63 then (c <<< 1) ^^^ 0x42F0E1EBA9EA3693#64 else c <<< 1)
    (c ^^^ (b.setWidth 64 <<< 56))

/-- R517: the CRC-64/ECMA-182 of bytes. -/
def crc64 (l : List Byte) : BitVec 64 := l.foldl crc64Byte 0

/-- R517: the signature of a half for a tile of W × H pixels. -/
def State.halfSignature (s : State) (half w h : Nat) : BitVec 64 := crc64 (s.bytes (codeAddr half 0) (9 * w * h))

/-- The proof record changed. -/
def State.modProof (s : State) (f : ProofState → ProofState) : State := s.modAsr fun a => { a with proof := f a.proof }

/-- R521: a composed frame compared with the previous one. -/
def State.freezeCheck (s : State) (f : FrameRun) (sig : BitVec 64) : State :=
  let prev := s.asr.proof
  let advanced := f.gens.any fun e => !(bit f.stale e.1) &&
    (match prev.gens.lookup e.1 with | some g => g != e.2 | none => false)
  let same := prev.sig == some sig
  let s := s.modProof fun p => { p with gens := f.gens, sig := some sig }
  let run := if advanced && same then satN 8 (s.get F.ASR_PROOFSTAT_RUN + 1) else 0
  let s := s.set F.ASR_PROOFSTAT_RUN run
  let was := s.on F.ASR_PROOFSTAT_FREEZE
  let now := if prev.sig.isSome && !same then false
    else was || decide (max 1 (s.get F.ASR_PROOFCFG_FREEZEN) ≤ run)
  if now = was then s else (s.set F.ASR_PROOFSTAT_FREEZE (b2n now)).flag .ASR_EV 7

/-- Bytes in words, the first in [31:24]. -/
def State.setBytesBE (s : State) (r : Nat → Reg) (l : List Byte) : State :=
  (List.range (l.length / 4)).foldl (fun s k => s.wr (r k) (BitVec.ofNat 32 (beAt l (4 * k) 4))) s

/-- The newest valid power-loss anchor of the journal (R504, R519): TYPE 0x02, the head in bytes 16 to 27 of the first page
and 6 to 25 of the second. -/
def State.newestAnchor (s : State) : List Byte :=
  let valid := ((List.range 96).map (· + 24)).filter fun p =>
    let a := s.nvPage p
    let b := s.nvPage (journalAfter p)
    pageValid a && pageValid b && leAt a 4 1 == 2 && leAt a 5 1 == 0 && leAt b 4 1 == 2 && leAt b 5 1 == 1
      && leAt b 0 4 == leAt a 0 4 + 1
  match valid.foldl (fun (best : Option Nat) p =>
      match best with
      | some q => if leAt (s.nvPage q) 0 4 < leAt (s.nvPage p) 0 4 then some p else some q
      | none => some p) none with
  | some p => slice (s.nvPage p) 16 12 ++ slice (s.nvPage (journalAfter p)) 6 20
  | none => List.replicate 32 0

/-- The device identity as 16 bytes. -/
def State.devidBytes (s : State) : List Byte := beBytes 16 s.devid.toNat

/-- R519: the head from which a chain begins. -/
def State.chainStart (s : State) : List Byte :=
  sha256 (s.devidBytes ++ beBytes 4 (s.rd .BOT_NONCE).toNat ++ beBytes 4 (s.rd .BOT_MDIG).toNat ++ s.newestAnchor)

/-- Table 21.11: a step record. -/
def State.stepRecord (s : State) (p : Period) (sig : BitVec 64) (step : Nat) : List Byte :=
  beBytes 8 sig.toNat ++ beBytes 6 (wuSec p.instant) ++ beBytes 4 (wuNs p.instant) ++ beBytes 4 (p.cid.getD (s.rd .CMP_CID)).toNat
    ++ [BitVec.ofNat 8 (b2n p.isNew + 2 * b2n p.dark + 4 * b2n p.miss + 8 * b2n p.stale), 0] ++ beBytes 4 step
    ++ [0, 0, 0, 0]

/-- Table 21.12: an anchor with its signature. -/
def State.anchorBody (s : State) (seq step instant : Nat) (h : List Byte) : List Byte :=
  let l := s.devidBytes ++ beBytes 4 seq ++ beBytes 4 (s.rd .BOT_NONCE).toNat ++ beBytes 4 (s.rd .BOT_MDIG).toNat
    ++ beBytes 4 step ++ beBytes 6 (wuSec instant) ++ beBytes 4 (wuNs instant) ++ [0, 0] ++ h
  l ++ ecdsaSign Config.deviceKey (sha256 l)

/-- R520: the anchor that waits is sent, or goes on waiting. -/
def State.sendAnchor (s : State) : State :=
  match s.asr.proof.waiting with
  | none => s
  | some a => match s.sendUp 0xF1 a.body with
    | some s =>
      let s := s.modProof fun p => { p with waiting := none }
      (s.set F.ASR_PROOFSTAT_ANCHPEND 0).wr .ASR_ANCHSEQ (BitVec.ofNat 32 a.seq)
    | none => s.set F.ASR_PROOFSTAT_ANCHPEND 1

/-- R520: an anchor is signed at a step; one that still waits is replaced. -/
def State.signAnchor (s : State) (step instant : Nat) (h : List Byte) : State :=
  let seq := s.asr.proof.anchors
  let s := if s.asr.proof.waiting.isSome then s.flag .ASR_EV 6 else s
  s.modProof fun p =>
    { p with anchors := seq + 1, lastAnchor := some instant, waiting := some ⟨seq, s.anchorBody seq step instant h⟩ }

/-- R518 to R520: the step of a frame period that has ended. -/
def State.formStep (s : State) (p : Period) : State :=
  if !(s.on F.ASR_PROOFCFG_EN) || !s.asr.proof.running then s
  else
    let s := if s.asr.proof.started then s
      else (s.modProof fun x =>
        { x with started := true, head := s.chainStart, step := 0, anchors := 0, lastAnchor := none }).wr .ASR_STEPS 0
    let sig := s.scn.sigs.getD s.half 0
    let step := s.asr.proof.step
    let h := sha256 (s.asr.proof.head ++ s.stepRecord p sig step)
    let s := s.modProof fun x => { x with head := h, step := (step + 1) % 2 ^ 32 }
    let s := (s.setBytesBE .ASR_HEAD h).wrapUp F.ASR_STEPS_COUNT
    let s := s.wr .ASR_SIGHI (sig.extractLsb' 32 32)
    let s := s.wr .ASR_SIGLO (sig.extractLsb' 0 32)
    let per := clampN 1 3600 (s.get F.ASR_PROOFCFG_PERIOD)
    let due := match s.asr.proof.lastAnchor with
      | none => true
      | some t => decide (t + wuOf per 0 0 ≤ p.instant)
    (if due then s.signAnchor step p.instant h else s).sendAnchor

/-- R519: a write of ASR.PROOFCFG.EN: 1 starts a new chain at the next step, 0 stops it. An anchor that waits goes on
waiting (R520). -/
def State.enableProof (s : State) (en : Bool) : State :=
  (s.set F.ASR_PROOFCFG_EN (b2n en)).modProof fun x => { x with running := en, started := false }

/-- PROOF_ENABLE (R519); in sender role ASR.PROOFCFG ignores writes. -/
def execProofEnable (en : Bool) (s : State) : Host.Outcome State Fault Refusal :=
  .next (if s.isTile then s.enableProof en else s)

end Sys2Proof.Machine
end

