-- ==== Sys2Proof/Machine/Pwr.lean ====
section
/-! DEFINITION. The power manager: the core rail and adaptive voltage (R428 to R435), sensing and rail control (R425 to
R427), and the LED rails (R436 to R440). -/

namespace Sys2Proof.Machine

/-- The power manager's record changed. -/
def State.modPwr (s : State) (f : PwrState → PwrState) : State := { s with pwr := f s.pwr }

/-- A rail's loop changed; rail 0 is VDD_CORE. -/
def State.modLoop (s : State) (k : Nat) (f : Loop → Loop) : State := s.modPwr fun p => { p with loops := modAt k f p.loops }

/-! ### The core rail -/

/-- R428: a voltage code above 60 acts as 60. -/
def vcode (c : Nat) : Nat := min 60 c

/-- The lowest and the highest CODE (R432). -/
def State.vmin (s : State) : Nat := vcode (s.get F.PWR_AVSLIM_VMIN)
def State.vmax (s : State) : Nat := vcode (s.get F.PWR_AVSLIM_VMAX)

/-- CODE in force, with STAT.ATMIN (R428, R432). -/
def State.setCode (s : State) (c : Nat) : State :=
  let s := s.set F.PWR_VCORE_CODE (vcode c)
  let s := s.modLoop 0 fun l => { l with set := (600 + 5 * vcode c : Nat) }
  s.set F.PWR_STAT_ATMIN (b2n (decide (vcode c = s.vmin)))

/-- CODE where nothing is decided: the code of Midnight, VMAX in the cold and during a test slice, PWR.VSET while
adaptive voltage is off; else as it is (R432, R435, R509, Table 17.4). -/
def State.followCode (s : State) : State :=
  if s.on F.PWR_STAT_MIDNIGHT then s.setCode (s.get F.PWR_MID_CODE)
  else if s.on F.PWR_STAT_COLD || s.on F.ASR_STAT_SLICE then s.setCode s.vmax
  else if !(s.on F.PWR_AVSCFG_EN) then s.setCode (s.get F.PWR_VSET_CODE)
  else s.setCode (s.get F.PWR_VCORE_CODE)

/-- R435: COLD follows the coldest valid on-die sensor; EVCOLD on a change. -/
def State.updateCold (s : State) (valid : List Int) : State :=
  let cold := valid.isEmpty || valid.any fun t => decide (t < -160)
  let s := if cold = s.on F.PWR_STAT_COLD then s else (s.set F.PWR_STAT_COLD (b2n cold)).flagF ⟨.PWR_EV, 1, 1⟩
  s.followCode

/-- R431: a measurement is shown. -/
def State.showSlack (s : State) (slack : Nat) (miss : Bool) : State :=
  let us := if miss then 0 else min 65535 slack
  let s := s.set F.PWR_SLACK_US us
  let s := s.set F.PWR_SLACK_MISS (b2n miss)
  s.set F.PWR_SLACKMIN_US (min us (s.get F.PWR_SLACKMIN_US))

/-- R432: more voltage is wanted: CODE rises, or ATMAX is set at VMAX. -/
def State.raiseCode (s : State) (k : Nat) : State :=
  let c := s.get F.PWR_VCORE_CODE
  let s := s.modPwr fun p => { p with above := 0 }
  if s.vmax ≤ c then (s.set F.PWR_STAT_ATMAX 1).flagF ⟨.PWR_EV, 0, 1⟩
  else (s.set F.PWR_STAT_ATMAX 0).setCode (clampN s.vmin s.vmax (c + k))

/-- R432: the decision of one measurement. -/
def State.avsDecision (s : State) (slack : Nat) (miss : Bool) : State :=
  if !(s.on F.PWR_AVSCFG_EN) || s.on F.PWR_STAT_COLD || s.on F.PWR_STAT_MIDNIGHT || s.on F.ASR_STAT_SLICE then s
  else if miss then s.raiseCode (s.get F.PWR_AVSCFG_UPMISS)
  else if slack < s.get F.PWR_AVSCFG_SLACKLO * 10 then s.raiseCode 1
  else
    let s := s.set F.PWR_STAT_ATMAX 0
    let c := s.get F.PWR_VCORE_CODE
    if s.get F.PWR_AVSCFG_SLACKHI * 10 < slack then
      let n := s.pwr.above + 1
      if max 1 (s.get F.PWR_AVSCFG_HOLDN) ≤ n then
        (s.modPwr fun p => { p with above := 0 }).setCode (clampN s.vmin s.vmax (c - 1))
      else (s.modPwr fun p => { p with above := n }).setCode (clampN s.vmin s.vmax c)
    else (s.modPwr fun p => { p with above := 0 }).setCode (clampN s.vmin s.vmax c)

/-- R431, R432: a measurement and its decision. -/
def State.avsMeasure (s : State) (slack : Nat) (miss : Bool) : State := (s.showSlack slack miss).avsDecision slack miss

/-- R433: a write of PWR.AVSPCID arms the preset. -/
def State.armPreset (s : State) (cid : Word) : State :=
  ((s.modPwr fun p => { p with armed := some cid }).wr .PWR_AVSPCID cid).set F.PWR_STAT_PREARM 1

/-- R433: the preset at a compose start at which `took` is taken into use. In the cold it stays armed (R435), and while
adaptive voltage is off CODE follows PWR.VSET (DEDUCED). -/
def State.takePreset (s : State) (took : Option (BitVec 32)) : State :=
  match s.pwr.armed with
  | none => s
  | some id =>
    if (id = 0 ∨ took = some id) ∧ !(s.on F.PWR_STAT_COLD) then
      let s := (s.modPwr fun p => { p with armed := none }).set F.PWR_STAT_PREARM 0
      if s.on F.PWR_AVSCFG_EN then s.setCode (max (s.get F.PWR_VCORE_CODE) (vcode (s.get F.PWR_AVSPRE_CODE))) else s
    else s

/-- AVSPCID_WRITE (R433). -/
def execAvspcidWrite (value : Word) (s : State) : Host.Outcome State Fault Refusal := .next (s.armPreset value)

/-- SENDER_AVS_WINDOW: a 1 ms window's slack, or a miss (R434). -/
def execSenderAvsWindow (slack : BitVec 16) (miss : Bool) (s : State) : Host.Outcome State Fault Refusal :=
  .next (if s.isTile then s else s.avsMeasure slack.toNat miss)

/-- SPEED_MEASURE (R430). -/
def execSpeedMeasure (speed : BitVec 16) (s : State) : Host.Outcome State Fault Refusal :=
  .next (s.set F.PWR_SPEED_S speed.toNat)

/-- CORE_SAG (R429). -/
def execCoreSag (s : State) : Host.Outcome State Fault Refusal := .next (s.flagF ⟨.PWR_EV, 4, 1⟩)

/-! ### Phases and sensing -/

/-- R425: the rail that a phase serves: 0 none, 1 VDD_CORE, 2 to 5 an LED rail; in sender role no LED rail. -/
def State.phaseRail (s : State) (k : Nat) : Nat :=
  let r := s.get (F.PWR_PHASE_RAIL k)
  if 6 ≤ r ∨ (2 ≤ r ∧ !s.isTile) then 0 else r

/-- An LED rail is on (R436). -/
def State.railOn (s : State) (r : Nat) : Bool := s.on (F.PWR_LEDMAP_EN r)

/-- The phases that serve rail `k`, in ascending order; VDD_CORE is rail 0. -/
def State.railPhases (s : State) (k : Nat) : List Nat := (List.range 12).filter fun i => s.phaseRail i == k + 1

/-- Rail `k` is on and a phase serves it. -/
def State.driven (s : State) (k : Nat) : Bool :=
  !(s.railPhases k).isEmpty && (k == 0 || (s.isTile && s.railOn (k - 1)))

/-- R426: the switching period of rail `k` in 160 ps steps. -/
def State.railPeriod (s : State) (k : Nat) : Nat := clampN 2000 12500 (s.get (F.PWR_PER_PER k))

/-- R426: the phases of rail `k` switch at its duty cycle, starting m × PER / n after one another; places on the 160 ps
grid are rounded down (DEDUCED, log entry 49). -/
def State.drivePhases (s : State) (k : Nat) : State :=
  let l := s.railPhases k
  let per := s.railPeriod k
  let high := (per * ((s.pwr.loops[k]?.map (·.duty)).getD 0) / 4096).toNat
  l.zipIdx.foldl (fun s e => s.emit (.pwm e.1 (some (per, e.2 * per / l.length, high)))) s

/-- R426: the phases of rail `k` are held at mid. -/
def State.idlePhases (s : State) (k : Nat) : State := (s.railPhases k).foldl (fun s i => s.emit (.pwm i none)) s

/-- R426: one step of the control law, `div` rounding towards minus infinity (DEDUCED). -/
def Loop.step (l : Loop) (kp ki : Nat) (measured : Int) : Loop :=
  let e := l.set - measured
  { l with duty := clampI 0 3686 (l.duty + fdiv (kp * (e - l.last) + ki * e) 65536), last := e }

/-- PWM_UPDATE: the duty cycle at a voltage sample of rail `k`, in mV (R426). -/
def execPwmUpdate (k : Fin 5) (measured : BitVec 16) (s : State) : Host.Outcome State Fault Refusal :=
  .next (
    let s := if k.val = 0 then s.set F.PWR_VCORE_MV (min 1023 measured.toNat) else s
    if s.driven k then
      (s.modLoop k fun l => l.step (s.get (F.PWR_COMP_KP k)) (s.get (F.PWR_COMP_KI k)) measured.toNat).drivePhases k
    else s)

/-- R427, R441: the samples of one 1.28 µs interval, Midnight apart; true if two in a row of VIN_SENSE lie below FAIL. -/
def State.senseSample (s : State) (codes : List (BitVec 12)) (vin : Nat) : Bool × State :=
  let s := (codes.take 16).zipIdx.foldl (fun s e => s.set (F.PWR_SVAL_CODE e.2) e.1.toNat) s
  let s := s.set F.PWR_VINVAL_CODE vin
  let low := decide (vin < s.get F.PWR_VIN_WARN)
  let s := s.set F.PWR_STAT_VINLOW (b2n low)
  let s := if low then s.flagF ⟨.PWR_EV, 3, 1⟩ else s
  let n := if vin < s.get F.PWR_VIN_FAIL then s.pwr.vinLow + 1 else 0
  let s := s.modPwr fun p => { p with vinLow := n }
  (s.on F.PWR_MID_VINEN && decide (2 ≤ n), s)

/-- PHASE_CURRENT_LIMIT: a phase current above LIM ends the pulse (R427). -/
def execPhaseCurrentLimit (i : Fin 16) (s : State) : Host.Outcome State Fault Refusal :=
  .next (if s.get (F.PWR_SNS_KIND i) = 1 then (s.count F.PWR_PHLIMCNT_COUNT 1).flagF ⟨.PWR_EV, 5, 1⟩ else s)

/-! ### LED rails -/

/-- OFF of an LED rail, signed mV. -/
def State.railOff (s : State) (r : Nat) : Int := sgn 16 (s.get (F.PWR_LEDSTAT_OFF r))

/-- R436: the rail's fault condition persists: a voltage or current input of the rail reads above its limit. -/
def State.railFaulty (s : State) (r : Nat) : Bool :=
  (List.range 16).any fun i => decide (2 ≤ s.get (F.PWR_SNS_KIND i)) && s.get (F.PWR_SNS_INDEX i) == r
    && decide (s.get (F.PWR_SNS_LIM i) < s.get (F.PWR_SVAL_CODE i))

/-- R436, R440: a write of 1 to LEDMAP[r].EN. -/
def State.enableRail (s : State) (r : Nat) : State :=
  let vmax := s.get (F.PWR_LEDLIM_VMAX r)
  if !s.isTile || s.railOn r || vmax == 0 || decide (vmax < s.get (F.PWR_LEDLIM_VMIN r)) || s.railFaulty r
      || s.tripCondition then s
  else
    let s := s.set (F.PWR_LEDMAP_EN r) 1
    let s := s.set ⟨.PWR_STAT, 12 + r, 1⟩ 1
    let s := s.set ⟨.PWR_STAT, 8 + r, 1⟩ 0
    let s := s.set (F.PWR_LEDSTAT_OFF r) 0
    (s.modPwr fun p => { p with unflagged := modAt r (fun _ => 0) p.unflagged }).modLoop (r + 1) fun _ => ⟨0, 0, 0⟩

/-- R436: the rail off, its phases at mid. -/
def State.disableRail (s : State) (r : Nat) : State :=
  let s := if s.railOn r then s.idlePhases (r + 1) else s
  ((s.set (F.PWR_LEDMAP_EN r) 0).set ⟨.PWR_STAT, 12 + r, 1⟩ 0).modLoop (r + 1) fun _ => ⟨0, 0, 0⟩

/-- Every LED rail off (R440, R466, Table 17.4). -/
def State.railsOff (s : State) : State :=
  if s.isTile then (List.range 4).foldl (fun s r => s.disableRail r) s else s

/-- No LED rail is on. -/
def State.allRailsOff (s : State) : Bool := (List.range 4).all fun r => !(s.railOn r)

/-- LED_RAIL_ENABLE (R436). -/
def execLedRailEnable (r : Fin 4) (s : State) : Host.Outcome State Fault Refusal := .next (s.enableRail r)

/-- LED_RAIL_DISABLE (R436). -/
def execLedRailDisable (r : Fin 4) (s : State) : Host.Outcome State Fault Refusal :=
  .next (if s.isTile then s.disableRail r else s)

/-- RAIL_FAULT: an input of the rail has read above its limit for 10 µs: the rail off, RAILFLT and EVRAIL r, and the trip
hold (R427, R440). -/
def execRailFault (r : Fin 4) (s : State) : Host.Outcome State Fault Refusal :=
  .next (if s.isTile && s.railOn r && s.railFaulty r then
      let s := (s.disableRail r).set ⟨.PWR_STAT, 8 + r, 1⟩ 1
      (s.flagF ⟨.PWR_EV, 8 + r, 1⟩).tripDark
    else s)

/-- The LEDMAP word of a rail in force (R436). -/
def State.railMap (s : State) (r : Nat) : Nat := (s.pwr.ledMap.getD r 0).toNat

/-- R437: the lamps of a rail in one group and line with bit `j` of their q0 set, in a half. -/
def State.litLamps (s : State) (half r g line j : Nat) : Nat :=
  let x := s.groupGeometry g
  let k := (s.group g).head.k
  ((s.groupPorts g).map fun p => (List.range x.cpl).countP fun ch =>
    bit (s.railMap r) (16 + ch % 3) && bit (s.codeAt half (p * x.perPort + line * x.cpl + ch) / 4 / 2 ^ (18 - k)) j).foldl
      (· + ·) 0

/-- R437: the forecast DMAX of a rail from a half. -/
def State.forecast (s : State) (half r : Nat) : Nat :=
  let gs := (List.range 16).filter fun g => bit (s.railMap r) g && s.running g
  let lines := gs.foldl (fun m g => max m (s.group g).head.lines) 0
  ((List.range lines).map fun l => ((List.range 18).map fun j =>
    (gs.map fun g =>
      let x := (s.group g).head
      if l < x.lines ∧ j < x.k ∧ !(x.low j) then s.litLamps half r g l j else 0).foldl (· + ·) 0).foldl max 0).foldl max 0

/-- R437: the forecasts formed from a completed half. -/
def State.formForecast (s : State) (half : Nat) : State :=
  let l := (List.range 4).map fun r => if s.railOn r then satN 16 (s.forecast half r) else 0
  s.modPwr fun p => { p with forecast := modAt half (fun _ => l) p.forecast }

/-- PWR.LEDPK shows the forecasts of the half in force. -/
def State.showForecast (s : State) : State :=
  (List.range 4).foldl (fun s r => s.set (F.PWR_LEDPK_DMAX r) ((s.pwr.forecast.getD s.half []).getD r 0)) s

/-- R439: the headroom offset of a rail at a refresh boundary. -/
def State.adjustOff (s : State) (r : Nat) : State :=
  let mine := s.scn.headroom.filter fun e => bit (s.railMap r) e.1
  if !(s.railOn r) || mine.isEmpty then s
  else
    let move (s : State) (d : Int) : State :=
      let m : Int := s.get (F.PWR_LEDIDLE_OFFMAX r)
      let o := clampI (-m) m (s.railOff r + d)
      let s := s.set (F.PWR_LEDSTAT_OFF r) (unsgn 16 o)
      if o = m ∨ o = -m then s.flagF ⟨.PWR_EV, 7, 1⟩ else s
    let flagged := mine.any fun e => decide (e.2 &&& (s.railMap r / 65536 % 8) ≠ 0)
    let n := if flagged then 0 else s.pwr.unflagged.getD r 0 + 1
    let full := decide (max 1 (s.get (F.PWR_LEDHR_HRN r)) ≤ n)
    let s := s.modPwr fun p => { p with unflagged := modAt r (fun _ => if full then 0 else n) p.unflagged }
    if flagged then move s (s.get (F.PWR_LEDHR_HRUP r))
    else if full then move s (-(s.get (F.PWR_LEDHR_HRDN r) : Int))
    else s

/-- R436, R439: what the LED rails do at a refresh boundary. -/
def State.railsBoundary (s : State) : State :=
  let s := (List.range 4).foldl (fun s r => s.adjustOff r) s
  let s := s.modScn fun c => { c with headroom := [] }
  s.modPwr fun p => { p with ledMap := (List.range 4).map fun r => s.rd (.PWR_LEDMAP r) }

end Sys2Proof.Machine
end

