-- ==== Sys2Proof/Machine/Show.lean ====
section
/-! DEFINITION. The frames of a tile: compose start (R279, R283, R296 to R301, R309, R312, R347, R351, R356, R433), the
completion of a half (R305, R329, R437), show instants (R211 to R213, R348, R349, R352) and refresh boundaries (R342,
R343, R371, R374, R439). -/

namespace Sys2Proof.Machine

/-! ### Compose start -/

/-- The accepted token for a show instant whose commit window is open (R296). -/
def State.tokenFor (s : State) (instant : Nat) : Option Token :=
  s.lnk.tokens.find? fun t => t.instant == instant && !t.finished

/-- The slot, 0 or 1, that a commit id is bound to, if any. -/
def State.boundSlot (s : State) (id : BitVec 32) : Option Nat :=
  if id = 0 then none else [0, 1].find? fun k => s.rd (.CMP_BIND k) == id

/-- R279: a slot comes into use: its id leaves the bound ones, and the other slot becomes free. -/
def State.takeSlot (s : State) (k : Nat) (id : BitVec 32) : State :=
  let s := s.set F.CMP_STAT_SLOT k
  let s := s.wr .CMP_CID id
  let s := (s.wr (.CMP_BIND 0) 0).wr (.CMP_BIND 1) 0
  if s.cmpState = 0 ∨ s.cmpState = 3 then s.set F.CMP_STAT_STATE 2 else s

/-- R279: the commit id of a token: the id taken into use, if any, and whether T can be composed. -/
def State.takeCommit (s : State) (id : BitVec 32) : Option (BitVec 32) × Bool × State :=
  match s.boundSlot id with
  | some k => (some id, true, s.takeSlot k id)
  | none =>
    let inUse := s.get F.CMP_STAT_SLOT != 2
    if inUse && s.rd .CMP_CID == id then (none, true, s)
    else (none, inUse, (s.count F.CMP_CIDERR_COUNT 1).flagF ⟨.CMP_EV, 2, 1⟩)

/-- R267: the generations of a composition that has finished. -/
def State.finishUses (s : State) (f : FrameRun) : State :=
  f.uses.foldl
    (fun s (u : Nat × Nat × Nat) => match s.handle u.1 with
      | some x => s.setHandle u.1 { x with done := newestUsed x.done u.2 }
      | none => s) s

/-- The tokens of a show instant have finished, and fences pass (R267). -/
def State.finishTokens (s : State) (instant : Nat) : State :=
  { s with lnk := { s.lnk with tokens := s.lnk.tokens.map fun t : Token =>
      if t.instant = instant then { t with finished := true } else t } }.passFences

/-- R297: the generation a layer part is composed from, and whether the layer is stale; none where it is omitted. -/
def State.layerSource (s : State) (t : Token) (p : LayerPart) : Option LayerUse × Bool :=
  match t.layers[p.num]? with
  | none => (none, false)
  | some w =>
    if !(w.getLsbD 31) then (none, false)
    else
      let h := bits w.toNat 16 12
      let g := bits w.toNat 0 16
      match s.handle h with
      | none => (none, true)
      | some x =>
        let full (j : Nat) : Bool := (x.slots.getD j Slot.empty).st == 4 && s.missingBlocks x j == 0
        match (x.find g).filter full with
        | some j => (some ⟨p, h, j, g, x⟩, false)
        | none =>
          if p.policyV = 1 then (none, true)
          else match x.used with
            | none => (none, true)
            | some u => match (x.findUsed u).filter fun j => (x.slots.getD j Slot.empty).st != 5 with
              | some j => (some ⟨p, h, j, u.1, x⟩, true)
              | none => (none, true)

/-- The generation that a layer uses, with the period in which it was opened. -/
def LayerUse.record (u : LayerUse) : Nat × Nat := (u.gen, (u.data.slots.getD u.slot Slot.empty).era)

/-- R264, R267: a composition that uses a generation has started: it is the newest used of its handle if it is later; a
generation refused before needs no record once it would not be opened for its age. -/
def State.useGen (s : State) (u : LayerUse) : State :=
  match s.handle u.handle with
  | none => s
  | some x =>
    let x := { (x.modSlot u.slot fun e => { e with composed := true }) with used := newestUsed x.used u.record }
    s.setHandle u.handle { x with noslot := x.noslot.filter fun g => !(x.stale g) }

/-- CMP.LSTAT[l] for a frame (Table 11.9): HANDLE and GEN keep their last values while the layer is not used (DEDUCED). -/
def State.showLayer (s : State) (l : Nat) (use : Option LayerUse) (stale : Bool) : State :=
  let s := s.set (F.CMP_LSTAT_USED l) (b2n use.isSome)
  let s := s.set (F.CMP_LSTAT_STALE l) (b2n stale)
  let s := if stale then s.flagF (F.CMP_LSTAT_EVSTALE l) else s
  match use with
  | some u => (s.set (F.CMP_LSTAT_HANDLE l) u.handle).set (F.CMP_LSTAT_GEN l) u.gen
  | none => s

/-- R298: the report of a frame with stale layers or failed blocks. -/
def State.staleReport (s : State) (instant stale failed : Nat) : State :=
  if !(s.on F.CMP_CFG_STALEMSG) || (stale == 0 && failed == 0) then s
  else
    match s.sendUp 0xF0 (leBytes 4 (wuSec instant) ++ leBytes 4 (wuNs instant) ++ leBytes 2 stale ++ leBytes 2 failed) with
    | some s => s
    | none => s.flagF ⟨.CMP_EV, 5, 1⟩

/-- R289: a frame composed from the given layers, handed to the correction engine. -/
def State.composeFrame (s : State) (instant : Nat) (p : FrameProg) (t : TilePlace) (us : List LayerUse) (stale : Nat) :
    State :=
  let s := us.foldl (fun s u => s.useGen u) s
  let (read, s) := us.foldl
    (fun (acc : List (LayerUse × List (Nat × BlockRead)) × State) u =>
      let (bl, s) := acc.2.readBlocks u t
      (acc.1 ++ [(u, bl)], s)) ([], s)
  let s := read.foldl (fun s u => s.countFailed u.1.part.num u.2) s
  let s := s.countOutside read
  let failed := read.foldl (fun a u => if failedBlocks u.2 = 0 then a else a ||| 2 ^ u.1.part.num) 0
  let f : FrameRun := ⟨instant, s.tim.ticks, t.w, t.h, s.comingLines, s.composePixels p t read,
    us.map fun u => (u.part.num, u.gen), us.map fun u => (u.handle, u.record), stale, failed, false, 0⟩
  let s := s.modCmp fun c => { c with
    frames := c.frames ++ [f]
    handles := us.foldl (fun l u => (u.part.num, u.handle) :: l.filter fun e => e.1 != u.part.num) c.handles }
  let s := s.set F.CMP_STAT_STATE 1
  let s := if s.cmp.frames.length = 1 then s.set F.SCN_STAT_FILLDONE 0 else s
  s.staleReport instant stale failed

/-- CMP.LSTAT for a frame: each layer of the list with its use and whether it is stale; no other layer is used. -/
def State.showLayers (s : State) (l : List (Nat × Option LayerUse × Bool)) : State :=
  (List.range 16).foldl
    (fun s k => match l.lookup k with
      | some e => s.showLayer k e.1 e.2
      | none => s.showLayer k none false) s

/-- R297: a token's frame composed. -/
def State.composeToken (s : State) (t : Token) (p : FrameProg) (place : TilePlace) : State :=
  let src := p.layers.map fun l => (l, s.layerSource t l)
  let stale := src.foldl (fun a e => if e.2.2 then a ||| 2 ^ e.1.num else a) 0
  let s := s.showLayers (src.map fun e => (e.1.num, e.2))
  s.composeFrame t.instant p place (src.filterMap fun e => e.2.1) stale

/-- R301: the layer that standing shows, if its generation is held. -/
def State.standLayer (s : State) (p : FrameProg) (l : Nat) : Option LayerUse :=
  (p.layers.find? fun e => e.num == l).bind fun part =>
  (s.cmp.handles.lookup l).bind fun h =>
  (s.handle h).bind fun x =>
  x.used.bind fun g =>
    ((x.findUsed g).filter fun j => (x.slots.getD j Slot.empty).st != 5).map fun j => ⟨part, h, j, g.1, x⟩

/-- R301: a frame of the background, with a layer over it if there is one. -/
def State.standFrame (s : State) (instant : Nat) (p : FrameProg) (t : TilePlace) (u : Option LayerUse) : State :=
  (s.showLayers (u.toList.map fun u => (u.part.num, some u, false))).composeFrame instant p t u.toList 0

/-- R300, R301: standing entered at a compose start without a token, where its two conditions hold; a halted compositor
composes nothing (R283). -/
def State.tryStanding (s : State) (instant : Nat) (live : Bool) : State :=
  let p := s.cmp.prog
  let (mode, l, silent) := p.stand.getD (0, 0, 8)
  if s.on F.CMP_STAT_STANDING || decide (s.cmp.silent < silent)
      || !(!(s.up s.masterPort) || s.on F.TIM_STAT_HOLD) then s
  else
    let s := (s.set F.CMP_STAT_STANDING 1).flagF ⟨.CMP_EV, 3, 1⟩
    match live, p.tile, mode with
    | true, some t, 1 => s.standFrame instant p t none
    | true, some t, 2 => s.standFrame instant p t (s.standLayer p l)
    | _, _, _ => s

/-- R301: standing ends. -/
def State.endStanding (s : State) : State :=
  if s.on F.CMP_STAT_STANDING then (s.set F.CMP_STAT_STANDING 0).flagF ⟨.CMP_EV, 3, 1⟩ else s

/-- R283: the program in use read and checked; a fault halts the compositor. -/
def State.checkProgram (s : State) : State :=
  let p := s.readSlot (s.get F.CMP_STAT_SLOT % 2)
  let s := s.modCmp fun c => { c with prog := p }
  match p.fault with
  | some (c, w) => s.haltCompositor c w
  | none => s.modCmp fun c => { c with dims := p.tile.map fun t => (t.w, t.h) }

/-- The frame period in force for the frame of this compose start (R213): a pending one armed for the id taken, or for
id 0, comes into force at its show instant. -/
def State.comingPeriod (s : State) (took : Option (BitVec 32)) : Nat :=
  match s.tim.armedFper with
  | some id =>
    if id = 0 ∨ took = some id then s.tim.pendFper.toNat * 65536 + s.tim.pendFperFr.toNat % 65536 else s.period
  | none => s.period

/-- R351: the groups armed for a commit id check their other slots; they all switch at the show instant, or none does and
each that has a fault records it. Those that are to switch stay armed until then. -/
def State.switchScan (s : State) (instant : Nat) (id : BitVec 32) : State :=
  let p := s.comingPeriod (some id)
  let armed := (List.range 16).filter fun g => s.on (F.SCN_GSTAT_ARMED g) && s.rd (.SCN_GARM g) == id && !(s.switching g)
  let s' := s.modScn fun c => { c with switches := c.switches ++ armed.map fun g => (instant, g) }
  let res := armed.map fun g => (g, s.checkSlot g (s.otherSlot g) s.cmp.dims p (s'.comingOthers g))
  let bad := res.any fun e => match e.2 with | .error _ => true | .ok _ => false
  if !bad then s'
  else
    res.foldl
      (fun s e =>
        let s := (s.set (F.SCN_GSTAT_ARMED e.1) 0).wr (.SCN_GARM e.1) 0
        let s := match e.2 with
          | .error (c, w) => ((s.set (F.SCN_GSTAT_ERRCODE e.1) c).set (F.SCN_GSTAT_ERRWORD e.1) w).set
              (F.SCN_GSTAT_ERRSLOT e.1) (s.otherSlot e.1)
          | .ok _ => s
        s.flagF (F.SCN_GSTAT_EVREF e.1)) s

/-- R347: the running groups check the program that will be in force for the coming frame; a fault halts at its show
instant. -/
def State.checkGroups (s : State) (instant : Nat) (took : Option (BitVec 32)) : State :=
  let p := s.comingPeriod took
  let halts := (List.range 16).filterMap fun g =>
    if s.running g && !(s.scn.switches.contains (instant, g)) then
      let slot := s.comingSlot g
      match s.checkSlot g slot s.cmp.dims p (s.comingOthers g) with
      | .error (c, w) => some ⟨instant, g, c, w, slot⟩
      | .ok _ => none
    else none
  s.modScn fun c => { c with halts := c.halts ++ halts }

/-- R518: the CMP.CID of a period is kept where the compose start that belongs to the period after it comes first. -/
def State.keepCid (s : State) (t : Nat) : State :=
  s.modScn fun c => { c with period := c.period.map fun p =>
    if p.instant + s.period + 131072000 < t ∧ p.cid = none then { p with cid := some (s.rd .CMP_CID) } else p }

/-- R279 to R301: compose start of the frame with show instant `t`. -/
def State.composeStart (s : State) (t : Nat) : State :=
  let s := (s.keepCid t).modCmp fun c => { c with closed := some (max t (c.closed.getD 0)) }
  let token := s.tokenFor t
  let (took, can, s) := match token with
    | some k => s.takeCommit (BitVec.ofNat 32 k.commit)
    | none => (none, false, s)
  let s := s.modCmp fun c => { c with took := c.took ++ (took.map fun id => (t, id)).toList }
  let inUse := s.get F.CMP_STAT_SLOT != 2
  let s := if inUse && s.cmpState != 3 then s.checkProgram else s
  let live := inUse && s.cmpState != 3
  let s := s.stepFade took
  let s := s.latchFrame took
  let s := s.takePreset took
  let s := match took with
    | some id => s.switchScan t id
    | none => s
  let s := s.checkGroups t took
  match token with
  | some k =>
    let s := s.endStanding
    match live && can, s.cmp.prog.tile with
    | true, some place => s.composeToken k s.cmp.prog place
    | _, _ => s.finishTokens t
  | none => if inUse then s.tryStanding t live else s

/-- The periods that a frame after the next one may have: the one in force, and an armed one (R213). -/
def State.periodsAhead (s : State) : List Nat :=
  s.period :: (s.tim.armedFper.map fun _ => s.tim.pendFper.toNat * 65536 + s.tim.pendFperFr.toNat % 65536).toList

/-- R212, R296: the compose start of the frame with show instant `t` falls into the present tick: `t` is an instant of the
grid that comes, and its window has not closed. The frame after one whose show instant is reached in the same tick may
start first. -/
def State.composeDue (s : State) (t : Nat) : Bool :=
  let bases := (s.scn.period.map (·.instant)).toList ++ s.cmp.closed.toList
  let goesOn := s.gridNext.isSome && !(s.tokenNear t) && bases.any fun b => s.periodsAhead.any fun p => b + p == t
  (match s.cmp.closed with
    | some c => decide (c < t)
    | none => true)
    && (goesOn || s.lnk.tokens.any fun k => k.instant == t)
    && s.periodsAhead.any fun p => decide (p ≤ t) && s.reached (t - p)

/-- COMPOSE_START for show instant `instant`, in 1/65,536 ns, at T − P; while TIM.STAT.VALID is 0 no show instant is
reached (R211), and during a slice of a block that it needs it is held (R510). -/
def execComposeStart (instant : Nat) (s : State) : Host.Outcome State Fault Refusal :=
  .next (
    if s.isTile && s.on F.TIM_STAT_VALID && s.composeDue instant then
      if s.composeHeld then s.modCmp fun c => { c with held := some instant } else s.composeStart instant
    else s)

/-- R510: a compose start held by a slice takes place; a frame whose show instant has passed meanwhile goes. -/
def State.serveCompose (s : State) : State :=
  match s.cmp.held with
  | none => s
  | some t =>
    let s := (s.modCmp fun c => { c with held := none }).composeStart t
    if s.scn.period.any fun p => decide (t ≤ p.instant) then
      match s.cmp.frames.find? fun f => f.instant == t with
      | some f => (s.modCmp fun c => { c with frames := c.frames.filter fun f => f.instant != t }).finishUses f
      | none => s
    else s

/-! ### Completion of a half -/

/-- R329: the last lamp code of a frame is written: the frame corrected, its half complete, its slack taken, and what
follows for the signature, the forecasts and the fences. -/
def State.completeHalf (s : State) (composed : Nat) (f : FrameRun) : State :=
  let half := 1 - s.half
  let s := s.correctFrame f
  let s := s.set F.CMP_CTIME_US composed
  let s := s.set F.CMP_CTIMEMAX_US (max composed (s.get F.CMP_CTIMEMAX_US))
  let s := s.count F.CMP_FRAMES_COUNT 1
  let s := (s.set F.CMP_STAT_STATE 2).set F.SCN_STAT_FILLDONE 1
  let sig := s.halfSignature half f.w f.h
  let s := s.modScn fun c => { c with
    sigs := modAt half (fun _ => sig) c.sigs
    staleHalf := modAt half (fun _ => decide (f.stale ≠ 0)) c.staleHalf }
  let s := s.freezeCheck f sig
  let s := s.formForecast half
  let slack := (f.instant - s.now) / 65536000
  let s := s.modCmp fun c => { c with frames := { f with complete := true, pixels := [], slack := slack } :: c.frames.drop 1 }
  (s.finishUses f).finishTokens f.instant

/-- HALF_COMPLETE: `composed` is the time from compose start to the last pixel handed to correction, in µs (R302, R329).
Lamp codes are written for the earliest frame that waits for its show instant (R349). -/
def execHalfComplete (composed : BitVec 20) (s : State) : Host.Outcome State Fault Refusal :=
  .next (match s.cmp.frames.head? with
    | some f => if s.isTile && !f.complete then s.completeHalf composed.toNat f else s
    | none => s)

/-! ### Show instants -/

/-- The groups whose switches take effect at a show instant. -/
def State.dueSwitches (s : State) (t : Nat) : List Nat := (s.scn.switches.filter fun e => decide (e.1 ≤ t)).map (·.2)

/-- R351, R352: the scan switches of a show instant; a stopped group changes its slot without running. -/
def State.applySwitches (s : State) (t : Nat) : State :=
  let due := s.dueSwitches t
  let s := s.modScn fun c => { c with switches := c.switches.filter fun e => decide (t < e.1) }
  due.foldl
    (fun s g =>
      let slot := s.otherSlot g
      let s := match s.checkSlot g slot s.cmp.dims s.period [] with
        | .ok p => s.takeProgram g slot p
        | .error _ => s.takeSlotInForce g slot
      ((s.set (F.SCN_GSTAT_ARMED g) 0).wr (.SCN_GARM g) 0).flagF (F.SCN_GSTAT_EVSW g)) s

/-- R336, R352: what the switches of a show instant change in groups that have a program: K, LINES or N of any group, and
N or LINES of any. -/
def State.switchChanges (s : State) (t : Nat) : Bool × Bool :=
  (s.dueSwitches t).foldl
    (fun a g =>
      let x := (s.group g).head
      match s.slotHead g (s.otherSlot g) with
      | some y =>
        let shape := x.n != 0 && (y.lines != x.lines || y.n != x.n)
        (a.1 || shape || (x.n != 0 && y.k != x.k), a.2 || shape)
      | none => a) (false, false)

/-- R347: the halts of a show instant. -/
def State.applyHalts (s : State) (t : Nat) : State :=
  let due := s.scn.halts.filter fun e => decide (e.instant ≤ t)
  let s := s.modScn fun c => { c with halts := c.halts.filter fun e => decide (t < e.instant) }
  due.foldl (fun s h => s.haltGroup h.group h.code h.word h.slot) s

/-- R347: SCN.GTIME of the running groups follows the size of the frame. -/
def State.measureGroups (s : State) : State :=
  ((List.range 16).filter s.running).foldl
    (fun s g => match s.checkSlot g (s.get (F.SCN_GSTAT_INFORCE g)) s.cmp.dims s.period [] with
      | .ok p => s.showDuration g p.duration
      | .error _ => s) s

/-- R212: the instant continues the grid: it lies within ±2 µs of T + P. -/
def State.continuesGrid (s : State) (t : Nat) : Bool :=
  match s.scn.period with
  | some p =>
    let e := p.instant + s.period
    !s.scn.timeHold && !s.scn.stepHold && decide (e ≤ t + 131072000 ∧ t ≤ e + 131072000)
  | none => false

/-- R348, R349: the half for T: shown if it is complete, a miss if it is not, whose composition ends (R267), or whose
compose start a slice still holds (R510). The result is NEW and MISS. Frames of earlier instants that were not reached
go. -/
def State.switchHalf (s : State) (t : Nat) : Bool × Bool × State :=
  let frame := s.cmp.frames.find? fun f => f.instant == t
  let s := s.modCmp fun c => { c with frames := c.frames.filter fun f => decide (t < f.instant) }
  match frame with
  | none =>
    if s.cmp.held = some t ∧ (s.tokenFor t).isSome = true ∧ s.get F.CMP_STAT_SLOT ≠ 2 then
      (false, true, (((s.count F.SCN_MISSCNT_COUNT 1).flagF ⟨.SCN_EV, 0, 1⟩).finishTokens t).avsMeasure 0 true)
    else (false, false, s)
  | some f =>
    if f.complete then
      let s := s.set F.SCN_STAT_HALF (1 - s.half)
      let s := (s.set F.SCN_STAT_FILLDONE 0).modScn fun c => { c with noHalf := false }
      (true, false, (s.showForecast).avsMeasure f.slack false)
    else
      let s := (s.count F.SCN_MISSCNT_COUNT 1).flagF ⟨.SCN_EV, 0, 1⟩
      let s := if s.cmp.frames.isEmpty then s.set F.CMP_STAT_STATE 2 else s
      (false, true, ((s.finishUses f).finishTokens t).avsMeasure 0 true)

/-- R300: the show instants in a row that have passed without an accepted token. -/
def State.countSilent (s : State) (t : Nat) : State :=
  let has := s.lnk.tokens.any fun k => k.instant == t
  s.modCmp fun c => { c with silent := if has then 0 else c.silent + 1 }

/-- R213: an armed frame period comes into force at the show instant of the id taken into use, or at the next one. -/
def State.periodAt (s : State) (t : Nat) : State :=
  let took := s.cmp.took.lookup t
  let s := s.modCmp fun c => { c with took := c.took.filter fun e => decide (t < e.1) }
  match s.tim.armedFper with
  | some id => if id = 0 ∨ took = some id then s.takePeriod else s
  | none => s

/-- R177: the accepted tokens whose show instants have passed. -/
def State.passTokens (s : State) (t : Nat) : State :=
  { s with lnk := { s.lnk with
    shown := s.lnk.shown ++ s.lnk.tokens.filter fun k : Token => decide (k.instant ≤ t)
    tokens := s.lnk.tokens.filter fun k => decide (t < k.instant) } }.passFences

/-- R211 to R213, R348 to R352: a show instant of the grid. -/
def State.showInstant (s : State) (t : Nat) : State :=
  let s := match s.scn.period with
    | some p => s.formStep p
    | none => s
  let s := (s.countSilent t).markSample t
  let grid := s.continuesGrid t
  let s := s.periodAt t
  let (changes, reshape) := s.switchChanges t
  let s := s.applySwitches t
  let s := if changes then s.clearAllResiduals else s
  let s := (s.applyHalts t).measureGroups
  let (isNew, miss, s) := s.switchHalf t
  let dark := !grid || reshape
  let s := s.modScn fun c => { c with timeHold := false, switchHold := dark, boundary := 0 }
  let s := (s.placeFrame t).endLineHold.updateDark
  let s := s.addWitness
  let s := s.modScn fun c => { c with
    period := some ⟨t, isNew, s.on F.SCN_STAT_DARK, miss, c.staleHalf.getD s.half false, none⟩ }
  s.passTokens t

/-- R211, R212: `t` is the next instant of the grid, and falls into the present tick. -/
def State.showDue (s : State) (t : Nat) : Bool :=
  s.placed t && s.reached t && (match s.scn.period with
    | some p => decide (p.instant < t)
    | none => true)

/-- SHOW_INSTANT at `instant`, in 1/65,536 ns; none is reached while TIM.STAT.VALID is 0 (R211). -/
def execShowInstant (instant : Nat) (s : State) : Host.Outcome State Fault Refusal :=
  .next (if s.isTile && s.on F.TIM_STAT_VALID && s.showDue instant then s.showInstant instant else s)

/-! ### Refresh boundaries -/

/-- R343: the refresh that starts at boundary 0 is a diagnostic one; FRAMECNT is compared as it stands when the boundary
is reached (DEDUCED). -/
def State.diagnostic (s : State) : Bool :=
  let every := clampN 1 256 (s.get F.SCN_DIAGCFG_EVERY)
  s.on F.SCN_DIAGCFG_EN && (s.rd .SCN_FRAMECNT).toNat % every == 0

/-- The body of a running group starts (R342, R371). -/
def State.startBody (s : State) (g : Nat) : State :=
  if !(s.running g) then s
  else
    let s := if s.scn.diag then s.flagF (F.SCN_GSTAT_EVDIAG g) else s
    let s := s.modGroup g fun x =>
      { x with pos := 0, loop := none, line := none, elapsed := 0, lit := none, pulse := none, reads := 0 }
    s.advancePointer g

/-- R374: LMP.EPOCH advances at this boundary 0. -/
def State.epochDue (s : State) : Bool :=
  s.on F.LMP_CFG_MAPEN && (s.rd .SCN_FRAMECNT).toNat % max 16 (s.get F.LMP_VWIN_FRAMES) == 0

/-- R342, R353: refresh boundary `i` of a frame, and the pads that failed their check in the tail before it. -/
def State.refreshBoundary (s : State) (i : Nat) (padFails : List Nat) : State :=
  let s := (padFails.filter fun p => lampPortUsed s p && s.running (p / 8)).foldl (fun s p => s.padFailed p) s
  let s := (List.range 16).foldl (fun s g => s.startBody g) s
  let s := s.modScn fun c => { c with
    diag := decide (i = 0) && s.diagnostic
    stepHold := false
    switchHold := c.switchHold && decide (i = 0)
    darkHold := s.on F.SCN_CTL_DARK
    tripHold := c.tripHold && !c.releasing
    releasing := false }
  let s := s.endLineHold.updateDark
  let s := s.railsBoundary
  if i = 0 then
    let s := if s.epochDue then s.advanceEpoch else s
    s.wrapUp F.SCN_FRAMECNT_COUNT
  else s

/-- The frame shown, as it stands on the grid; none before the first and after a time without VALID (R212, R353). -/
def State.frameOnGrid (s : State) : Option GridFrame :=
  if s.scn.timeHold then none else s.scn.period.map fun p => ⟨p.instant, s.period, s.refreshes⟩

/-- R211: the edge of the 160 ps grid at which boundary `i` of the frame shown stands, if it is still to come and falls
into the present tick. -/
def State.boundaryEdge (s : State) (i : Nat) : Option Nat :=
  match s.frameOnGrid with
  | some f => if i < max 1 f.n ∧ s.scn.boundary ≤ i then s.edgeAt (f.boundary i * 65536 : Nat) else none
  | none => none

/-- REFRESH_BOUNDARY `index` of the frame shown; none is placed while TIM.STAT.VALID is 0 (R211). -/
def execRefreshBoundary (index : Byte) (padFails : List (Fin 128)) (s : State) : Host.Outcome State Fault Refusal :=
  .next (match s.isTile && s.on F.TIM_STAT_VALID, s.boundaryEdge index.toNat with
    | true, some e =>
      (s.modScn fun c => { c with edge := e, boundary := index.toNat + 1 }).refreshBoundary index.toNat (padFails.map (·.val))
    | _, _ => s)

/-! ### LED set-points -/

/-- R353, R438: the refresh that starts at boundary `i` will be dark by what is known before it; `f` is the frame that
boundary 0 is to show, if one is composed. -/
def State.darkAhead (s : State) (i : Nat) (f : Option FrameRun) : Bool :=
  let stays := s.on F.SCN_CTL_DARK || (s.scn.tripHold && !s.scn.releasing) || s.scn.midnight
  let first := i == 0 && (match f with
    | some f => !(s.continuesGrid f.instant) || (s.switchChanges f.instant).2
    | none => false)
  let unseen := s.scn.noHalf && !(i == 0 && (match f with
    | some f => f.complete
    | none => false))
  let group (g : Nat) : Bool := !(s.running g) || (s.group g).sliceHold || (i != 0 && s.scn.timeHold && (s.group g).held)
    || (match f with
      | some f => s.scn.halts.any fun h => h.group == g && decide (h.instant ≤ f.instant)
      | none => false)
  stays || first || unseen || (List.range 16).all fun g => !(s.groupUsed g) || group g

/-- R438: the set-point of a rail from the forecast of a half. -/
def State.railTarget (s : State) (r half : Nat) : Int :=
  let dmax := (s.pwr.forecast.getD half []).getD r 0
  clampI (s.get (F.PWR_LEDLIM_VMIN r)) (s.get (F.PWR_LEDLIM_VMAX r))
    ((s.get (F.PWR_LEDCFG_VBASE r) : Int) + (s.get (F.PWR_LEDCFG_RSLOPE r) * dmax / 1000 : Nat) + s.railOff r)

/-- A set-point commanded to a rail (R438). -/
def State.giveRail (s : State) (r : Nat) (mv : Int) : State :=
  (s.set (F.PWR_LEDSTAT_SETMV r) (unsgn 16 mv)).modLoop (r + 1) fun l => { l with set := mv }

/-- R438: the set-point of a rail for the refresh with boundary `index` of a frame. A dark refresh is given VIDLE, be its
half complete or not (DEDUCED, log entry 49). -/
def State.commandRail (s : State) (r index : Nat) : State :=
  if !s.isTile || !(s.railOn r) then s
  else
    let coming := if index = 0 then s.cmp.frames.head? else none
    if s.darkAhead index coming then s.giveRail r (s.get (F.PWR_LEDIDLE_VIDLE r))
    else match coming with
      | none => s.giveRail r (s.railTarget r s.half)
      | some f =>
        if f.complete then s.giveRail r (s.railTarget r (1 - s.half))
        else ((s.count F.PWR_LEDSAFE_COUNT 1).flagF ⟨.PWR_EV, 6, 1⟩).giveRail r (s.get (F.PWR_LEDLIM_VMAX r))

/-- LED_SETPOINT_COMMAND: at B − ADV, B being refresh boundary `index` of its frame (R438). -/
def execLedSetpointCommand (r : Fin 4) (index : Byte) (s : State) : Host.Outcome State Fault Refusal :=
  .next (s.commandRail r index.toNat)

/-! ### Lane spares -/

/-- The physical lane of logical lane `k` in a lane map replaced by the spare, 8 (R303, R330). -/
def mapSpare (w : Word) (k : Nat) : Word := setBits w (4 * k) 4 8

/-- The spare lane of a lane map is in use. -/
def spareUsed (w : Word) : Bool := (List.range 8).any fun k => getBits w (4 * k) 4 == 8

/-- R89, R303, R330: SPARE class 0x04 or 0x05: 0 armed, 2 the spare is in use or armed. -/
def State.spareEngineLane (s : State) (cls : Nat) (idx : Nat) : Nat × State :=
  let w := if cls = 4 then s.rd .CMP_LANEMAP else s.rd .COR_LANEMAP
  if spareUsed w || (s.armedIn cls).isSome then (2, s) else (0, s.arm cls idx)

/-- COMPOSITOR_LANE_SUBSTITUTION: between compositions (R303). -/
def execCompositorLaneSubstitution (s : State) : Host.Outcome State Fault Refusal :=
  .next (match s.armedIn 4 with
    | some k =>
      if s.cmpState = 1 then s
      else ((s.disarm 4 k).wr .CMP_LANEMAP (mapSpare (s.rd .CMP_LANEMAP) k)).substituted fun m => { m with cmpLane := k }
    | none => s)

/-- CORRECTION_LANE_SUBSTITUTION: between a frame's last lamp code and the next compose start (R330). -/
def execCorrectionLaneSubstitution (s : State) : Host.Outcome State Fault Refusal :=
  .next (match s.armedIn 5 with
    | some k =>
      if s.cmpState = 1 then s
      else ((s.disarm 5 k).wr .COR_LANEMAP (mapSpare (s.rd .COR_LANEMAP) k)).substituted fun m => { m with corLane := k }
    | none => s)

end Sys2Proof.Machine
end

