-- ==== Sys2Proof/Machine/Asr.lean ====
section
/-! DEFINITION. The assurance unit: credits of the journal (R499), trims and their safe points (R505, R506), CALSAVE
(R507), version floors (Table 21.2, R491) and SRAM rows (R514). -/

namespace Sys2Proof.Machine

/-! ### Credits -/

/-- BURST in force: 9 to 15 (ASR.NVGUARD). -/
def State.nvBurst (s : State) : Nat := max 9 (s.get F.ASR_NVGUARD_BURST)

/-- NVJ_CREDIT_REFILL: REFILL seconds have passed (R499). -/
def execNvjCreditRefill (s : State) : Host.Outcome State Fault Refusal :=
  .next (s.set F.ASR_NVSTAT_CREDITS (min s.nvBurst (s.get F.ASR_NVSTAT_CREDITS + 1)))

/-! ### Trims -/

/-- The bytes 16 to 251 that 59 words hold (ASR.TRIM and ASR.TRIMF). -/
def State.trimBytes (s : State) (f : Nat → Reg) : List Byte :=
  ((List.range 59).map fun k => leBytes 4 (s.rd (f k)).toNat).flatten

/-- 59 words set from bytes 16 to 251. -/
def State.putTrims (s : State) (f : Nat → Reg) (l : List Byte) : State :=
  (List.range 59).foldl (fun s k => s.wr (f k) (BitVec.ofNat 32 (leAt l (4 * k) 4))) s

/-- Table 21.6: the places, counted from byte 16, of the taps of a class. -/
def trimPlace (cls i : Nat) : Bool :=
  match cls with
  | 0 => decide (i < 5)
  | 1 => decide (5 ≤ i ∧ i < 23)
  | 2 => decide ((23 ≤ i ∧ i < 39) ∨ (48 ≤ i ∧ i < 64))
  | 3 => decide (39 ≤ i ∧ i < 41)
  | 4 => decide (64 ≤ i ∧ i < 100)
  | 5 => decide (100 ≤ i ∧ i < 114)
  | _ => false

/-- The classes of Table 21.6 present in the role (DEDUCED): in sender role no compositor and no scan engine is powered. -/
def State.trimClasses (s : State) : Nat := if s.isTile then 63 else 57

/-- R506: the taps of a class take the values of the set in force; EVTRIM once no class is left. -/
def State.applyTrims (s : State) (cls : Nat) : State :=
  let pend := s.get F.ASR_TRIMSTAT_PEND
  if !(bit pend cls) then s
  else
    let new := s.trimBytes .ASR_TRIMF
    let s := s.modAsr fun a => { a with taps := a.taps.zipIdx.map fun e => if trimPlace cls e.2 then new.getD e.2 0 else e.1 }
    let s := s.set F.ASR_TRIMSTAT_PEND (pend - 2 ^ cls)
    if pend = 2 ^ cls then s.flag .ASR_EV 4 else s

/-- R506: a write of 1 to ASR.CTL.TRIMCOMMIT. -/
def State.trimCommit (s : State) : State :=
  if s.get F.ASR_TRIMSTAT_PEND ≠ 0 then s
  else (s.putTrims .ASR_TRIMF (s.trimBytes .ASR_TRIM)).set F.ASR_TRIMSTAT_PEND s.trimClasses

/-- TRIMCOMMIT (R506). -/
def execTrimcommit (s : State) : Host.Outcome State Fault Refusal := .next s.trimCommit

/-- Table 21.6: what the state shows of a class's safe point: every core halted, waiting or absent for the core taps, and
no composition in progress for the engine lanes. The command says the rest. -/
def State.trimSafe (s : State) (cls : Nat) : Bool :=
  match cls with
  | 0 => (List.range 5).all fun n => s.get (F.HRC_STAT_STATE n) != coreRunning
  | 1 => s.cmp.frames.all (·.complete)
  | _ => true

/-- TRIM_SAFE_POINT of a class (R506, Table 21.6). -/
def execTrimSafePoint (cls : Fin 6) (s : State) : Host.Outcome State Fault Refusal :=
  .next (if s.trimSafe cls then s.applyTrims cls else s)

/-- The 256 bytes of a trim copy (Table 21.5). -/
def State.trimCopy (s : State) (j : Nat) : List Byte := ((List.range 8).map fun i => s.nvPage (8 * j + i)).flatten

/-- The SEQ of a trim copy that is valid (R501). -/
def State.trimSeq (s : State) (j : Nat) : Option Nat :=
  let l := s.trimCopy j
  if slice l 252 4 = checkWord (l.take 252) then some (leAt l 0 4) else none

/-- R505: the trims are loaded at step 3 of Table 20.7. -/
def State.loadTrims (s : State) : State :=
  let put (s : State) (l : List Byte) : State :=
    ((s.putTrims .ASR_TRIMF l).putTrims .ASR_TRIM l).modAsr fun a => { a with taps := l }
  match copyInForce (s.trimSeq 0) (s.trimSeq 1) with
  | some j =>
    let l := s.trimCopy j
    let s := put s (slice l 16 236)
    (s.wr .ASR_CALCNT (BitVec.ofNat 32 (leAt l 4 4))).wr .ASR_CALTIME (BitVec.ofNat 32 (leAt l 8 4))
  | none => (put s nominalTaps).set F.ASR_STAT_TRIMBAD 1

/-! ### CALSAVE -/

/-- CALSAVE ends with an outcome (R507). -/
def State.calEnd (s : State) (res : Nat) : State := (s.set F.ASR_TRIMSTAT_SAVERES res).flag .ASR_EV 5

/-- A CALSAVE is in hand. -/
def State.calBusy (s : State) : Bool :=
  s.asr.jobs.any fun j => match j.owner with
    | .trims .. => true
    | .calibration => true
    | _ => false

/-- R507: a write of 1 to ASR.CTL.CALSAVE; ignored while one is in hand. -/
def State.calSave (s : State) : State :=
  if s.calBusy then s
  else if s.lifeCycle = 0 ∨ 4 ≤ s.lifeCycle then s.calEnd 2
  else if !(s.on F.TIM_STAT_VALID) then s.calEnd 3
  else if s.get F.ASR_TRIMSTAT_PEND ≠ 0 then s.calEnd 7
  else match s.nvCheck 9 with
    | 0 =>
      let (j, q) := nextCopy (s.trimSeq 0) (s.trimSeq 1)
      let n := ((s.rd .ASR_CALCNT).toNat + 1) % 2 ^ 32
      let body := leBytes 4 q ++ leBytes 4 n ++ leBytes 6 (wuSec s.now) ++ [0, 0] ++ s.trimBytes .ASR_TRIMF
      let l := body ++ checkWord body
      (s.nvPay 9).nvQueue ⟨.trims n (wuSec s.now), (List.range 8).map fun i => (8 * j + i, slice l (32 * i) 32), false⟩
    | 2 => (s.nvRefused 2).calEnd 4
    | r => (s.nvRefused r).calEnd 5

/-- CALSAVE (R507). -/
def execCalsave (s : State) : Host.Outcome State Fault Refusal := .next s.calSave

/-- R507, Table 21.4: the last page of trim copy `j` has been verified: CALCNT and CALTIME change, and the calibration
record follows. -/
def State.calRecord (s : State) (j count sec : Nat) : State :=
  let s := (s.wr .ASR_CALCNT (BitVec.ofNat 32 count)).wr .ASR_CALTIME (BitVec.ofNat 32 sec)
  s.journalRecord .calibration 4 [s.recordTime false ++ leBytes 4 count ++ [BitVec.ofNat 8 j]]

/-! ### Version floors -/

/-- The 64 bytes of floor copy `j` (Table 21.2). -/
def State.floorCopy (s : State) (j : Nat) : List Byte := s.nvPage (16 + 2 * j) ++ s.nvPage (17 + 2 * j)

/-- The SEQ of a floor copy that is valid. -/
def State.floorSeq (s : State) (j : Nat) : Option Nat :=
  let l := s.floorCopy j
  if slice l 60 4 = checkWord (l.take 60) then some (leAt l 32 4) else none

/-- The 16 floors in force; 0 where neither copy is valid (Table 21.2). -/
def State.floors (s : State) : List Nat :=
  match copyInForce (s.floorSeq 0) (s.floorSeq 1) with
  | some j => let l := s.floorCopy j; (List.range 16).map fun k => leAt l (2 * k) 2
  | none => List.replicate 16 0

/-- BOT.FLOOR shows the floors. -/
def State.showFloors (s : State) : State :=
  let l := s.floors
  (List.range 8).foldl (fun s j => s.wr (.BOT_FLOOR j) (BitVec.ofNat 32 (l.getD (2 * j) 0 + l.getD (2 * j + 1) 0 * 65536))) s

/-- FLOORUP ends with an outcome (R491). -/
def State.floorEnd (s : State) (res : Nat) : State := (s.set F.BOT_STAT_FLOORRES res).flag .BOT_EV 4

/-- The version that the booted manifest gives a class; of several entries the lowest, which the raised floor must not
shut out (DEDUCED). -/
def State.bootedVersion (s : State) (cls : Nat) : Nat :=
  match (s.bot.booted.filter fun e => e.1 == cls).map (·.2) with
  | [] => 0
  | v :: r => r.foldl min v

/-- R491: a write of 1 to BOT.CTL.FLOORUP; ignored while one is in hand. -/
def State.floorUp (s : State) : State :=
  if s.asr.jobs.any fun j => j.owner == .floors then s
  else
    let old := s.floors
    let new := (List.range 16).map fun k => max (old.getD k 0) (s.bootedVersion k)
    if new = old then s.floorEnd 2
    else match s.nvCheck 2 with
      | 0 =>
        let (j, q) := nextCopy (s.floorSeq 0) (s.floorSeq 1)
        let body := (new.map fun v => leBytes 2 v).flatten ++ leBytes 4 q ++ List.replicate 24 0
        let l := body ++ checkWord body
        (s.nvPay 2).nvQueue ⟨.floors, [(16 + 2 * j, l.take 32), (17 + 2 * j, l.drop 32)], false⟩
      | 2 => (s.nvRefused 2).floorEnd 3
      | r => (s.nvRefused r).floorEnd 4

/-- FLOORUP (R491). -/
def execFloorup (s : State) : Host.Outcome State Fault Refusal := .next s.floorUp

/-! ### SRAM rows -/

/-- Table 21.9: rows and field spare rows of a memory. -/
def sramMemory (m : Nat) : Nat × Nat :=
  if m ≤ 4 then (1024, 16)
  else match m with
    | 5 => (8192, 64)
    | 6 => (24576, 1536)
    | 7 => (4096, 64)
    | 8 => (1024, 16)
    | 9 => (512, 16)
    | _ => (0, 0)

/-- R514: the memory of a row code. -/
def sramOf (code : Nat) : Nat := bits code 19 4

/-- The memory is powered in the role. -/
def State.sramPowered (s : State) (m : Nat) : Bool := decide (m ≤ 5) || (s.isTile && decide (m ≤ 9))

/-- Field spare rows of a memory in use or spoken for. -/
def State.sramUsed (s : State) (m : Nat) : Nat :=
  (s.asr.rows.countP fun c => sramOf c == m) + s.asr.armed.countP fun e => e.1 == 7 && sramOf e.2 == m

/-- Table 21.9: what the state shows of a memory's safe point; the command says the rest. -/
def State.sramSafe (s : State) (m : Nat) : Bool :=
  if m = 7 ∨ m = 9 then s.trimSafe 1 else true

/-- R514: an armed row moves to its spare with its content. -/
def State.replaceRow (s : State) (code : Nat) : State :=
  if s.asr.armed.contains (7, code) && s.sramSafe (sramOf code) then
    let s := (s.disarm 7 code).modAsr fun a => { a with rows := a.rows ++ [code] }
    s.substitutedEntry 1 3 (·.rows) fun m => { m with rows := m.rows ++ [code] }
  else s

/-- SRAM_ROW_SUBSTITUTION (R514). -/
def execSramRowSubstitution (code : BitVec 23) (s : State) : Host.Outcome State Fault Refusal :=
  .next (s.replaceRow code.toNat)

/-- R514, Table 21.9: the code names a row. -/
def sramCodeOk (code : Nat) : Bool := decide (code < 2 ^ 23 ∧ bits code 0 19 < (sramMemory (sramOf code)).1)

/-- R89, R514: SPARE class 0x07: 0 armed or done, 2 no field spare row left, 3 the memory is unpowered. -/
def State.spareRow (s : State) (code : Nat) : Nat × State :=
  let m := sramOf code
  if !(s.sramPowered m) then (3, s)
  else if (sramMemory m).2 ≤ s.sramUsed m then (2, s)
  else
    let s := s.arm 7 code
    (0, if m ≤ 5 then s.replaceRow code else s)

end Sys2Proof.Machine
end

