-- ==== Sys2Proof/Machine/LinkTx.lean ====
section
/-! DEFINITION. Sending link frames (R154 to R166, R169 to R171): what each virtual channel puts in a frame, the frame's
layout, header and trailer, resends, and the silent queues of a shadow, whose content is read and not sent (R393,
R394). Where the spec leaves the packing of a frame open, the model packs it in the order of the channels. -/

namespace Sys2Proof.Machine

/-- A frame being filled: its descriptors, its units so far, and the descriptor of its VC0 cells. -/
structure Fill where
  descs : List (BitVec 64)
  units : List (BitVec 64)
  vc0 : Option Nat

/-- The units still free (R154). -/
def Fill.room (f : Fill) : Nat := 117 - f.units.length

/-- A segment descriptor (Table 7.3). -/
def descriptor (kind start len handle gen block : Nat) : BitVec 64 :=
  unitOf [(61, kind), (54, start), (47, len), (35, handle), (19, gen), (0, block)]

/-- A segment added to a frame. -/
def Fill.add (f : Fill) (kind handle gen block : Nat) (us : List (BitVec 64)) : Fill :=
  { f with descs := f.descs ++ [descriptor kind f.units.length us.length handle gen block], units := f.units ++ us }

/-! ### Launch entries -/

/-- The launch queue of a port (R207). -/
def State.queue (s : State) (p : Nat) : List LaunchEntry := (s.tim.queues[p]?).getD []

/-- A launch queue replaced; TIM.LQSTAT shows its length. -/
def State.setQueue (s : State) (p : Nat) (q : List LaunchEntry) : State :=
  { s with tim := { s.tim with queues := s.tim.queues.setIfInBounds p q } }.set (F.TIM_LQSTAT_ENTRIES p) q.length

/-- Content of launch entry `e` still waits on a port. -/
def Port.holdsEntry (t : Port) (e : Nat) : Bool :=
  t.cutEntry == some e || t.vc1.any (fun q => q.entry == some e)
    || t.vc3.any fun
      | .run .. => false
      | .source _ _ _ _ _ _ en => en == e
      | .genEnd _ _ _ en => en == some e

/-- R208: an entry keeps its place until all its content has been sent; then a release fence may pass (R268). -/
def State.entrySent (s : State) (p : Nat) (e : Option Nat) : State :=
  match e with
  | none => s
  | some e =>
    if (s.port p).holdsEntry e then s
    else
      let gone := (s.queue p).filter fun x => x.id == e
      let s := s.setQueue p ((s.queue p).filter fun x => x.id != e)
      gone.foldl (fun s x => if x.kind = 0 then s else s.passFence x.handle) s

/-- What follows when the last unit of a cell has been placed in frame `seq` of a port. -/
def State.cellSent (s : State) (p seq : Nat) (e : Option Nat) : State :=
  if p = 8 then (match e with | some id => s.markHeld id seq | none => s) else s.entrySent p e

/-! ### VC0 -/

/-- Seconds [31:0], nanoseconds and fraction of an instant, as LDRSP carries them. -/
def instantParts (t : Nat) : BitVec 32 × BitVec 32 × BitVec 16 :=
  (BitVec.ofNat 32 (wuSec t), BitVec.ofNat 32 (wuNs t), BitVec.ofNat 16 (wuFrac t))

/-- R203 to R205: the units of a VC0 item as it is sent at instant `t` at the balls. -/
def Vc0Item.units (t : Nat) : Vc0Item → List (BitVec 64)
  | .time epoch fromB seq =>
    (Cell.time ⟨seq, epoch, BitVec.ofNat 48 (wuSec t), 0, fromB, BitVec.ofNat 32 (wuNs t), BitVec.ofNat 16 (wuFrac t),
      0⟩).units
  | .forward c r => (Cell.time { c with corr := BitVec.ofInt 64 (c.corr.toInt + (t - r)) }).units
  | .ldreq seq => (Cell.ldreq seq).units
  | .ldrsp seq t2 =>
    let a := instantParts t2
    let b := instantParts t
    (Cell.ldrsp ⟨seq, a.1, a.2.1, b.1, b.2.1, a.2.2, b.2.2⟩).units

/-- VC0 cells that fit are placed in one segment of their own (R157, R160, Table 7.5). -/
def State.fillVc0 (s : State) (p : Nat) (f : Fill) : State × Fill :=
  let t := s.now + s.portTxLat p
  let items := (s.port p).vc0
  let fit := items.take (((List.range (items.length + 1)).filter fun n =>
    decide (((items.take n).map (Vc0Item.units t)).flatten.length ≤ f.room)).length - 1)
  if fit.isEmpty then (s, f)
  else
    let sentReq := fit.foldl (fun a x => match x with | .ldreq q => some (q, t) | _ => a) (s.port p).ldPending
    let s := s.modPort p fun x => { x with vc0 := x.vc0.drop fit.length, ldPending := sentReq }
    let g := f.add 1 0 0 0 (fit.map (Vc0Item.units t)).flatten
    (s, { g with vc0 := some (g.descs.length - 1) })

/-! ### VC1 and VC2 -/

/-- VC3 has something ready to send: credit, and at its head content that is at hand (R166). -/
def State.vc3Ready (s : State) (p : Nat) : Bool :=
  decide (0 < (s.port p).credit3) && (match (s.port p).vc3 with
    | [] => false
    | .source h g b _ cut _ _ :: _ =>
      if !cut.isEmpty then true
      else match s.handle h with
        | some x => match x.find g, x.windowIndex b with
          | some j, some i => s.present x j i
          | _, _ => true
        | none => true
    | _ => true)

/-- R166: the head of VC2 may be sent now: at a sender port within the allowance, or while VC3 has nothing ready. -/
def State.vc2Allowed (s : State) (p : Nat) (n : Nat) : Bool :=
  s.isTile || !(s.vc3Ready p) || decide (8 * n ≤ (s.port p).allowance)

/-- R171: the next VC1 or VC2 cell of a queue: own and forwarded cells in turn. -/
def pickCell (own : Bool) (l : List QCell) : Option (QCell × List QCell) :=
  match l.findIdx? fun q => q.via.isNone == own with
  | some i => (l[i]?).map fun q => (q, l.eraseIdx i)
  | none => match l with
    | [] => none
    | q :: r => some (q, r)

/-- The next cell that credit and precedence allow, taken out of its queue and debited (R165, R166). -/
def State.takeCell (s : State) (p : Nat) : Option (QCell × State) :=
  let t := s.port p
  let debit1 := (pickCell t.ownTurn t.vc1).bind fun (q, r) =>
    let n := granules q.units.length
    if n ≤ t.credit1 then
      some (q, s.modPort p fun x => { x with vc1 := r, credit1 := x.credit1 - n, ownTurn := !q.via.isNone })
    else none
  match debit1 with
  | some r => some r
  | none => (pickCell t.ownTurn t.vc2).bind fun (q, r) =>
    let n := granules q.units.length
    if n ≤ t.credit2 ∧ s.vc2Allowed p q.units.length then
      let spend := if !s.isTile && s.vc3Ready p then 8 * q.units.length else 0
      some (q, s.modPort p fun x =>
        { x with vc2 := r, credit2 := x.credit2 - n, ownTurn := !q.via.isNone, allowance := x.allowance - spend })
    else none

/-- The channel whose credit a cell uses. -/
def cellVc (us : List (BitVec 64)) : Nat :=
  let t := uf (us.headD 0) 56 8
  if (0x20 ≤ t ∧ t ≤ 0x23) ∨ (0xA0 ≤ t ∧ t ≤ 0xA3) then 2 else 1

/-- VC1 and VC2 cells placed while there is room; the last one may be cut (R157). -/
def fillCells : Nat → State → Nat → Nat → Nat → List (BitVec 64) → State × List (BitVec 64)
  | 0, s, _, _, _, acc => (s, acc)
  | fuel + 1, s, p, seq, room, acc =>
    if room ≤ acc.length then (s, acc)
    else match s.takeCell p with
      | none => (s, acc)
      | some (q, s) =>
        let s := match q.via with
          | some v => s.giveCredit v (cellVc q.units) (granules q.units.length)
          | none => s
        let free := room - acc.length
        if q.units.length ≤ free then fillCells fuel (s.cellSent p seq q.entry) p seq room (acc ++ q.units)
        else
          (s.modPort p fun x => { x with cut := q.units.drop free, cutEntry := q.entry }, acc ++ q.units.take free)

/-- The units of the next blocks of a generation at hand, up to `room` units, with the blocks taken; a block that cannot
be read has free bytes, and one that fails its check is counted and sent unchanged (R241, R275). -/
def sourceUnits : Nat → State → Handle → Nat → Nat → Nat → List (BitVec 64) → Nat → State × List (BitVec 64) × Nat
  | 0, s, _, _, _, _, acc, n => (s, acc, n)
  | fuel + 1, s, x, j, raster, room, acc, n =>
    if room ≤ acc.length then (s, acc, n)
    else match x.windowIndex raster with
      | none => (s, acc, n)
      | some i =>
        if !(s.present x j i) then (s, acc, n)
        else
          let (l, s) := match s.blockData x j i with
            | some l => (l, s)
            | none => s.drawBytes (blockBytes x.fmt)
          let s := if !(fmtRaw x.fmt) && !(compressedPasses x.fmt l) then
              (s.count F.SRF_RXCHK_COUNT 1).flag .SRF_EV 1 else s
          sourceUnits fuel s x j (raster + 1) room (acc ++ bytesToUnits l) (n + 1)

/-- The head of VC3 changed. -/
def State.setVc3 (s : State) (p : Nat) (l : List Vc3Item) : State := s.modPort p fun t => { t with vc3 := l }

/-- R261, R241: a raw generation is sent only once it is COMPLETE. -/
def readyToRead (x : Handle) (j : Nat) : Bool := !(fmtRaw x.fmt) || decide ((x.slots.getD j Slot.empty).st ≠ 1 ∧ (x.slots.getD j Slot.empty).st ≠ 2)

/-- VC3 content placed while there are descriptors, room and credit (R157, R165, R174). -/
def fillVc3 : Nat → State → Nat → Fill → State × Fill
  | 0, s, _, f => (s, f)
  | fuel + 1, s, p, f =>
    let most := min f.room ((s.port p).credit3 * 8)
    if 4 ≤ f.descs.length ∨ f.room = 0 then (s, f)
    else match (s.port p).vc3 with
      | [] => (s, f)
      | .genEnd h g _ e :: r =>
        let f := f.add 4 h g 0 []
        fillVc3 fuel ((s.setVc3 p r).entrySent p e) p f
      | .run h g b us cont via gran :: r =>
        let now := us.take most
        if now.isEmpty then (s, f)
        else
          let f := if cont then f.add 3 0 0 0 now else f.add 2 h g b now
          let s := s.modPort p fun t => { t with credit3 := t.credit3 - granules now.length }
          if us.length ≤ most then
            let s := match via with | some v => s.giveCredit v 3 gran | none => s
            fillVc3 fuel (s.setVc3 p r) p f
          else (s.setVc3 p (.run h g b (us.drop most) true via gran :: r), f)
      | .source h g b cnt cut cont e :: r =>
        match (s.handle h).bind fun x => (x.find g).map fun j => (x, j) with
        | none =>
          fillVc3 fuel (((s.setVc3 p r).flagF (F.TIM_LQSTAT_EVBAD p)).entrySent p (some e)) p f
        | some (x, j) =>
          let (s, us, n) := if readyToRead x j then sourceUnits (min cnt 118) s x j b most cut 0 else (s, cut, 0)
          let now := us.take most
          if now.isEmpty then (s, f)
          else
            let f := if cont then f.add 3 0 0 0 now else f.add 2 h g b now
            let s := s.modPort p fun t => { t with credit3 := t.credit3 - granules now.length }
            let rest := us.drop most
            if n = cnt ∧ rest.isEmpty then fillVc3 fuel ((s.setVc3 p r).entrySent p (some e)) p f
            else (s.setVc3 p (.source h g (b + n) (cnt - n) rest true e :: r), f)

/-- A frame filled from the queues of a port: the rest of a cut cell, VC0, VC1 and VC2, then VC3 (Table 7.5). -/
def State.fillFrame (s : State) (p : Nat) : State × Fill :=
  let seq := (s.port p).txSeq
  let f : Fill := ⟨[], [], none⟩
  let cut := (s.port p).cut
  let (s, f) :=
    if cut.isEmpty then (s, f)
    else
      let e := (s.port p).cutEntry
      let s := s.modPort p fun t => { t with cut := cut.drop 117, cutEntry := if cut.length ≤ 117 then none else e }
      (if cut.length ≤ 117 then s.cellSent p seq e else s, f.add 1 0 0 0 (cut.take 117))
  if !(s.port p).cut.isEmpty then (s, f)
  else
    let (s, f) := s.fillVc0 p f
    let (s, us) := fillCells 117 s p seq f.room []
    let f := if us.isEmpty then f else f.add 1 0 0 0 us
    fillVc3 4 s p f

/-! ### Frames -/

/-- Descriptors or units in their fixed number, the rest zero. -/
def vectorOf (n : Nat) (l : List (BitVec 64)) : Vector (BitVec 64) n := Vector.ofFn fun i => l.getD i.val 0

/-- A frame header payload (Table 7.2). -/
def headerOf (seq ackSeq ackType : Nat) (resend null : Bool) : BitVec 56 :=
  BitVec.ofNat 56 (seq * 2 ^ 44 + ackSeq * 2 ^ 32 + ackType * 2 ^ 30 + b2n resend * 2 ^ 29 + b2n null * 2 ^ 28)

/-- The CRC of a frame (Table 7.2): over the header payload, the descriptors, the cell area and the low half of the
trailer. -/
def frameCrc (header : BitVec 56) (desc : Vector (BitVec 64) 4) (area : Vector (BitVec 64) 117) (low : BitVec 32) :
    BitVec 32 :=
  crc32 (beBytes 7 header.toNat ++ unitsToBytes desc.toList ++ unitsToBytes area.toList ++ beBytes 4 low.toNat)

/-- A frame with its CRC and 2 gap blocks (R155). -/
def frameOf (header : BitVec 56) (desc : Vector (BitVec 64) 4) (area : Vector (BitVec 64) 117) (low : BitVec 32) :
    LinkFrame :=
  ⟨header, desc, area, frameCrc header desc area low ++ low, 2⟩

/-- R154: block `k` of a frame goes on the lower (0) or the higher (1) active lane; `odd` is the number, even or odd, of the
frame's first block in the port's block stream. -/
def frameLane (odd : Bool) (k : Nat) : Nat := (b2n odd + k) % 2

/-- A frame leaves a port; its blocks are counted on (R154). -/
def State.putFrame (s : State) (p : Nat) (f : LinkFrame) : State :=
  let odd := (s.port p).odd
  (s.emit (.frame p odd f)).modPort p fun t => { t with odd := odd != ((123 + f.gap) % 2 == 1) }

/-- R160: the ACKTYPE of the next header, and the state after it is sent. -/
def State.ackType (s : State) (p : Nat) : Nat × State :=
  if (s.port p).nakDue then (2, s.modPort p fun t => { t with nakDue := false }) else (1, s)

/-- R160: the last SEQ accepted. -/
def State.ackSeq (s : State) (p : Nat) : Nat := ((s.port p).rxNext + 4095) % 4096

/-- R161: a null frame. -/
def State.sendNull (s : State) (p : Nat) : State :=
  let (a, s) := s.ackType p
  s.putFrame p (frameOf (headerOf 0 (s.ackSeq p) a false true) (vectorOf 4 []) (vectorOf 117 []) 0)

/-- R160: the oldest frame due for resend, its VC0 cells replaced by padding. -/
def State.sendResend (s : State) (p : Nat) (k : KeptFrame) (rest : List KeptFrame) : State :=
  let (a, s) := s.ackType p
  let desc := match k.vc0 with
    | some i => k.desc.setIfInBounds i 0
    | none => k.desc
  let s := (s.modPort p fun t => { t with resend := rest }).count (F.LNK_RETRYCNT_COUNT p) 1
  s.putFrame p (frameOf (headerOf k.seq (s.ackSeq p) a true false) desc k.area k.credits)

/-- The credits that the next frame returns, and the state after they are returned (Table 7.2). -/
def State.takeCredits (s : State) (p : Nat) : BitVec 32 × State :=
  let t := s.port p
  let c1 := min t.return1 255
  let c2 := min t.return2 255
  let c3 := min t.return3 255
  (BitVec.ofNat 32 (c1 * 2 ^ 24 + c2 * 2 ^ 16 + c3 * 256),
    s.modPort p fun t => { t with return1 := t.return1 - c1, return2 := t.return2 - c2, return3 := t.return3 - c3 })

/-- A new frame with SEQ, kept until it is acknowledged (R160, R161). -/
def State.sendNew (s : State) (p : Nat) (desc : Vector (BitVec 64) 4) (area : Vector (BitVec 64) 117) (low : BitVec 32)
    (vc0 : Option Nat) (gap : Nat) : State :=
  let (a, s) := s.ackType p
  let seq := (s.port p).txSeq
  let s := s.modPort p fun t => { t with kept := t.kept ++ [⟨seq, desc, area, low, vc0⟩], txSeq := (seq + 1) % 4096 }
  s.putFrame p { frameOf (headerOf seq (s.ackSeq p) a false false) desc area low with gap := gap }

/-- A filled frame with the credits it returns; a null frame where there is neither content nor credit. -/
def State.sendFilled (s : State) (p : Nat) (f : Fill) : State :=
  let (low, s) := s.takeCredits p
  if f.descs.isEmpty ∧ low = 0 then s.sendNull p
  else s.sendNew p (vectorOf 4 f.descs) (vectorOf 117 f.units) low f.vc0 2

/-- R166: the VC2 allowance builds up at LNK.VC2RATE, 2 bytes per frame and unit of rate, to a depth of 16 KiB. -/
def State.buildAllowance (s : State) (p : Nat) : State :=
  s.modPort p fun t => { t with allowance := min 16384 (t.allowance + 2 * s.get F.LNK_VC2RATE_RATE) }

/-! ### Silent queues -/

/-- R394: the check code of a block of a run: its raster index and its bytes. -/
def runCrcStep (c : BitVec 32) (raster : Nat) (l : List Byte) : BitVec 32 := (beBytes 4 raster ++ l).foldl crc32Byte c

/-- The running code of a generation on a ring, changed; a first block begins it. -/
def State.modRunCrc (s : State) (ring h g : Nat) (silent : Bool) (f : RunCrc → RunCrc) : State :=
  let is := fun (r : RunCrc) => r.ring == ring && r.handle == h && r.gen == g && r.silent == silent && !r.ended
  let l := s.mir.runs
  let l := if l.any is then l else l ++ [⟨ring, h, g, 0xFFFFFFFF, false, silent⟩]
  { s with mir := { s.mir with runs := l.map fun r => if is r then f r else r } }

/-- R394: the outcome of one comparison on a ring. -/
def State.compared (s : State) (ring : Nat) (good : Bool) (token : Bool) (h g : Nat) : State :=
  let s := { s with mir := { s.mir with lastMatch := (ring, good) :: s.mir.lastMatch.filter fun e => e.1 != ring } }
  if good then s.count F.MIR_XCOK_COUNT 1
  else
    let s := s.count F.MIR_XCERR_COUNT 1
    let s := s.set F.MIR_XCLAST_HANDLE (if token then 0 else h)
    let s := s.set F.MIR_XCLAST_GEN (if token then 0 else g)
    let s := s.set F.MIR_XCLAST_CHAIN ring
    (s.set F.MIR_XCLAST_TOKEN (b2n token)).flag .MIR_EV 3

/-- R395: READY follows the last comparison of every ring with a silent queue and HOSTGAP. -/
def State.updateReady (s : State) : State :=
  if s.get F.MIR_STAT_ROLE = 2 then
    let rings := (List.range 8).filter fun p => s.silent p
    let ok := rings.all fun p => (s.mir.lastMatch.lookup p) == some true
    s.set F.MIR_STAT_READY (b2n (ok && !(s.on F.MIR_STAT_HOSTGAP)))
  else s

/-- R394: a generation end on a ring is compared once both sides have it. -/
def State.compareRuns (s : State) (ring h g : Nat) : State :=
  let same := fun (r : RunCrc) => r.ring == ring && r.handle == h && r.gen == g && r.ended
  match s.mir.runs.find? (fun r => same r && r.silent), s.mir.runs.find? (fun r => same r && !r.silent) with
  | some a, some b =>
    let s := { s with mir := { s.mir with runs := s.mir.runs.filter fun r => !(r == a) && !(r == b) } }
    (s.compared ring (a.crc == b.crc) false h g).updateReady
  | _, _ => s

/-- A generation end seen on one side (R394). -/
def State.endRun (s : State) (ring h g : Nat) (silent : Bool) : State :=
  (s.modRunCrc ring h g silent fun r => { r with ended := true }).compareRuns ring h g

/-- The fields of a token that the cross-check compares: all but EPOCH (R394). -/
def tokenSame (a b : TokenCell) : Bool := decide ({ a with epoch := 0 } = { b with epoch := 0 })

/-- Two tokens of the same show instant. -/
def tokenInstantSame (a b : TokenCell) : Bool := a.sec == b.sec && a.ns == b.ns && a.frac == b.frac

/-- R394: a token on one side is compared with its counterpart, or waits for it. -/
def State.matchToken (s : State) (ring : Nat) (c : TokenCell) (silent : Bool) : State :=
  let is := fun (t : LoneToken) => t.ring == ring && t.silent != silent && tokenInstantSame t.cell c
  match s.mir.tokens.find? is with
  | some t =>
    let s := { s with mir := { s.mir with tokens := s.mir.tokens.filter fun x => !(x == t) } }
    (s.compared ring (tokenSame t.cell c) true 0 0).updateReady
  | none => { s with mir := { s.mir with tokens := s.mir.tokens ++ [⟨ring, c, silent⟩] } }

/-- The blocks of a silent run that are at hand go into its check code (R393, R394). -/
def silentBlocks : Nat → State → Nat → Nat → Nat → Handle → Nat → Nat → State × Nat
  | 0, s, _, _, _, _, _, _ => (s, 0)
  | fuel + 1, s, p, h, g, x, j, raster =>
    match x.windowIndex raster with
    | none => (s, 0)
    | some i =>
      if !(s.present x j i) then (s, 0)
      else
        let (l, s) := match s.blockData x j i with
          | some l => (l, s)
          | none => s.drawBytes (blockBytes x.fmt)
        let s := if !(fmtRaw x.fmt) && !(compressedPasses x.fmt l) then
            (s.count F.SRF_RXCHK_COUNT 1).flag .SRF_EV 1 else s
        let s := s.modRunCrc p h g true fun r => { r with crc := runCrcStep r.crc raster l }
        let (s, n) := silentBlocks fuel s p h g x j (raster + 1)
        (s, n + 1)

/-- R393: the content of a silent queue is read as for sending, and nothing leaves the port. -/
def drainSilent : Nat → State → Nat → State
  | 0, s, _ => s
  | fuel + 1, s, p =>
    match (s.port p).vc3 with
    | [] => s
    | .run .. :: r => drainSilent fuel (s.setVc3 p r) p
    | .genEnd h g _ e :: r => drainSilent fuel (((s.setVc3 p r).endRun p h g true).entrySent p e) p
    | .source h g b cnt _ _ e :: r =>
      match (s.handle h).bind fun x => (x.find g).map fun j => (x, j) with
      | none => drainSilent fuel (((s.setVc3 p r).flagF (F.TIM_LQSTAT_EVBAD p)).entrySent p (some e)) p
      | some (x, j) =>
        let (s, n) := if readyToRead x j then silentBlocks cnt s p h g x j b else (s, 0)
        if n = cnt then drainSilent fuel ((s.setVc3 p r).entrySent p (some e)) p
        else s.setVc3 p (.source h g (b + n) (cnt - n) [] false e :: r)

/-! ### The next frame -/

/-- R390: the next CKDATA cell of a checkpoint being sent, or its CKDONE; 128 units of data in each CKDATA. -/
def State.queueCheckpoint (s : State) : State :=
  match s.mir.ckTx with
  | none => s
  | some (seq, off) =>
    if !((s.port 8).vc1.isEmpty && (s.port 8).cut.isEmpty) || s.midnight then s
    else
      let total := max 1 (s.get F.MIR_CKLEN_PAGES) * 4096
      if off < total then
        let a := s.get F.MIR_CKSRC_ADDR * 4096 + off
        let n := min 1024 (total - off)
        let us := bytesToUnits (s.bytes a n)
        let cell := headUnit 0x33 (2 + us.length) [(32, seq)] :: unitOf [(0, off)] :: us
        { s with mir := { s.mir with ckTx := some (seq, off + n) } }.sendVc1 8 ⟨cell, none, false, none⟩
      else
        let s := s.sendVc1 8 ⟨[headUnit 0x34 1 [(32, seq), (0, total / 4096)]], none, false, none⟩
        let s := { s with mir := { s.mir with ckTx := none } }
        ((s.set F.MIR_CKSTAT_BUSY 0).set F.MIR_CKSTAT_SEQ seq).flag .MIR_EV 5

/-- R154, R160, R161: the next frame of an up port: a resend, a null frame while 64 frames are unacknowledged, or a new
frame. -/
def State.sendFrame (s : State) (p : Nat) : State :=
  if !(s.up p) then s
  else
    let s := if p < 8 && !s.isTile then s.buildAllowance p else s
    let s := if s.silent p then drainSilent 64 s p else s
    let s := if p = 8 then s.queueCheckpoint else s
    match (s.port p).resend with
    | k :: rest => s.sendResend p k rest
    | [] =>
      if 64 ≤ (s.port p).kept.length then s.sendNull p
      else
        let (s, f) := s.fillFrame p
        s.sendFilled p f

/-- LINK_FRAME_SEND: every 160 ns each up port sends one frame (R154). -/
def execLinkFrameSend (p : Fin 9) (s : State) : Host.Outcome State Fault Refusal := .next (s.sendFrame p)

/-- R160, R161: a resend round from the oldest unacknowledged frame on; the ninth without an advance takes the port
down, from where it comes up again if its lanes and its partner still allow it (R163). -/
def State.startResend (s : State) (p : Nat) (after : List KeptFrame) : State :=
  if after.isEmpty then s
  else if 8 ≤ (s.port p).rounds then (s.portDown p).checkPort p
  else s.modPort p fun t => { t with resend := after, rounds := t.rounds + 1 }

/-- RESEND_TIMEOUT: the oldest unacknowledged frame has waited 4 µs (R160). -/
def execResendTimeout (p : Fin 9) (s : State) : Host.Outcome State Fault Refusal :=
  .next (if s.up p then s.startResend p (s.port p).kept else s)

/-- NAK_REPEAT: 2 µs without an accepted frame after a NAK (R160). -/
def execNakRepeat (p : Fin 9) (s : State) : Host.Outcome State Fault Refusal :=
  .next (if s.up p && (s.port p).nakOpen then s.modPort p fun t => { t with nakDue := true } else s)

end Sys2Proof.Machine
end

