-- ==== Sys2Proof/Machine/LaunchOps.lean ====
section
/-! DEFINITION. The launch queues of the sender's chain ports (R207 to R210, R393). -/

namespace Sys2Proof.Machine

/-- R7: the word exists and is powered in the role. -/
def State.alive (s : State) (r : Reg) : Bool := r.powered s.isTile

/-- R207: the instant whose seconds have the given low 32 bits and that lies nearest to now, in 1/65,536 ns. -/
def nearestInstant (now sec ns : Nat) : Nat :=
  let hi := wuSec now / 2 ^ 32
  let t := fun k => wuOf (k * 2 ^ 32 + sec) ns 0
  let far := fun k => (now - t k) + (t k - now)
  if 0 < hi ∧ far (hi - 1) < far hi then t (hi - 1) else if far (hi + 1) < far hi then t (hi + 1) else t hi

/-- R207, Table 8.4: a launch descriptor, or none where it breaks the table. -/
def launchEntry (id now : Nat) (l : List Byte) : Option LaunchEntry :=
  let ctrl := leAt l 0 4
  let len := leAt l 4 4
  let src := leAt l 8 8
  let h := leAt l 24 2
  let g := leAt l 26 2
  let kind := ctrl % 4
  let lenOk := match kind with
    | 0 => decide (8 ≤ len ∧ len ≤ 4096 ∧ len % 8 = 0)
    | 1 => decide (8 ≤ len ∧ len ≤ 65536 ∧ len % 8 = 0)
    | _ => len == 0
  let restOk := match kind with
    | 0 => decide (src % 8 = 0 ∧ h = 0 ∧ g = 0)
    | 1 => decide (src % 8 = 0 ∧ h < 4096)
    | _ => decide (src = 0 ∧ h < 4096)
  if 4 ≤ ctrl ∨ kind = 3 ∨ leAt l 28 4 ≠ 0 ∨ !lenOk ∨ !restOk then none
  else some ⟨id, kind, len, src, nearestInstant now (leAt l 16 4) (leAt l 20 4), h, g, false⟩

/-- A write to TIM.LQPUSH[p] (R207). -/
def State.lqPush (s : State) (p : Nat) (value : Word) : State :=
  if !(s.alive (.TIM_LQPUSH p)) then s
  else if 64 ≤ (s.queue p).length then s.flagF (F.TIM_LQSTAT_EVFULL p)
  else
    match (s.loadData (0xE100000000 + getBits value 5 16 * 32) 32).bind (launchEntry s.tim.nextEntry s.now) with
    | none => s.flagF (F.TIM_LQSTAT_EVBAD p)
    | some e =>
      { s with tim := { s.tim with nextEntry := s.tim.nextEntry + 1 } }.setQueue p (s.queue p ++ [e])

/-- LQ_PUSH (R207). -/
def execLqPush (p : Fin 8) (value : Word) (s : State) : Host.Outcome State Fault Refusal := .next (s.lqPush p value)

/-- Cells out of the units of a CELLS entry, by their LEN fields. -/
def splitCells : Nat → List (BitVec 64) → Option (List (List (BitVec 64)))
  | 0, _ => none
  | _, [] => some []
  | fuel + 1, u :: r =>
    let n := uf u 48 8
    if n = 0 ∨ (u :: r).length < n then none
    else (splitCells fuel ((u :: r).drop n)).map fun l => (u :: r).take n :: l

/-- R209: the TOKEN and RETRACT cells of a CELLS entry; none if it holds another cell. -/
def launchCells (l : List Byte) : Option (List Cell) :=
  (splitCells 513 (bytesToUnits l)).bind fun cs => cs.mapM fun us =>
    match Cell.decode us with
    | some (.token c) => some (.token c)
    | some (.retract c) => some (.retract c)
    | _ => none

/-- R210: the EPOCH of a launched cell overwritten. -/
def Cell.withEpoch (e : BitVec 32) : Cell → Cell
  | .token c => .token { c with epoch := e }
  | .retract c => .retract { c with epoch := e }
  | c => c

/-- The elements of a run list: first block and count (Table 8.4). -/
def runList (l : List Byte) : List (Nat × Nat) := (chunks 8 8192 l).map fun e => (leAt e 0 4, leAt e 4 4)

/-- The generation of a launch entry as the codec holds it for a new use (R209, R270). -/
def State.heldFor (s : State) (e : LaunchEntry) : Option Handle :=
  (s.handle e.handle).bind fun x => (x.find e.gen).bind fun j =>
    if (x.slots.getD j Slot.empty).st = 5 then none else some x

/-- The VC3 content of a launch entry, or none where R209 discards it. An element outside the surface is treated so. -/
def State.launchVc3 (s : State) (e : LaunchEntry) : Option (List Vc3Item) :=
  (s.heldFor e).bind fun x =>
    if e.kind = 1 then
      match (s.load e.src e.len).1 with
      | .ok l =>
        let rs := runList l
        if rs.all fun r => decide (1 ≤ r.2 ∧ r.1 + r.2 ≤ x.bw * x.bh) then
          some (rs.map fun r => .source e.handle e.gen r.1 r.2 [] false e.id)
        else none
      | _ => none
    else some [.genEnd e.handle e.gen none (some e.id)]

/-- An entry discarded at its start under R209. -/
def State.discardEntry (s : State) (p : Nat) (e : LaunchEntry) : State :=
  (s.setQueue p ((s.queue p).filter fun x => x.id != e.id)).flagF (F.TIM_LQSTAT_EVBAD p)

/-- An entry starts (R208, R210); a silent queue's tokens go to the cross-check (R393, R394). -/
def State.startEntry (s : State) (p : Nat) (e : LaunchEntry) : State :=
  let s := if e.time + 65536000 < s.now then (s.count (F.TIM_LQCNT_LATE p) 1).flagF (F.TIM_LQSTAT_EVLATE p) else s
  let began := s.setQueue p ((s.queue p).map fun x => if x.id = e.id then { x with started := true } else x)
  if e.kind = 0 then
    match (s.load e.src e.len).1 with
    | .ok l =>
      match launchCells l with
      | none => s.discardEntry p e
      | some cs =>
        if s.silent p then
          (cs.foldl (fun s c => match c with | .token c => s.matchToken p c true | _ => s) began).entrySent p (some e.id)
        else
          cs.foldl (fun s c => s.sendVc1 p ⟨(c.withEpoch (s.endEpoch p)).units, none, false, some e.id⟩) began
    | _ => s.discardEntry p e
  else
    match s.launchVc3 e with
    | some items => began.modPort p fun t => { t with vc3 := t.vc3 ++ items }
    | none => s.discardEntry p e

/-- LAUNCH_ENTRY_START: the first entry not started starts once its time has come (R208, R209); while VALID is 0 none
starts, and none on an end that is outranked (R186). -/
def execLaunchEntryStart (p : Fin 8) (s : State) : Host.Outcome State Fault Refusal :=
  .next (match (s.queue p).find? fun e => !e.started with
    | none => s
    | some e =>
      if !(s.on F.TIM_STAT_VALID) || decide (s.now < e.time) || (s.on (F.LNK_PSTAT_OUTRANKED p) && !(s.silent p)) || s.midnight then s
      else if !(s.up p) then
        ((s.setQueue p ((s.queue p).filter fun x => x.id != e.id)).count (F.TIM_LQCNT_DROP p) 1).flagF
          (F.TIM_LQSTAT_EVDROP p)
      else s.startEntry p e)

/-- R209: every entry that has not started is discarded. -/
def State.flushQueue (s : State) (p : Nat) : State := s.setQueue p ((s.queue p).filter (·.started))

/-- LAUNCH_FLUSH (R209). -/
def execLaunchFlush (p : Fin 8) (s : State) : Host.Outcome State Fault Refusal := .next (s.flushQueue p)

end Sys2Proof.Machine
end

