-- ==== Sys2Proof/Machine/PairOps.lean ====
section
/-! DEFINITION. The sender pair (R380 to R401): roles, heartbeats, host records, mirrored tags, checkpoints, takeover and
handover; and the life of a tag at the sender with its journal (R181, R183, R389). -/

namespace Sys2Proof.Machine

/-- MIR.STAT.ROLE codes. -/
def roleLead : Nat := 1
def roleShadow : Nat := 2
def roleDeposed : Nat := 3

/-- The pair role of this sender (R380). -/
def State.role (s : State) : Nat := s.get F.MIR_STAT_ROLE

/-- The role changes; READY belongs to a shadow (R395). -/
def State.setRole (s : State) (r : Nat) : State := ((s.set F.MIR_STAT_ROLE r).set F.MIR_STAT_READY 0).updateReady

/-- 3 × MIR.CFG.HBPER in ticks; values below 10 µs act as 10. -/
def State.hbWindow (s : State) : Nat := usTicks (3 * max 10 (s.get F.MIR_CFG_HBPER))

/-- A moment lies within the last 3 × HBPER. -/
def State.hbRecent (s : State) (t : Option Nat) : Bool :=
  match t with
  | some t => decide (s.tim.ticks < t + s.hbWindow)
  | none => false

/-- MIR.STAT.PARTNER and PROLE change; EVPARTNER on a change (Table 15.4). -/
def State.setPartner (s : State) (present : Bool) (prole : Nat) : State :=
  if present = s.on F.MIR_STAT_PARTNER ∧ prole = s.get F.MIR_STAT_PROLE then s
  else ((s.set F.MIR_STAT_PARTNER (b2n present)).set F.MIR_STAT_PROLE prole).flag .MIR_EV 2

/-- The mirror record changed. -/
def State.modMir (s : State) (f : MirState → MirState) : State := { s with mir := f s.mir }

/-! ### Tags -/

/-- R389: JOURNAL for a tag that leaves FREE or returns to it, from a lead. -/
def State.journal (s : State) (t : SendTag) (out : Bool) : State :=
  if s.paired && s.role == roleLead then
    let xfer := match t.owner with | .piece .. => true | _ => false
    s.sendCell 8 (.pair [headUnit 0x32 3 [(45, t.chain), (44, b2n out), (28, t.tag), (24, t.tgen), (16, t.position)],
      unitOf [(56, 0x20 + t.req), (40, t.hostTag), (0, t.addr)], unitOf [(40, t.words), (39, b2n xfer)]])
  else s

/-- R181: a free tag of the chain is taken, its TGEN counts, and the request goes towards the position. None while no
tag is free. -/
def State.sendRequest (s : State) (t : SendTag) (data : List Byte) (pattern : Word) : Option State :=
  (s.freeTag t.chain).map fun tag =>
    let g := (s.tagGen t.chain tag + 1) % 16
    let t := { t with tag := tag, tgen := g }
    let s := s.setTagGen t.chain tag g
    let s := ({ s with lnk := { s.lnk with tags := s.lnk.tags ++ [t] } }.tagWords t.chain).journal t true
    let cell : Cell := .request t.req ⟨BitVec.ofNat 7 t.position, BitVec.ofNat 12 tag, BitVec.ofNat 4 g,
      BitVec.ofNat 24 t.words, BitVec.ofNat 40 t.addr, data, pattern⟩
    (s.routeCell t.chain t.position cell).getD s

/-- A new tag of a chain for a request, before it has a number. -/
def newTag (chain position req addr words hostTag : Nat) (owner : TagOwner) : SendTag :=
  ⟨chain, 0, 0, false, false, req, position, addr, words, hostTag, owner⟩

/-- R192, Table 7.15: a transaction of a chain has completed with a status; one other than OK is counted. -/
def State.txnEnded (s : State) (c status : Nat) : State :=
  if status = 0 then s else (s.count (F.LNK_TXNERR_COUNT c) 1).flagF (F.LNK_PSTAT_EVTXN c)

/-- R183: a tag completes and returns to FREE. -/
def State.releaseTag (s : State) (t : SendTag) (status : Nat) : State :=
  let s := { s with lnk := { s.lnk with tags := s.lnk.tags.filter fun e => !(e.chain == t.chain && e.tag == t.tag) } }
  ((s.tagWords t.chain).journal t false).txnEnded t.chain status

/-- R183: a tag whose timeout has passed enters PROBING, and probes go on while it stays there. -/
def State.probeTag (s : State) (c tag : Nat) (entering : Bool) : State :=
  match s.lnk.tags.find? fun e => e.chain == c && e.tag == tag with
  | none => s
  | some t =>
    if t.probing = entering then s
    else
      let s := s.modTag c tag fun e => { e with probing := true }
      s.sendProbe { t with probing := true }

/-- TX_TIMEOUT: LNK.TXTIMEOUT has passed for an OUTSTANDING tag (R183). -/
def execTxTimeout (chain : Fin 8) (tag : BitVec 12) (s : State) : Host.Outcome State Fault Refusal :=
  .next (s.probeTag chain tag.toNat true)

/-- PROBE_REPEAT: a further LNK.TXTIMEOUT has passed in PROBING (R183). -/
def execProbeRepeat (chain : Fin 8) (tag : BitVec 12) (s : State) : Host.Outcome State Fault Refusal :=
  .next (s.probeTag chain tag.toNat false)

/-! ### Deposition and takeover -/

/-- R382: the unsent content of every launch queue entry is abandoned on a port. -/
def State.abandonLaunches (s : State) (p : Nat) : State :=
  let s := s.modPort p fun t =>
    { t with
      vc1 := t.vc1.filter fun q => q.entry.isNone
      vc3 := t.vc3.filter fun
        | .run .. => true
        | .source .. => false
        | .genEnd _ _ _ e => e.isNone
      cutEntry := none }
  s.setQueue p []

/-- R401: the outcome of a handover. -/
def State.handoverDone (s : State) (res : Nat) : State :=
  let s := s.modMir fun m => { m with handover := none }
  ((s.set F.MIR_STAT_HOARMED 0).set F.MIR_STAT_HORES res).flag .MIR_EV 6

/-- R382: a lead is deposed; a handover that it had armed ends with it (R401, Table 15.6). -/
def State.depose (s : State) : State :=
  let s := if s.mir.handover.isSome then s.handoverDone 4 else s
  let s := (s.modMir fun m => { m with hostLate := false }).setRole roleDeposed
  let s := (List.range 8).foldl (fun s p => (s.abandonLaunches p).modPort p fun t => { t with announcing := false }) s
  let s := s.passFences
  s.revoke.flag .MIR_EV 1

/-- R396 step 2: every ring whose port is up takes a higher epoch and is announced on this sender's end. -/
def State.takeRing (s : State) (r : Nat) : State :=
  if s.up r then
    let s := s.wr (.LNK_EPOCH r) (s.rd (.LNK_EPOCH r) + 1)
    let s := s.set (F.LNK_RING_SPLIT r) (s.get F.LNK_CFG_BEND)
    let s := if s.on F.LNK_CFG_BEND then s.set (F.LNK_RING_BFIRST r) 0 else s
    s.announceEnd r
  else s

/-- R398: a mirrored tag enters PROBING in this sender's table. -/
def State.adoptTag (s : State) (m : MirTag) : State :=
  let t : SendTag := ⟨m.chain, m.tag, m.tgen, true, false, m.req - 0x20, m.position, m.addr, m.words, m.hostTag,
    .partner (b2n m.xfer)⟩
  let s := s.setTagGen m.chain m.tag m.tgen
  ({ s with lnk := { s.lnk with tags := s.lnk.tags ++ [t] } }.tagWords m.chain).sendProbe t

/-- Table 15.3 step 2: the shadow becomes lead. In a handover it probes no tags, and the host channel moves later (R401). -/
def State.becomeLead (s : State) (handover : Bool) : State :=
  let s := s.set F.MIR_STAT_READYAT (s.get F.MIR_STAT_READY)
  let s := s.setRole roleLead
  let s := s.wr .MIR_PEPOCH (s.rd .MIR_PEPOCH + 1)
  let s := (List.range 8).foldl State.takeRing s
  let s := (s.set F.TIM_CFG_SRC (s.get F.MIR_CFG_TSRC)).flag .TIM_EV 5
  let tags := s.mir.tags
  let s := s.modMir fun m => { m with tags := [], handover := none, hostLate := handover }
  let s := s.gratuitousArp
  let s := if handover then s else tags.foldl State.adoptTag s
  (s.count F.MIR_TAKES_COUNT 1).flag .MIR_EV 0

/-- R396: a takeover; a handover that was to come ends with it. -/
def State.takeover (s : State) : State :=
  if s.role = roleShadow ∧ s.on F.MIR_CFG_AUTOTAKE then
    let s := if s.mir.handover.isSome then s.handoverDone 4 else s
    s.becomeLead false
  else s

/-- TAKEOVER: the lead has been silent for 3 × HBPER, or a ring named has delivered no TIME cell for MIR.CFG.SILENCE
(R396). The command says that the time has passed. -/
def execTakeover (ring : Option (Fin 8)) (s : State) : Host.Outcome State Fault Refusal :=
  .next (match ring with
    | none => s.takeover
    | some r => if s.on F.MIR_CFG_SILEN && s.up r && !(s.split r) then s.takeover else s)

/-- R381: a write of BECOME = 1; only BECOME = 2 leaves DEPOSED (R382). -/
def State.writeLead (s : State) : State :=
  if s.paired && !s.isTile && s.role != roleDeposed && !(s.hbRecent s.mir.lastLead) then
    let s := s.wr .MIR_PEPOCH (BitVec.ofNat 32 (max (s.rd .MIR_PEPOCH).toNat s.mir.partnerEpoch.toNat + 1))
    s.setRole roleLead
  else s

/-- R381: a write of BECOME = 2. -/
def State.writeShadow (s : State) : State :=
  if s.paired && !s.isTile && s.hbRecent s.mir.lastLead then
    let s := if s.mir.handover.isSome then s.handoverDone 4 else s
    (s.modMir fun m => { m with hostLate := false, lastMatch := [], tokens := [], runs := [] }).setRole roleShadow
  else s

/-- BECOME_LEAD (R381). -/
def execBecomeLead (s : State) : Host.Outcome State Fault Refusal := .next s.writeLead

/-- BECOME_SHADOW (R381). -/
def execBecomeShadow (s : State) : Host.Outcome State Fault Refusal := .next s.writeShadow

/-- The instant of MIR.HOSEC and MIR.HONS. -/
def State.handoverTime (s : State) (sec ns : Nat) : Nat := nearestInstant s.now sec ns

/-- R401: a write of 1 to MIR.CTL.HANDOVER arms a handover on the lead. -/
def State.armHandover (s : State) : State :=
  if s.role = roleLead then
    let th := s.handoverTime (s.rd .MIR_HOSEC).toNat (s.get F.MIR_HONS_NS)
    (s.modMir fun m => { m with handover := some (th, none) }).set F.MIR_STAT_HOARMED 1
  else s

/-- HANDOVER (R401). -/
def execHandover (s : State) : Host.Outcome State Fault Refusal := .next s.armHandover

/-- 100 µs in 1/65,536 ns. -/
def handoverLead : Nat := 100000 * 65536

/-- HANDOVER_AT_TH: at Th the shadow that was ready in time becomes lead and the lead becomes shadow with silent queues, or
the handover is refused (R401). -/
def execHandoverAtTh (s : State) : Host.Outcome State Fault Refusal :=
  .next (match s.mir.handover with
    | none => s
    | some (th, since) =>
      if s.now < th ∨ (s.role ≠ roleLead ∧ s.role ≠ roleShadow) then s
      else match since with
        | none => s.handoverDone 2
        | some t =>
          if th < t + handoverLead then s.handoverDone 3
          else if s.role = roleLead then (s.handoverDone 1).setRole roleShadow
          else (s.handoverDone 1).becomeLead true)

/-- R401: the handover in force counts from the first moment at which it is sent to, or received by, a ready shadow. -/
def State.handoverSeen (s : State) (th : Nat) (ready : Bool) : State :=
  let now := if ready then some s.now else none
  s.modMir fun m => { m with handover := match m.handover with
    | some (t0, some t) => if t0 = th then some (th, some t) else some (th, now)
    | _ => some (th, now) }

/-- R401: what the lead knows of its partner: a shadow that is heard and ready. -/
def State.shadowReady (s : State) : Bool :=
  s.get F.MIR_STAT_PROLE == roleShadow && s.on F.MIR_STAT_PARTNER && s.mir.partnerReady

/-! ### Heartbeats -/

/-- R384: a heartbeat is sent by a sender with a role while the mirror port is up. An armed lead takes the sending of its
handover for the reception by the shadow (DEDUCED, log entry 69). -/
def State.sendHeartbeat (s : State) : State :=
  if s.role ≠ 0 ∧ s.up 8 then
    let seq := s.mir.hbSeq + 1
    let armed := s.on F.MIR_STAT_HOARMED
    let s := s.modMir fun m => { m with hbSeq := seq }
    let s := match s.mir.handover with
      | some (th, _) => if s.role = roleLead then s.handoverSeen th s.shadowReady else s
      | none => s
    s.sendCell 8 (.pair [headUnit 0x30 3 [(46, s.role), (45, s.get F.MIR_STAT_READY), (44, b2n armed),
        (0, (s.rd .MIR_PEPOCH).toNat)], unitOf [(32, seq % 2 ^ 32)],
      unitOf [(32, (s.rd .MIR_HOSEC).toNat), (0, s.get F.MIR_HONS_NS)]])
  else s

/-- HEARTBEAT_SEND (R384). -/
def execHeartbeatSend (s : State) : Host.Outcome State Fault Refusal := .next s.sendHeartbeat

/-- R382: a lead gives way to a partner that leads with a higher PEPOCH, or with an equal one and a lower identity. -/
def State.outrankedBy (s : State) (role : Nat) (epoch : BitVec 32) : Bool :=
  s.role == roleLead && role == roleLead
    && (decide ((s.rd .MIR_PEPOCH).toNat < epoch.toNat)
      || (epoch == s.rd .MIR_PEPOCH && decide (Config.partnerId.toNat < s.devid.toNat)))

/-- R384, R382, R396, R401: a heartbeat is accepted. A partner that is heard again reaches its end of each ring, so that
probes that fell due go out (R183). The old lead's first heartbeat in another role follows its last record (R401). -/
def State.heartbeat (s : State) (role : Nat) (ready handover : Bool) (epoch : BitVec 32) (sec ns : Nat) : State :=
  let t := some s.tim.ticks
  let s := s.modMir fun m => { m with
    lastHb := t, lastLead := if role = roleLead then t else m.lastLead, partnerEpoch := epoch, partnerReady := ready }
  let s := (s.setPartner true role).sendDueProbes
  if s.outrankedBy role epoch then s.depose
  else if s.role = roleLead ∧ role ≠ roleLead then s.hostMoves
  else if s.role = roleShadow then
    if role = roleLead then
      if handover then s.handoverSeen (s.handoverTime sec ns) (s.on F.MIR_STAT_READY) else s
    else if s.mir.handover.isSome then s
    else s.takeover
  else s

/-- HEARTBEAT (R384). -/
def execHeartbeat (role : BitVec 2) (ready handover : Bool) (epoch _seq sec ns : Word) (s : State) :
    Host.Outcome State Fault Refusal :=
  .next (if s.isTile || !s.paired then s
    else s.heartbeat role.toNat ready handover epoch sec.toNat ns.toNat)

/-- HEARTBEAT_MISS: an HBPER interval has passed without an accepted heartbeat (R384). -/
def execHeartbeatMiss (s : State) : Host.Outcome State Fault Refusal :=
  .next (if s.isTile then s
    else
      let s := s.count F.MIR_HBMISS_COUNT 1
      if s.hbRecent s.mir.lastHb then s else (s.setPartner false (s.get F.MIR_STAT_PROLE)).hostMoves)

/-! ### Host records -/

/-- R388: a record written to the host record ring, or dropped. Its units are big-endian as on the wire, its SEQ
little-endian as all of memory. -/
def State.ringRecord (s : State) (units : List (BitVec 64)) : State :=
  let head := s.get F.MIR_HRHEAD_SLOT
  if !(s.on F.MIR_HRBASE_EN) || (head + 1) % 64 == s.get F.MIR_HRTAIL_SLOT then
    (s.count F.MIR_HRDROP_COUNT 1).set F.MIR_STAT_HOSTGAP 1
  else
    let u0 := units.headD 0
    let slot := [u0.extractLsb' 40 8, 0, 0, 0] ++ leBytes 4 (uf u0 0 32) ++ unitsToBytes (units.drop 1)
    let s := s.store (s.get F.MIR_HRBASE_ADDR * 4096 + head * 2048) slot
    (s.set F.MIR_HRHEAD_SLOT ((head + 1) % 64)).flag .MIR_EV 4

/-- The response of a HOSTREC: the bytes after the request, from its own header on (Table 15.1, R555). -/
def recordResponse (units : List (BitVec 64)) : List Byte :=
  let l := unitsToBytes (units.drop 3)
  let type := (l.headD 0).toNat
  let reqLen := if type = 2 ∨ type = 5 then beAt l 4 4 else if type = 3 ∨ type = 4 then 4 else 0
  let r := l.drop (16 + reqLen)
  r.take (16 + beAt r 4 4)

/-- R41: a response joins the stored messages of its request. The record does not carry the lead's own SEQ, which is a free
value in a message begun here (DESIGN CHOICE, log entry 65). -/
def State.addResponse (s : State) (w : Who) (seq : Nat) (r : List Byte) : State :=
  let (n, s) := s.draw
  let body := padTxn r
  let keep := s.hst.stored.filter fun e => !(e.1 == w && e.2.1 == seq)
  let old := ((s.hst.stored.find? fun e => e.1 == w && e.2.1 == seq).map fun e => e.2.2).getD []
  let begun := hostMessage 2 n.toNat seq 1 body
  let ms := match old.getLast? with
    | some m =>
      if m.length + body.length ≤ 1472 then
        old.dropLast ++ [hostMessage 2 (beAt m 4 4) (beAt m 8 4) (beAt m 12 2 + 1) ((m.drop 16).take (m.length - 20) ++ body)]
      else old ++ [begun]
    | none => [begun]
  { s with hst := { s.hst with stored := ((w, seq, ms) :: keep).take 16 } }

/-- R387, R398: where the host of a record is: the address that the record gives, on the port of the host channel. Its MAC
address is not in the record, and is a free value until the host is heard (DESIGN CHOICE, log entry 65). -/
def State.recordPeer (s : State) (ip : BitVec 32) (udp : BitVec 16) : State :=
  let i := s.get F.HST_HCCFG_PORT
  if s.hst.holderPeer.any fun q => decide (q.ip = ip ∧ q.udp = udp) then s
  else
    let (a, s) := s.draw
    let (b, s) := s.draw
    { s with hst := { s.hst with holderPeer := some ⟨i, (a ++ b).setWidth 48, ip, udp, s.rd .HST_IPADDR, s.portMac i⟩ } }

/-- R387, R388: a shadow takes the lead's lease and sequence state from a record and keeps the record; a REMAIN of 0 says
that the lead's lease has ended. So does a new lead until the host channel has moved to it (R401). -/
def State.hostRec (s : State) (units : List (BitVec 64)) : State :=
  if s.isTile || !(s.role == roleShadow || (s.role == roleLead && s.mir.hostLate)) then s
  else
    let u := fun i => units.getD i 0
    let ip := (u 2).extractLsb' 32 32
    let udp := (u 2).extractLsb' 16 16
    let remain := uf (u 1) 32 16
    let leased := b2n (decide (remain ≠ 0))
    let s := s.set F.HST_STAT_LEASED leased
    let s := s.set F.HST_STAT_CARRIER (2 * leased)
    let s := s.set F.HST_LEASE_ID (uf (u 1) 48 16)
    let s := s.wr .HST_HOLDER (if remain = 0 then 0 else ip)
    let s := s.set F.HST_HOLDPORT_PORT (if remain = 0 then 0 else udp.toNat)
    let s := { s with hst := { s.hst with
      expiry := s.tim.ticks + msTicks remain
      expected := some (uf (u 1) 0 32) } }
    let s := (s.addResponse (.channel ip udp) (uf (u 0) 0 32) (recordResponse units)).recordPeer ip udp
    (s.ringRecord units).updateReady

/-- HOSTREC (R387). -/
def execHostrec (units : List (BitVec 64)) (s : State) : Host.Outcome State Fault Refusal := .next (s.hostRec units)

/-! ### Mirrored tags and checkpoints -/

/-- R389: a JOURNAL cell at a shadow. -/
def State.takeJournal (s : State) (out : Bool) (m : MirTag) : State :=
  if s.isTile || s.role != roleShadow then s
  else s.modMir fun r =>
    let l := r.tags.filter fun e => !(e.chain == m.chain && e.tag == m.tag)
    { r with tags := if out then l ++ [m] else l }

/-- JOURNAL (R389). -/
def execJournal (out : Bool) (chain : Fin 8) (tag : BitVec 12) (tgen : BitVec 4) (position : BitVec 7) (reqType : Byte)
    (hostTag : BitVec 16) (addr : BitVec 40) (words : BitVec 24) (xfer : Bool) (s : State) :
    Host.Outcome State Fault Refusal :=
  .next (s.takeJournal out ⟨chain, tag.toNat, tgen.toNat, position.toNat, reqType.toNat, hostTag.toNat, addr.toNat,
    words.toNat, xfer⟩)

/-- R390: a write of 1 to MIR.CTL.CKGO. -/
def State.startCheckpoint (s : State) : State :=
  if s.isTile || s.role != roleLead || s.on F.MIR_CKSTAT_BUSY then s
  else if s.up 8 then
    (s.modMir fun m => { m with ckTx := some ((s.get F.MIR_CKSTAT_SEQ + 1) % 65536, 0) }).set F.MIR_CKSTAT_BUSY 1
  else s.set F.MIR_CKSTAT_FAIL 1

/-- CKGO (R390). -/
def execCkgo (s : State) : Host.Outcome State Fault Refusal := .next s.startCheckpoint

/-- R390: a shadow writes checkpoint data; a new SEQ begins its count anew. -/
def State.ckData (s : State) (seq off : Nat) (data : List (BitVec 64)) : State :=
  if s.isTile || s.role != roleShadow then s
  else
    let l := unitsToBytes data
    let done := match s.mir.ckRx with
      | some (q, n) => if q = seq then n else 0
      | none => 0
    let s := s.store (s.get F.MIR_CKDST_ADDR * 4096 + seq % 2 * 0x1000000 + off) l
    s.modMir fun m => { m with ckRx := some (seq, done + l.length) }

/-- CKDATA (R390). -/
def execCkdata (seq : BitVec 16) (off : BitVec 24) (data : List (BitVec 64)) (s : State) :
    Host.Outcome State Fault Refusal := .next (s.ckData seq.toNat off.toNat data)

/-- R390: CKDONE: the checkpoint is complete once every byte of it has been written. -/
def State.ckDone (s : State) (seq pages : Nat) : State :=
  if s.isTile || s.role != roleShadow then s
  else if s.mir.ckRx = some (seq, pages * 4096) then
    ((s.modMir fun m => { m with ckRx := none }).set F.MIR_CKSTAT_SEQ seq).flag .MIR_EV 5
  else s

/-- CKDONE (R390). -/
def execCkdone (seq : BitVec 16) (pages : BitVec 13) (s : State) : Host.Outcome State Fault Refusal :=
  .next (s.ckDone seq.toNat pages.toNat)

/-- SILENT_TOKEN_TIMEOUT: a token of a ring has had no counterpart for 1 ms (R394). -/
def execSilentTokenTimeout (ring : Fin 8) (s : State) : Host.Outcome State Fault Refusal :=
  .next (match s.mir.tokens.find? fun t => t.ring == ring.val with
    | some t =>
      let s := s.modMir fun m => { m with tokens := m.tokens.erase t }
      (s.compared ring false true 0 0).updateReady
    | none => s)

end Sys2Proof.Machine
end

