-- ==== Sys2Proof/Machine/Lanes.lean ====
section
/-! DEFINITION. The serial lanes (chapter 6): bring-up (R134 to R138), capability blocks and the exchange (R139, R140),
eye surveys (R144, R145) and spare-lane substitution (R148 to R152). What a receiver measures on its wires (a far
receiver, bit lock, header errors, alignment, eye size) comes with the command. -/

namespace Sys2Proof.Machine

/-- The lane record changed. -/
def State.modLan (s : State) (f : LanState → LanState) : State := { s with lan := f s.lan }

/-- LAN.STAT[n].STATE codes (Table 6.2). -/
def lnOff : Nat := 0
def lnDisabled : Nat := 1
def lnDetect : Nat := 2
def lnTrain : Nat := 3
def lnBlockLock : Nat := 4
def lnExchange : Nat := 5
def lnActive : Nat := 6
def lnStandby : Nat := 7
def lnRetired : Nat := 8
def lnBackoff : Nat := 9

/-- The state of a lane. -/
def State.lane (s : State) (n : Nat) : Nat := s.get (F.LAN_STAT_STATE n)

/-- A source lane (Table 6.1). -/
def isSource (n : Nat) : Bool := decide (n < 8)

/-- The port of a lane and its port lane (R130). -/
def portOfLane (n : Nat) : Nat := if 32 ≤ n then 8 else (n - 8) / 3
def portLane (n : Nat) : Nat := if 32 ≤ n then n - 32 else (n - 8) % 3

/-- The lanes of a port. -/
def lanesOf (p : Nat) : List Nat := (List.range (laneCount p)).map (laneOf p)

/-- R144: a survey in progress when its lane leaves ACTIVE or STANDBY is abandoned. -/
def State.abandonSurvey (s : State) (n : Nat) : State :=
  s.modLan fun l => { l with surveying := l.surveying.filter (· != n) }

/-- R153: STATE changes, and EVSTATE is set; a survey ends with ACTIVE and STANDBY. -/
def State.setLane (s : State) (n st : Nat) : State :=
  if s.lane n = st then s
  else
    let s := if st = lnActive ∨ st = lnStandby then s else s.abandonSurvey n
    let s := if st = lnDetect then s.set (F.LAN_STAT_RXINV n) 0 else s
    (s.set (F.LAN_STAT_STATE n) st).flagF (F.LAN_STAT_EVSTATE n)

/-- The lane looks at sync headers: BLOCKLOCK, EXCHANGE, ACTIVE or STANDBY (R137). -/
def State.seesBlocks (s : State) (n : Nat) : Bool := decide (lnBlockLock ≤ s.lane n ∧ s.lane n ≤ lnStandby)

/-- Invalid sync headers counted (R137). -/
def State.badHeaders (s : State) (n k : Nat) : State := if s.seesBlocks n then s.count (F.LAN_ERRCNT_COUNT n) k else s

/-- R142: the DFE of a lane adapts from now on, or has stopped where `on` is false and its value is taken down. -/
def State.setAdapting (s : State) (n : Nat) (on : Bool) : State :=
  s.modLan fun l => { l with adapting := (if on then [n] else []) ++ l.adapting.filter (· != n) }

/-- R142: the DFE of a lane adapts continuously now. -/
def State.dfeMoves (s : State) (n : Nat) : Bool := s.seesBlocks n && s.on (F.LAN_CTL_ADAPT n)

/-- R142: a read of LAN.RXEQ[n] finds DFE1 where continued adaptation has left it, which is a free value. -/
def State.readDfe (s : State) (n : Nat) : State :=
  if s.lan.adapting.contains n then
    let (w, s) := s.draw
    (s.set (F.LAN_RXEQ_DFE1 n) (w.toNat % 256)).setAdapting n (s.dfeMoves n)
  else s

/-- The lane forgets what its partner sent in the exchange. -/
def State.forgetCaps (s : State) (n : Nat) : State := s.modLan fun l => { l with caps := l.caps.filter fun e => e.1 != n }

/-! ### Substitutions -/

/-- The substitution in progress on a port. -/
def State.laneSub (s : State) (p : Nat) : Option LaneSub := s.lan.subs.find? fun e => e.port == p

/-- The substitution of a port changed. -/
def State.modSub (s : State) (p : Nat) (f : LaneSub → LaneSub) : State :=
  s.modLan fun l => { l with subs := l.subs.map fun e => if e.port = p then f e else e }

/-- R152: a substitution ends with a result, and EVSUB of the lane named for retirement. -/
def State.endSub (s : State) (x : LaneSub) (res : Nat) : State :=
  let s := s.modLan fun l => { l with subs := l.subs.filter fun e => e.port != x.port }
  let s := s.disarm 1 (x.port + 16 * x.lane)
  let s := s.set (F.LAN_PSUB_RESULT x.port) res
  let s := s.set (F.LAN_PSUB_PENDING x.port) 0
  s.flagF (F.LAN_STAT_EVSUB (laneOf x.port x.lane))

/-- The bit of a port lane in the LANES field of the repair map (Table 21.10). -/
def laneMapBit (p i : Nat) : Nat := if p = 8 then 24 + i else 3 * p + i

/-- R515: a retired port lane recorded; LANES has a place for every lane. -/
def State.recordLane (s : State) (p i : Nat) : State :=
  s.substituted fun m => { m with lanes := m.lanes ||| 2 ^ laneMapBit p i }

/-- LAN.PSUB[p] with a port lane retired and, for R151 and R516, its spare used up. -/
def State.retireBits (s : State) (p i spare : Nat) : State :=
  let s := s.set (F.LAN_PSUB_RETIRED p) (s.get (F.LAN_PSUB_RETIRED p) ||| 2 ^ i)
  let sp := s.get (F.LAN_PSUB_SPARE p)
  s.set (F.LAN_PSUB_SPARE p) (if bit sp spare then sp - 2 ^ spare else sp)

/-- The lowest spare port lane of a port. -/
def State.lowestSpare (s : State) (p : Nat) : Option Nat :=
  (List.range (laneCount p)).find? fun i => bit (s.get (F.LAN_PSUB_SPARE p)) i

/-- R149 step 5, R152: the changeover is done: the lane is RETIRED and the spare ACTIVE as that port lane. -/
def State.finishSub (s : State) (x : LaneSub) : State :=
  let s := s.setLane (laneOf x.port x.lane) lnRetired
  let s := s.setLane (laneOf x.port x.spare) lnActive
  let s := s.retireBits x.port x.lane x.spare
  (s.endSub x 1).recordLane x.port x.lane

/-- R152: the port's active lanes went down before the changeover. -/
def State.dropSub (s : State) (p : Nat) : State :=
  match s.laneSub p with
  | some x => s.endSub x 5
  | none => s

/-! ### Leaving a state -/

/-- R218: the source port that a lane serves goes down. -/
def State.sourceDown (s : State) (n : Nat) : State :=
  let q := if s.sourceMode n = 1 then n / 4 * 4 else n
  (s.set (F.ING_PSTAT_UP q) 0).set (F.ING_PSTAT_SPEED q) 0

/-- A lane has left ACTIVE or another state: its port is looked at again (R162), and a substitution in progress ends. -/
def State.laneLeft (s : State) (n was : Nat) : State :=
  if isSource n then s.sourceDown n
  else if was = lnActive then
    let p := portOfLane n
    if (s.activeLanes p).length < 2 then (s.dropSub p).portDown p else s
  else s

/-- A stage fails: BACKOFF, LASTFAIL and LAN.RETRY (R135, R137). -/
def State.laneFails (s : State) (n stage : Nat) : State :=
  let was := s.lane n
  let s := (s.set (F.LAN_STAT_LASTFAIL n) stage).count (F.LAN_RETRY_COUNT n) 1
  ((s.forgetCaps n).setLane n lnBackoff).laneLeft n was

/-- The lane exists and is powered in the role (R130). -/
def State.lanePowered (s : State) (n : Nat) : Bool :=
  if s.isTile then decide (8 ≤ n ∧ n < 14) else decide (n < 36)

/-- R134: a write of LAN.CTL[n].EN. An enabled source lane seeks lock in BLOCKLOCK (R138; DEDUCED, log entry 72). -/
def State.setLaneEnable (s : State) (n : Nat) (en : Bool) : State :=
  if !(s.lanePowered n) then s
  else
    let st := s.lane n
    let s := s.set (F.LAN_CTL_EN n) (b2n en)
    if en then
      if st = lnDisabled then s.setLane n (if isSource n then lnBlockLock else lnDetect) else s
    else if st = lnOff ∨ st = lnRetired then s
    else (((s.abandonSurvey n).forgetCaps n).setLane n lnDisabled).laneLeft n st

/-- LANE_ENABLE (R134). -/
def execLaneEnable (n : Fin 36) (s : State) : Host.Outcome State Fault Refusal := .next (s.setLaneEnable n true)

/-- LANE_DISABLE (R134). -/
def execLaneDisable (n : Fin 36) (s : State) : Host.Outcome State Fault Refusal := .next (s.setLaneEnable n false)

/-- RECEIVER_DETECT_PULSE: a far receiver detected in DETECT leads to TRAIN (R135). -/
def execReceiverDetectPulse (n : Fin 36) (detected : Bool) (s : State) : Host.Outcome State Fault Refusal :=
  .next (if s.lane n = lnDetect ∧ detected then s.setLane n lnTrain else s)

/-- TRAIN_WINDOW_END: bit lock is judged, the polarity is chosen and the equaliser is adapted (R135, R142). -/
def execTrainWindowEnd (n : Fin 36) (locked inverted : Bool) (ctle : BitVec 4) (dfe1 : Byte) (s : State) :
    Host.Outcome State Fault Refusal :=
  .next (if s.lane n ≠ lnTrain then s
    else
      let s := if s.on (F.LAN_RXEQ_CTLEAD n) then s.set (F.LAN_RXEQ_CTLE n) ctle.toNat else s
      let s := (s.set (F.LAN_RXEQ_DFE1 n) dfe1.toNat).setAdapting n (locked && s.on (F.LAN_CTL_ADAPT n))
      if locked then (s.set (F.LAN_STAT_RXINV n) (b2n inverted)).setLane n lnBlockLock else s.laneFails n lnTrain)

/-- R147: the lanes that are bonded with a lane: those of its port, or of its quad at 100GBASE-R. -/
def State.bonded (s : State) (n : Nat) : List Nat :=
  if !(isSource n) then lanesOf (portOfLane n)
  else if s.sourceMode n = 1 then (List.range 4).map (n / 4 * 4 + ·)
  else [n]

/-- R147: the alignment of a lane; every lane bonded with it reports the same. -/
def State.setAlign (s : State) (n align : Nat) : State :=
  (s.bonded n).foldl (fun s m => s.set (F.LAN_RXALIGN_UI m) align) s

/-- R147: the alignment at block lock. While both active lanes of a port are up its alignment is fixed, and a spare that
locks reports it (DEDUCED, log entry 72). -/
def State.lockAlign (s : State) (n align : Nat) : State :=
  match s.activeLanes (portOfLane n) with
  | m :: _ :: _ => if isSource n then s.setAlign n align else s.set (F.LAN_RXALIGN_UI n) (s.get (F.LAN_RXALIGN_UI m))
  | _ => s.setAlign n align

/-- BLOCK_LOCK: 64 consecutive valid sync headers (R135, R147). -/
def execBlockLock (n : Fin 36) (rxalign : BitVec 16) (invalid : Nat) (s : State) : Host.Outcome State Fault Refusal :=
  .next (if s.lane n = lnBlockLock ∧ !(isSource n) then
      (((s.badHeaders n invalid).lockAlign n rxalign.toNat).forgetCaps n).setLane n lnExchange else s)

/-- BLOCKLOCK_TIMEOUT (R135). -/
def execBlocklockTimeout (n : Fin 36) (invalid : Nat) (s : State) : Host.Outcome State Fault Refusal :=
  .next (if s.lane n = lnBlockLock ∧ !(isSource n) then (s.badHeaders n invalid).laneFails n lnBlockLock else s)

/-! ### Capability blocks -/

/-- Fields of a capability payload (Table 6.4). -/
def capField (w : BitVec 56) (lo n : Nat) : Nat := bits w.toNat lo n

/-- R139: the partner's fields shown. -/
def State.showPartner (s : State) (n : Nat) (w : BitVec 56) : State :=
  let s := s.set (F.LAN_PARTNER_VERSION n) (capField w 52 4)
  let s := s.set (F.LAN_PARTNER_ROLE n) (capField w 51 1)
  let s := s.set (F.LAN_PARTNER_PORTKIND n) (capField w 48 3)
  let s := s.set (F.LAN_PARTNER_LANE n) (capField w 46 2)
  let s := s.set (F.LAN_PARTNER_RETIRED n) (capField w 42 4)
  let s := s.set (F.LAN_PARTNER_FECREQ n) (capField w 40 1)
  let s := s.set (F.LAN_PARTNER_VALID n) 1
  let s := s.set (F.LAN_PEYE_WIDTH n) (capField w 29 7)
  let s := s.set (F.LAN_PEYE_HEIGHT n) (capField w 21 8)
  s.set (F.LAN_PEYE_VALID n) 1

/-- The consecutive identical capability blocks of a lane, with one more (R139). -/
def State.countCap (s : State) (n : Nat) (w : BitVec 56) : State :=
  let k := match s.lan.caps.find? fun e => e.1 == n with
    | some (_, v, k) => if v = w then min 3 (k + 1) else 1
    | none => 1
  s.modLan fun l => { l with caps := (n, w, k) :: l.caps.filter fun e => e.1 != n }

/-- The exchange of a lane has passed (Table 6.3 step 4). -/
def State.exchanged (s : State) (n : Nat) : Bool :=
  s.lan.caps.any fun e => e.1 == n && decide (3 ≤ e.2.2)

/-- R140: the port lanes that the lane map names active, from the union of both ends' RETIRED fields. -/
def State.laneMap (s : State) (p partnerRetired : Nat) : List Nat :=
  ((List.range (laneCount p)).filter fun i => !(bit (s.get (F.LAN_PSUB_RETIRED p) ||| partnerRetired) i)).take 2

/-- R158: at the pass of the exchange either end asks for FEC on the lane, or neither does. -/
def State.passFec (s : State) (n : Nat) (w : BitVec 56) : State :=
  let on := s.on (F.LAN_PSUB_FECREQ (portOfLane n)) || capField w 40 1 == 1
  s.modLan fun l => { l with fec := (if on then [n] else []) ++ l.fec.filter (· != n) }

/-- R140: at the pass of the exchange a lane enters ACTIVE or STANDBY; with fewer than two lanes left none leaves
EXCHANGE. The port then comes up if it can (R163). A lane that either end's RETIRED names enters RETIRED, and LAN.PSUB
keeps its RETIRED and SPARE fields (DESIGN CHOICE, log entry 72). -/
def State.passExchange (s : State) (n : Nat) (w : BitVec 56) : State :=
  let p := portOfLane n
  let s := s.passFec n w
  let map := s.laneMap p (capField w 42 4)
  if map.length < 2 then s
  else if map.contains (portLane n) then (s.setLane n lnActive).checkPort p
  else if bit (s.get (F.LAN_PSUB_RETIRED p) ||| capField w 42 4) (portLane n) then s.setLane n lnRetired
  else s.setLane n lnStandby

/-- R150: this end's request proceeds against the partner's: that of the end nearer the A-end; between mirror ports the
lead's, and before a lead exists that of the lower device identity. -/
def State.ownSubWins (s : State) (n : Nat) : Bool :=
  let p := portOfLane n
  if p < 8 then !s.isTile || (s.on (F.LAN_PARTNER_ROLE n) && s.ownKind p == 1)
  else if s.role = roleLead then true
  else if s.get F.MIR_STAT_PROLE = roleLead then false
  else decide (s.devid.toNat < Config.partnerId.toNat)

/-- R149 step 3: both ends have sent and received SUBACK: 4 swap blocks go out, once, on the lane to be retired. -/
def State.trySwap (s : State) (p : Nat) : State :=
  match s.laneSub p with
  | some x =>
    if x.ackSent && x.ackReceived && !x.swapped then
      (s.emit (.swap (laneOf p x.lane))).modSub p fun e => { e with swapped := true }
    else s
  | none => s

/-- R149 step 2: this end's own copy of the spare stands by with a good eye. -/
def State.spareGood (s : State) (n : Nat) : Bool :=
  s.lane n == lnStandby && decide (s.get F.LAN_EYELIM_WIDTH ≤ s.get (F.LAN_EYE_WIDTH n))
    && decide (s.get F.LAN_EYELIM_HEIGHT ≤ s.get (F.LAN_EYE_HEIGHT n))

/-- R149 step 2: the partner's request is taken up and accepted, if the spare is good. -/
def State.takeUpSub (s : State) (n lane : Nat) : State :=
  let p := portOfLane n
  if s.spareGood n then
    (s.modLan fun l => { l with subs := l.subs ++ [⟨p, lane, portLane n, false, true, false, false, false, false⟩] }).set
      (F.LAN_PSUB_PENDING p) 1
  else s

/-- R149, R150: the partner's SUBREQ on the spare lane `n` for a port lane. -/
def State.answerSub (s : State) (n lane : Nat) : State :=
  let p := portOfLane n
  match s.laneSub p with
  | some x =>
    if x.lane = lane then (if s.spareGood n then s.modSub p fun e => { e with accept := true } else s)
    else if !x.own || s.ownSubWins n then s
    else (s.endSub x 3).takeUpSub n lane
  | none => s.takeUpSub n lane

/-- R149: SUBREQ and SUBACK of a capability block on the spare of a substitution. The end that asked answers the
partner's SUBACK with its own (DEDUCED, log entry 73). -/
def State.substitution (s : State) (n : Nat) (w : BitVec 56) : State :=
  let p := portOfLane n
  let s := if capField w 39 1 = 1 then s.answerSub n (capField w 37 2) else s
  match s.laneSub p with
  | some x =>
    if x.spare ≠ portLane n then s
    else if capField w 36 1 = 1 then (s.modSub p fun e => { e with ackReceived := true, accept := true }).trySwap p
    else s.modSub p fun e => { e with heard := true }
  | none => s

/-- R117, R163: a partner whose PORTKIND has changed on a port that is down is checked again. -/
def State.recheckKind (s : State) (n was : Nat) : State :=
  if s.get (F.LAN_PARTNER_PORTKIND n) = was ∨ s.up (portOfLane n) then s else s.checkPort (portOfLane n)

/-- CAPABILITY_BLOCK: a capability block received in EXCHANGE, ACTIVE or STANDBY (R139, R140, R149). -/
def execCapabilityBlock (n : Fin 36) (payload : BitVec 56) (invalid : Nat) (s : State) :
    Host.Outcome State Fault Refusal :=
  .next (let st := s.lane n
    if isSource n || !(st == lnExchange || st == lnActive || st == lnStandby) then s
    else
      let was := s.get (F.LAN_PARTNER_PORTKIND n)
      let s := ((s.badHeaders n invalid).showPartner n payload).countCap n payload
      if st = lnExchange then (if s.exchanged n then s.passExchange n payload else s)
      else (s.recheckKind n was).substitution n payload)

/-- EXCHANGE_TIMEOUT: the exchange has not passed 10 ms after block lock (R135). -/
def execExchangeTimeout (n : Fin 36) (invalid : Nat) (s : State) : Host.Outcome State Fault Refusal :=
  .next (if s.lane n = lnExchange ∧ !(s.exchanged n) then (s.badHeaders n invalid).laneFails n lnExchange else s)

/-- The capability payload that a lane sends (Table 6.4, R149). -/
def State.capPayload (s : State) (n : Nat) : BitVec 56 :=
  let p := portOfLane n
  let (req, sub, ack) := match s.laneSub p with
    | some x => if x.spare = portLane n then (b2n x.own, if x.own then x.lane else 0, b2n x.accept) else (0, 0, 0)
    | none => (0, 0, 0)
  BitVec.ofNat 56 (2 ^ 52 + b2n s.isTile * 2 ^ 51 + s.ownKind p * 2 ^ 48 + portLane n * 2 ^ 46
    + s.get (F.LAN_PSUB_RETIRED p) * 2 ^ 42 + 2 ^ 41 + s.get (F.LAN_PSUB_FECREQ p) * 2 ^ 40 + req * 2 ^ 39 + sub * 2 ^ 37
    + ack * 2 ^ 36 + s.get (F.LAN_EYE_WIDTH n) * 2 ^ 29 + s.get (F.LAN_EYE_HEIGHT n) * 2 ^ 21)

/-- R149: a block on the spare that carries SUBACK has been sent. -/
def State.ackGone (s : State) (n : Nat) : State :=
  let p := portOfLane n
  match s.laneSub p with
  | some x =>
    if x.spare = portLane n ∧ x.accept then (s.modSub p fun e => { e with ackSent := true }).trySwap p else s
  | none => s

/-- CAPABILITY_BLOCK_SEND: in EXCHANGE, STANDBY and ACTIVE a lane sends its capability block (R139, R149). -/
def execCapabilityBlockSend (n : Fin 36) (s : State) : Host.Outcome State Fault Refusal :=
  .next (let st := s.lane n
    if !(isSource n) && (st == lnExchange || st == lnActive || st == lnStandby) then
      (s.emit (.capability n (s.capPayload n))).ackGone n
    else s)

/-- BACKOFF_EXPIRY: after 10 ms in BACKOFF the lane returns to DETECT (R135). -/
def execBackoffExpiry (n : Fin 36) (s : State) : Host.Outcome State Fault Refusal :=
  .next (if s.lane n = lnBackoff ∧ s.on (F.LAN_CTL_EN n) then s.setLane n lnDetect else s)

/-- BLOCK_LOCK_LOSS: 16 invalid of 64 sync headers (R137); a source lane seeks lock again (R138). -/
def State.lockLost (s : State) (n : Nat) : State :=
  let st := s.lane n
  if st = lnActive ∨ st = lnStandby then
    if isSource n then (s.setLane n lnBlockLock).laneLeft n st else s.laneFails n lnBlockLock
  else s

/-- BLOCK_LOCK_LOSS (R137). -/
def execBlockLockLoss (n : Fin 36) (invalid : Nat) (s : State) : Host.Outcome State Fault Refusal :=
  .next ((s.badHeaders n invalid).lockLost n)

/-- R218: a source port is up once the lanes of its mode are ACTIVE. -/
def State.sourceUp (s : State) (n : Nat) : State :=
  if s.sourceMode n = 1 then
    let q := n / 4 * 4
    let all := (List.range 4).all fun k => s.lane (q + k) == lnActive
    (s.set (F.ING_PSTAT_UP q) (b2n all)).set (F.ING_PSTAT_SPEED q) (if all then 3 else 0)
  else if s.sourceMode n = 0 then s
  else (s.set (F.ING_PSTAT_UP n) 1).set (F.ING_PSTAT_SPEED n) (if s.sourceMode n = 2 then 2 else 1)

/-- SOURCE_LANE_LOCK: an enabled source lane reaches bit and block lock and enters ACTIVE (R138, R147). -/
def execSourceLaneLock (n : Fin 36) (rxalign : BitVec 16) (s : State) : Host.Outcome State Fault Refusal :=
  .next (if isSource n && s.lanePowered n && s.lane n == lnBlockLock then
      ((s.setAlign n rxalign.toNat).setLane n lnActive).sourceUp n
    else s)

/-- R141: a write of LAN.TXEQ[n], ignored where its taps sum above 63. -/
def State.writeTxeq (s : State) (n : Nat) (v : Word) : State :=
  if !(s.lanePowered n) ∨ 63 < getBits v 0 5 + getBits v 5 6 + getBits v 11 6 then s
  else s.wr (.LAN_TXEQ n) (v &&& fieldMask 0 17)

/-- TXEQ_WRITE (R141). -/
def execTxeqWrite (n : Fin 36) (value : Word) (s : State) : Host.Outcome State Fault Refusal := .next (s.writeTxeq n value)

/-! ### Eye surveys -/

/-- R144: a survey starts on a lane in ACTIVE or STANDBY that has none in progress. -/
def State.startSurvey (s : State) (n : Nat) : State :=
  if (s.lane n = lnActive ∨ s.lane n = lnStandby) ∧ !(s.lan.surveying.contains n) then
    s.modLan fun l => { l with surveying := insertNat n l.surveying }
  else s

/-- SURVEY_REQUEST (R144). -/
def execSurveyRequest (n : Fin 36) (s : State) : Host.Outcome State Fault Refusal := .next (s.startSurvey n)

/-- SURVEY_PERIODIC: a survey starts on every eligible lane, if PERIOD is not 0 (R144). -/
def execSurveyPeriodic (s : State) : Host.Outcome State Fault Refusal :=
  .next (if s.get F.LAN_SURV_PERIOD = 0 then s else (List.range 36).foldl State.startSurvey s)

/-- R145: the running average: loaded by the first survey, then moved by a sixteenth; the field's fraction is kept. -/
def average (first : Bool) (avg sample : Nat) : Nat := if first then sample else ((avg : Int) + fdiv ((sample : Int) - avg) 16).toNat

/-- SURVEY_COMPLETE (R145). WIDTH averages are in UI/1,024 and HEIGHT averages in 1/8 mV. -/
def execSurveyComplete (n : Fin 36) (width : BitVec 7) (height : Byte) (s : State) : Host.Outcome State Fault Refusal :=
  .next (if !(s.lan.surveying.contains n.val) then s
    else
      let w := width.toNat
      let h := height.toNat
      let first := s.get (F.LAN_EYE_SURVEYS n) == 0
      let s := s.abandonSurvey n
      let s := s.set (F.LAN_EYE_WIDTH n) w
      let s := s.set (F.LAN_EYE_HEIGHT n) h
      let s := s.count (F.LAN_EYE_SURVEYS n) 1
      let s := s.set (F.LAN_EYEMIN_WIDTH n) (min w (s.get (F.LAN_EYEMIN_WIDTH n)))
      let s := s.set (F.LAN_EYEMIN_HEIGHT n) (min h (s.get (F.LAN_EYEMIN_HEIGHT n)))
      let s := s.set (F.LAN_EYEAVG_WIDTH n) (average first (s.get (F.LAN_EYEAVG_WIDTH n)) (w * 16))
      let s := s.set (F.LAN_EYEAVG_HEIGHT n) (average first (s.get (F.LAN_EYEAVG_HEIGHT n)) (h * 16))
      if w < s.get F.LAN_EYELIM_WIDTH ∨ h < s.get F.LAN_EYELIM_HEIGHT then s.flagF (F.LAN_STAT_EVEYE n) else s)

/-! ### Spare lanes -/

/-- The lowest spare of a port that stands by, other than port lane `i`. -/
def State.standbySpare (s : State) (p i : Nat) : Option Nat :=
  (List.range (laneCount p)).find? fun k =>
    bit (s.get (F.LAN_PSUB_SPARE p)) k && s.lane (laneOf p k) == lnStandby && k != i

/-- SPARE class 0x01 (R148, R151): the result and the state. A spare that is itself named is none of the spares it looks
for (DESIGN CHOICE, log entry 72). -/
def State.spareLane (s : State) (idx : Nat) : Nat × State :=
  let p := idx % 16
  let i := idx / 16
  let present := decide (p ≤ 8 ∧ i < laneCount p) && s.lanePowered (laneOf p i)
  if !present || bit (s.get (F.LAN_PSUB_RETIRED p)) i || s.lane (laneOf p i) == lnRetired then (3, s)
  else if (s.laneSub p).isSome then (2, s)
  else match s.standbySpare p i with
    | none => (2, s)
    | some sp =>
      let x : LaneSub := ⟨p, i, sp, true, false, false, false, false, false⟩
      if (s.activeLanes p).length < 2 then (0, (s.finishSub x).checkPort p)
      else (0, ((s.modLan fun l => { l with subs := l.subs ++ [x] }).arm 1 idx).set (F.LAN_PSUB_PENDING p) 1)

/-- SWAP_BLOCKS: swap blocks arrive on the lane to be retired: its stream moves to the spare and the receiver deskews
(R149, R152). -/
def execSwapBlocks (n : Fin 36) (rxalign : BitVec 16) (s : State) : Host.Outcome State Fault Refusal :=
  .next (if isSource n then s
    else match s.laneSub (portOfLane n) with
      | some x =>
        if x.lane = portLane n ∧ x.ackSent ∧ x.ackReceived then (s.finishSub x).setAlign n rxalign.toNat else s
      | none => s)

/-- SUBSTITUTION_TIMEOUT: no SUBACK within 10 ms of arming (R152). Where the partner has sent capability blocks without
one, whether that is a refusal or silence is free (DESIGN CHOICE, log entry 73). -/
def execSubstitutionTimeout (p : Fin 9) (s : State) : Host.Outcome State Fault Refusal :=
  .next (match s.laneSub p with
    | some x =>
      if x.ackReceived then s
      else if x.own && x.heard then
        let (w, s) := s.draw
        s.endSub x (if w.getLsbD 0 then 2 else 4)
      else s.endSub x 4
    | none => s)

end Sys2Proof.Machine
end

