-- ==== Sys2Proof/Machine/Mem.lean ====
section
/-! DEFINITION. The DRAM controller: configuration and training (R403 to R406, R558), upkeep (R407, R410), parity alerts
(R411, R412), neighbour refresh (R413, R414), repair (R417 to R420) and self-refresh (R421, R422). -/

namespace Sys2Proof.Machine

/-! ### Geometry -/

/-- R403: MEM.CFG names a configuration of Table 16.1. -/
def State.memListed (s : State) : Bool :=
  match s.get F.MEM_CFG_WIDTH, s.get F.MEM_CFG_DENS, s.get F.MEM_CFG_RANKS with
  | 0, 0, _ => true
  | 0, 1, 0 => true
  | 1, 1, _ => true
  | 1, 2, 0 => true
  | _, _, _ => false

/-- Bytes of a channel (Table 16.1): the configurations of 8 GiB, and those of 4 GiB. -/
def State.channelBytes (s : State) : Nat :=
  if s.get F.MEM_CFG_RANKS = 1 ∨ s.get F.MEM_CFG_DENS = s.get F.MEM_CFG_WIDTH + 1 then 0x200000000 else 0x100000000

/-- Row bits (Table 16.1). -/
def State.rowBits (s : State) : Nat := s.get F.MEM_CFG_DENS + 15

/-- Bank group bits (Table 16.1). -/
def State.bgBits (s : State) : Nat := 2 - s.get F.MEM_CFG_WIDTH

/-- R405: the channel address of the first byte of a row named as MEM.REMAP names it: row [16:0], bank [18:17], bank group
[20:19] and rank [21]. -/
def State.rowBase (s : State) (x : Nat) : Nat :=
  let b := s.bgBits
  let k := s.get F.MEM_CFG_RANKS
  (((bits x 0 17 * 2 ^ k + bits x 21 1 % 2 ^ k) * 4 + bits x 17 2) * 2 ^ b + bits x 19 2 % 2 ^ b) * 8192

/-- The local address of a channel address (R17). -/
def localAddr (ch a : Nat) : Nat := a / 4096 * 8192 + ch * 4096 + a % 4096

/-- R418: the first channel address of the reserved rows. -/
def State.spareBase (s : State) : Nat := s.channelBytes - 0x80000

/-- A remap entry in effect (R419). -/
def State.remapped (s : State) (ch e : Nat) : Bool := s.on (F.MEM_REMAP_VALID ch e)

/-- The remap entries of a channel in effect. -/
def State.remaps (s : State) (ch : Nat) : List Nat := (List.range 64).filter (s.remapped ch)

/-- A channel's hidden record. -/
def State.chan (s : State) (ch : Fin 2) : DramChan := s.dram[ch]

/-- A channel's hidden record changed. -/
def State.modChan (s : State) (ch : Fin 2) (f : DramChan → DramChan) : State := { s with dram := s.dram.set ch (f s.dram[ch]) }

/-! ### Training -/

/-- What the DRAM holds is lost: a reset and a training keep nothing (R406). -/
def State.dropDram (s : State) : State :=
  { s with
    mem := s.mem.filter fun c => !(inDram c.1)
    poison := s.poison.filter fun e => !(inDram e.1)
    soft := s.soft.filter fun w => !(inDram w) }

/-- A channel fails with a FAILSTEP, and EVFAIL is set (R406, R412). -/
def State.failChannel (s : State) (ch step : Nat) : State :=
  ((s.set (F.MEM_CHSTAT_STATE ch) 3).set (F.MEM_CHSTAT_FAILSTEP ch) step).flag (.MEM_CHEV ch) 3

/-- R406: a write of 1 to MEM.CFG.TRAIN. The DDR divider follows RATE (Table 18.2). -/
def State.train (s : State) : State :=
  if s.get (F.MEM_CHSTAT_STATE 0) ≠ 0 ∨ s.get (F.MEM_CHSTAT_STATE 1) ≠ 0 then s
  else
    let s := { s with ddrDiv := 4 + min 2 (s.get F.MEM_CFG_RATE) }
    if s.memListed then (s.dropDram.set (F.MEM_CHSTAT_STATE 0) 1).set (F.MEM_CHSTAT_STATE 1) 1
    else (s.failChannel 0 9).failChannel 1 9

/-- TRAIN (R406). -/
def execTrain (s : State) : Host.Outcome State Fault Refusal := .next s.train

/-- R420: the DRAM entries of the repair map record, put into the lowest free remap entries of their channels. -/
def State.applyRemaps (s : State) : State :=
  s.asr.map.dram.foldl
    (fun s x =>
      let ch := bits x 22 1
      match (List.range 64).find? fun e => !(s.remapped ch e) with
      | some e =>
        let s := s.wr (.MEM_REMAP ch e) (BitVec.ofNat 32 (x % 2 ^ 22 + 2 ^ 31))
        s.set (F.MEM_CHSTAT_RMUSED ch) (s.remaps ch).length
      | none => s) s

/-- R558: the first step of training that fails: an electrical one, one of steps 3 to 6 that meets a width or a rank that
is not fitted, or step 7 for a density above the fitted one; 0 for none. -/
def State.trainFails (s : State) (width : Nat) (dens : Nat) (ranks : Nat) (meets fault : Nat) : Nat :=
  let m :=
    if s.get F.MEM_CFG_WIDTH ≠ width ∨ ranks < s.get F.MEM_CFG_RANKS then clampN 3 6 meets
    else if dens < s.get F.MEM_CFG_DENS then 7 else 0
  if fault = 0 then m else if m = 0 then fault else min fault m

/-- R558: the rows that step 7 writes, as MEM.REMAP names rows: row 0 and those of a power of two in every bank, bank group
and rank. -/
def State.patternRows (s : State) : List Nat :=
  (List.range (2 ^ s.get F.MEM_CFG_RANKS)).flatMap fun k => (List.range (2 ^ s.bgBits)).flatMap fun g =>
    (List.range 4).flatMap fun b => (0 :: (List.range s.rowBits).map fun i => 2 ^ i).map fun r =>
      r + b * 2 ^ 17 + g * 2 ^ 19 + k * 2 ^ 21

/-- R558: what step 7 has left in the first beat of those rows of a channel, outside rows that a remap replaces. The spec
does not give the patterns: free bytes. -/
def State.patterns (s : State) (ch : Nat) : State :=
  let gone := (s.remaps ch).map fun e => s.rowBase (s.rd (.MEM_REMAP ch e)).toNat
  ((s.patternRows.map s.rowBase).filter fun a => !(gone.contains a)).foldl
    (fun s a => let (l, s) := s.drawBytes 8; s.store (localAddr ch a) l) s

/-- R407: upkeep of a channel is counted from now on. -/
def State.startUpkeep (s : State) (ch : Fin 2) : State :=
  s.modChan ch fun c => { c with postponed := [0, 0], refreshed := [s.tim.ticks, s.tim.ticks], zqAt := s.tim.ticks }

/-- TRAINING_COMPLETE of channel `ch` with the devices fitted (x16 for `width`, two ranks for `ranks`), the step that meets
a mismatch of width or rank, and the step that fails electrically, 0 for none (R406, R558, R420). -/
def execTrainingComplete (ch : Fin 2) (width : Bool) (dens : BitVec 2) (ranks : Bool) (meets fault : BitVec 3) (s : State) :
    Host.Outcome State Fault Refusal :=
  .next (
    if s.get (F.MEM_CHSTAT_STATE ch) ≠ 1 then s
    else
      let f := s.trainFails (b2n width) dens.toNat (b2n ranks) meets.toNat fault.toNat
      if f ≠ 0 then s.failChannel ch f
      else
        let s := s.set (F.MEM_CHSTAT_STATE ch) 2
        if s.get (F.MEM_CHSTAT_STATE 0) = 2 ∧ s.get (F.MEM_CHSTAT_STATE 1) = 2 then
          let s := s.applyRemaps
          let s := s.set F.MEM_SIZE_MIB (2 * s.channelBytes / 0x100000 - s.get F.MEM_CFG_RSV)
          let s := s.set F.MEM_STAT_READY 1
          (((s.patterns 0).patterns 1).startUpkeep 0).startUpkeep 1
        else s)

/-! ### Upkeep -/

/-- Both channels serve requests. -/
def State.dramReady (s : State) : Bool := s.on F.MEM_STAT_READY

/-- R407: ZQCS to every rank of a channel once 128 ms have passed since the last. -/
def State.zqcs (s : State) (ch : Fin 2) : State :=
  if s.tim.ticks < (s.chan ch).zqAt + 20000000 then s
  else (List.range (s.get F.MEM_CFG_RANKS + 1)).foldl (fun s r => s.emit (.zqcs ch r))
    (s.modChan ch fun c => { c with zqAt := s.tim.ticks })

/-- ZQCS (R407); in self-refresh a channel takes none (DEDUCED). -/
def execZqcs (s : State) : Host.Outcome State Fault Refusal :=
  .next (if !s.dramReady || s.get F.MEM_STAT_SR == 2 then s else (s.zqcs 0).zqcs 1)

/-- R407: tREFI has passed since it last ended for a rank: 7.8 µs, or 3.9 µs with REF2X. -/
def State.refreshDue (s : State) (ch : Fin 2) (rank : Nat) : Bool :=
  decide ((if s.on F.MEM_CFG_REF2X then 39000 else 78000) ≤ (s.tim.ticks - (s.chan ch).refreshed.getD rank 0) * 64)

/-- R407: refreshes of a rank issued. -/
def State.refresh (s : State) (ch : Fin 2) (rank n left : Nat) : State :=
  (List.range n).foldl (fun s _ => s.emit (.refresh ch rank))
    (s.modChan ch fun c => { c with postponed := modAt rank (fun _ => left) c.postponed })

/-- DRAM_REFRESH: a rank's tREFI ends. While a request has urgency 8 or more up to 8 refreshes are postponed, and the ninth
is issued; else all that are due are issued (R407). In self-refresh the DRAM refreshes itself (R421). -/
def execDramRefresh (ch : Fin 2) (rank : Bool) (urgent : Bool) (s : State) : Host.Outcome State Fault Refusal :=
  let r := b2n rank
  let n := (s.chan ch).postponed.getD r 0
  .next (
    if !s.dramReady || s.get F.MEM_STAT_SR == 2 || decide (s.get F.MEM_CFG_RANKS < r) || !(s.refreshDue ch r) then s
    else
      let s := s.modChan ch fun c => { c with refreshed := modAt r (fun _ => s.tim.ticks) c.refreshed }
      if !urgent then s.refresh ch r (n + 1) 0
      else if n < 8 then s.refresh ch r 0 (n + 1)
      else s.refresh ch r 1 8)

/-- PATROL_SCRUB of a beat of channel `ch`: a corrected beat is counted and written back, and an uncorrectable one is
counted as R408 states (R410). It pauses in self-refresh (R421). -/
def execPatrolScrub (ch : Fin 2) (beat : BitVec 30) (s : State) : Host.Outcome State Fault Refusal :=
  .next (
    let a := localAddr ch (beat.toNat * 8)
    if !s.dramReady || s.get F.MEM_SCRUB_HOURS == 0 || s.get F.MEM_STAT_SR != 0 || !(s.inMemory a 8) then s
    else
      let s' := s.readEffects a 8
      if s.bad a then s' else { s' with soft := s'.soft.filter (· != a) })

/-! ### Parity alerts -/

/-- PARITY_ALERT: an alert falls; `replay` says that it does so during a replay. The fourth replay in a row that meets one
fails the channel (R411, R412). -/
def execParityAlert (ch : Fin 2) (replay : Bool) (s : State) : Host.Outcome State Fault Refusal :=
  .next (
    if s.get (F.MEM_CHSTAT_STATE ch) ≠ 2 then s
    else
      let n := if replay then (s.chan ch).replays + 1 else 0
      if 4 ≤ n then (s.modChan ch fun c => { c with alert := false, replays := 0 }).failChannel ch 8
      else s.modChan ch fun c => { c with alert := true, replays := n })

/-- PARITY_ALERT_END: the retry buffer is replayed, which counts and sets EVPAR (R411). -/
def execParityAlertEnd (ch : Fin 2) (s : State) : Host.Outcome State Fault Refusal :=
  .next (
    if (s.chan ch).alert then
      ((s.modChan ch fun c => { c with alert := false }).count (F.MEM_CAPAR_COUNT ch) 1).flag (.MEM_CHEV ch) 2
    else s)

/-! ### Neighbour refresh -/

/-- R414: the physical row of a row, and the row of a physical row, MEM.ADJ's MASK not including bit SEL. -/
def State.physRow (s : State) (ch r : Nat) : Nat :=
  if bit r (s.get (F.MEM_ADJ_SEL ch)) then r ^^^ s.get (F.MEM_ADJ_MASK ch) else r

/-- R414: the rows that physically adjoin a row; rows outside the device are skipped. -/
def State.adjoining (s : State) (ch r : Nat) : List Nat :=
  let p := s.physRow ch r
  ((if p = 0 then [] else [p - 1]) ++ [p + 1]).filterMap fun q =>
    let r' := s.physRow ch q
    if q < 2 ^ s.rowBits ∧ r' < 2 ^ s.rowBits then some r' else none

/-- NEIGHBOUR_REFRESH after an ACTIVATE of a row chosen by the generator: the adjoining rows are activated, and it counts
(R413, R414). -/
def execNeighbourRefresh (ch : Fin 2) (rank : Bool) (bg bank : BitVec 2) (row : BitVec 17) (s : State) :
    Host.Outcome State Fault Refusal :=
  .next (
    if !s.dramReady || s.get F.MEM_NBR_PROB == 0 || s.get F.MEM_STAT_SR != 0 then s
    else
      let s := (s.adjoining ch row.toNat).foldl
        (fun s r => s.emit (.activate ch (b2n rank) bg.toNat bank.toNat r)) s
      s.count (F.MEM_NBRCNT_COUNT ch) 1)

/-! ### Repair -/

/-- R417: a repair is permitted: before Dawn completes, or in MANUFACTURE and SERVICE. -/
def State.pprPermitted (s : State) : Bool :=
  !s.bot.dawned || s.get F.BOT_LCS_STATE == 1 || s.get F.BOT_LCS_STATE == 3

/-- 4 KiB of DRAM hold free bytes, without errors. -/
def State.freePage (s : State) (a : Nat) : State :=
  if !(s.inMemory a 4096) || s.touchesFailed a 4096 then s
  else
    let (l, s) := s.drawBytes 4096
    { s.putBytes a l with
      poison := s.poison.filter fun e => !(decide (a ≤ e.1 ∧ e.1 < a + 4096))
      soft := s.soft.filter fun w => !(decide (a ≤ w ∧ w < a + 4096)) }

/-- A row's content becomes undefined (R417): free bytes. A remapped row lies in its spare (R419). -/
def State.loseRow (s : State) (ch base : Nat) : State :=
  let row : Option Nat :=
    if s.get F.MEM_CFG_RSV = 1 ∧ s.spareBase ≤ base then
      let e := (base - s.spareBase) / 8192
      if s.remapped ch e then some (s.rowBase (s.rd (.MEM_REMAP ch e)).toNat) else none
    else if (s.remaps ch).any fun e => s.rowBase (s.rd (.MEM_REMAP ch e)).toNat == base then none
    else some base
  match row with
  | none => s
  | some a => (s.freePage (localAddr ch a)).freePage (localAddr ch (a + 4096))

/-- MEM.PPR's row in the form of MEM.REMAP. -/
def pprRow (w : Word) : Nat := getBits w 7 17 + getBits w 5 2 * 2 ^ 17 + getBits w 3 2 * 2 ^ 19 + getBits w 2 1 * 2 ^ 21

/-- R417: a write of GO to MEM.PPR[ch] of a word whose other fields already hold the row. A GO while a repair runs is
ignored. Every request of the channel waits for the repair's end, so it meets the row's undefined content from here on. -/
def State.startPpr (s : State) (ch : Fin 2) : State :=
  if s.on (F.MEM_CHSTAT_PPRBUSY ch) then s
  else if s.pprPermitted then
    ((s.modChan ch fun c => { c with ppr := some (s.rd (.MEM_PPR ch)) }).set (F.MEM_CHSTAT_PPRBUSY ch) 1).loseRow ch
      (s.rowBase (pprRow (s.rd (.MEM_PPR ch))))
  else s.set (F.MEM_PPR_RESULT ch) 3

/-- The RW fields of MEM.PPR written (R417). -/
def State.writePpr (s : State) (ch : Fin 2) (value : Word) : State :=
  let s := s.wr (.MEM_PPR ch) ((s.rd (.MEM_PPR ch) &&& 0xFF000000) ||| (value &&& 0x00FFFFFE))
  if value.getLsbD 0 then s.startPpr ch else s

/-- PPR: a write of MEM.PPR[ch] with GO (R417). -/
def execPpr (ch : Fin 2) (value : Word) (s : State) : Host.Outcome State Fault Refusal :=
  .next (s.writePpr ch (value ||| 1))

/-- R515: one more hPPR is recorded; its count saturates at 15. -/
def State.recordHppr (s : State) : State :=
  let s := if s.asr.map.hppr = 15 then s.mapFull 3 else s
  s.substituted fun m => { m with hppr := min 15 (m.hppr + 1) }

/-- PPR_COMPLETE: the repair ends, done or refused by the device (R417, R420, R515). -/
def execPprComplete (ch : Fin 2) (done : Bool) (s : State) : Host.Outcome State Fault Refusal :=
  .next (match (s.chan ch).ppr with
    | none => s
    | some w =>
      let s := (s.modChan ch fun c => { c with ppr := none }).set (F.MEM_CHSTAT_PPRBUSY ch) 0
      let s := (s.set (F.MEM_PPR_RESULT ch) (if done then 1 else 2)).flag (.MEM_CHEV ch) 5
      if done && w.getLsbD 1 then s.recordHppr else s)

/-- The errors of a row that is copied (R419): corrected data is stored clean, uncorrectable beats are poisoned. -/
def State.copyRow (s : State) (ch base : Nat) : State :=
  let mine (w : Nat) : Bool := inDram w && channelOf w == ch && channelAddr w / 8192 == base / 8192
  { s with
    soft := s.soft.filter fun w => !(mine w)
    poison := s.poison.map fun e => if mine e.1 then (e.1, true) else e }

/-- R419: a write of GO with ENTRY `e` to MEM.RMCTL[ch]. Requests to the row wait for the copy's end, so they meet the copied
data from here on. -/
def State.startRemap (s : State) (ch : Fin 2) (e : Nat) : State :=
  if s.get F.MEM_CFG_RSV = 1 ∧ !(s.remapped ch e) ∧ !(s.on (F.MEM_CHSTAT_RMBUSY ch)) ∧ s.dramReady then
    let w := s.rd (.MEM_REMAP ch e)
    ((s.modChan ch fun c => { c with remap := some (e, w) }).set (F.MEM_CHSTAT_RMBUSY ch) 1).copyRow ch (s.rowBase w.toNat)
  else s

/-- REMAP (R419). -/
def execRemap (ch : Fin 2) (entry : BitVec 6) (s : State) : Host.Outcome State Fault Refusal :=
  .next (s.startRemap ch entry.toNat)

/-- REMAP_COMPLETE: the copy ends, and the entry is valid and recorded where the map has a place (R419, R420, R515). -/
def execRemapComplete (ch : Fin 2) (s : State) : Host.Outcome State Fault Refusal :=
  .next (match (s.chan ch).remap with
    | none => s
    | some (e, w) =>
      let s := (s.modChan ch fun c => { c with remap := none }).set (F.MEM_CHSTAT_RMBUSY ch) 0
      let s := s.wr (.MEM_REMAP ch e) (w ||| 0x80000000)
      let s := (s.set (F.MEM_CHSTAT_RMUSED ch) (s.remaps ch).length).flag (.MEM_CHEV ch) 4
      let x := w.toNat % 2 ^ 22 + ch.val * 2 ^ 22
      s.substitutedEntry 2 2 (·.dram) fun m => { m with dram := m.dram ++ [x] })

/-! ### Self-refresh -/

/-- R421: entry into self-refresh begins on channels that serve requests. -/
def State.srEnter (s : State) : State := if s.dramReady && s.get F.MEM_STAT_SR == 0 then s.setSr 1 else s

/-- SR_ENTER (R421). -/
def execSrEnter (s : State) : Host.Outcome State Fault Refusal := .next s.srEnter

/-- SR_IDLE_ENTRY: no request has come for IDLE µs (R421). -/
def execSrIdleEntry (s : State) : Host.Outcome State Fault Refusal :=
  .next (if s.get F.MEM_SRCTL_IDLE = 0 then s else s.srEnter)

/-- R456, Table 18.2: every block of a domain that may be gated is idle: the DDR domain in self-refresh, the LAMP domain
while no scan group runs. -/
def State.domainIdle (s : State) (d : Nat) : Bool :=
  if d = 1 then s.get F.MEM_STAT_SR == 2
  else d == 2 && s.isTile && (List.range 16).all fun g => s.get (F.SCN_GSTAT_STATE g) != 1

/-- R456, R457, R458: gate requests that can take effect do, outside a switch of their domain. -/
def State.tryGates (s : State) : State :=
  [1, 2].foldl
    (fun s d =>
      if s.on ⟨.CLK_GATE, d, 1⟩ && s.domainIdle d && !(s.on (F.CLK_DSTAT_SWITCHING d)) then s.set (F.CLK_DSTAT_GATED d) 1
      else s) s

/-- SR_COMMIT: SRE is issued (R421). -/
def execSrCommit (s : State) : Host.Outcome State Fault Refusal :=
  .next (if s.get F.MEM_STAT_SR = 1 then (s.setSr 2).tryGates else s)

/-- R422: self-refresh, or an entry into it, ends; the exit runs whole. While the root PLL coasts it waits (R453). -/
def State.srExit (s : State) : State := s.touchDram

/-- SR_EXIT (R422). -/
def execSrExit (s : State) : Host.Outcome State Fault Refusal := .next s.srExit

end Sys2Proof.Machine
end

