-- ==== Sys2Proof/Machine/Clk.lean ====
section
/-! DEFINITION. Clocks: the start sequence up to the core rail (R447 to R449), loss of REFCLK (R452 to R454), lane PLLs
(R451), switches (R455, R532) and gates (R456 to R458). -/

namespace Sys2Proof.Machine

/-- The always-on record changed. -/
def State.modAon (s : State) (f : AonState → AonState) : State := { s with aon := f s.aon }

/-! ### Start -/

/-- AON_SUPPLY_UP: OSC_EN rises, the OSCDLY strap is read and the start delay begins (R447, R448, R474). -/
def execAonSupplyUp (oscdly : BitVec 2) (s : State) : Host.Outcome State Fault Refusal :=
  .next (if s.aon.supply then s
    else (s.modAon fun a => { a with supply := true, phase := 1, oscdly := oscdly.toNat, tries := 0 }).set
      F.CLK_START_OSCDLY oscdly.toNat)

/-- START_DELAY_EXPIRY (R448). -/
def execStartDelayExpiry (s : State) : Host.Outcome State Fault Refusal :=
  .next (if s.aon.phase = 1 then s.modAon fun a => { a with phase := 2 } else s)

/-- Table 18.1: REFFREQ of a ring count; none outside every band. -/
def startBand (count : Nat) : Option Nat :=
  if 18874 ≤ count ∧ count ≤ 23069 then some 3
  else if 23593 ≤ count ∧ count ≤ 28836 then some 2
  else if 29491 ≤ count ∧ count ≤ 36045 then some 1
  else none

/-- The fields that the start check and the root PLL set, from what the always-on domain knows (Table 22.24). -/
def State.showStart (s : State) : State :=
  let a := s.aon
  let s := s.set F.CLK_STAT_REFFREQ a.freq
  let s := s.set F.CLK_START_OSCDLY a.oscdly
  let s := s.set F.CLK_START_TRIES a.tries
  let s := s.set F.CLK_START_RINGCNT a.ringCount
  let s := s.set F.CLK_STAT_REFOK (b2n (decide (4 ≤ a.phase ∧ a.freq ≠ 0)))
  s.set F.CLK_STAT_ROOTLOCK (b2n (decide (5 ≤ a.phase ∧ a.freq ≠ 0)))

/-- START_CHECK: the ring oscillator has counted `count` cycles (R448). -/
def execStartCheck (count : BitVec 16) (s : State) : Host.Outcome State Fault Refusal :=
  .next (
    if s.aon.phase ≠ 2 then s
    else match startBand count.toNat with
      | some f => (s.modAon fun a => { a with phase := 4, freq := f, ringCount := count.toNat }).showStart
      | none => (s.modAon fun a => { a with phase := 3, tries := satN 8 (a.tries + 1) }).showStart)

/-- START_CHECK_RETRY: 1 ms after a failed check (R448). -/
def execStartCheckRetry (s : State) : Host.Outcome State Fault Refusal :=
  .next (if s.aon.phase = 3 then s.modAon fun a => { a with phase := 2 } else s)

/-- ROOT_PLL_LOCK: housekeeping moves to the root divider, and the soft-start of the core rail begins (R449). -/
def execRootPllLock (s : State) : Host.Outcome State Fault Refusal :=
  .next (if s.aon.phase = 4 then
      ((s.modAon fun a => { a with phase := 5 }).showStart).set (F.CLK_DSTAT_SRC 4) 0
    else s)

/-! ### Loss of REFCLK -/

/-- Every lane loses lock (R453): a chain lane in training or later fails its stage (R135), a source lane seeks lock again
(R138). -/
def State.lanesLoseLock (s : State) : State :=
  (List.range 36).foldl
    (fun s n =>
      let st := s.lane n
      if st = lnTrain ∨ st = lnBlockLock ∨ st = lnExchange then s.laneFails n st else s.lockLost n) s

/-- R451: a lane PLL loses lock. -/
def State.quadUnlock (s : State) (q : Nat) : State :=
  if s.on ⟨.CLK_STAT, 5 + q, 1⟩ then (s.set ⟨.CLK_STAT, 5 + q, 1⟩ 0).flag .CLK_EV 3 else s

/-- COAST changes, and EVCOAST is set (R452, R454). -/
def State.setCoast (s : State) (c : Bool) : State :=
  ((s.set F.CLK_STAT_COAST (b2n c)).set F.TIM_STAT_COAST (b2n c)).flag .CLK_EV 0

/-- REFCLK_LOSS (R452, R453). -/
def execRefclkLoss (s : State) : Host.Outcome State Fault Refusal :=
  .next (
    if s.on F.CLK_STAT_COAST then s
    else
      let s := (s.srEnter.setCoast true).set F.CLK_STAT_REFOK 0
      let s := s.set F.CLK_STAT_ROOTLOCK 0
      let s := s.setValid false
      let s := (List.range 9).foldl (fun s q => s.quadUnlock q) s
      let s := s.lanesLoseLock
      s.set (F.CLK_DSTAT_SWITCHING 4) 1)

/-- REFCLK_RETURN: valid for 1 ms, and the root PLL has locked again (R454). -/
def execRefclkReturn (s : State) : Host.Outcome State Fault Refusal :=
  .next (
    if !(s.on F.CLK_STAT_COAST) then s
    else
      let s := ((s.setCoast false).set F.CLK_STAT_REFOK 1).set F.CLK_STAT_ROOTLOCK 1
      let s := (s.set (F.CLK_DSTAT_SRC 4) 0).set (F.CLK_DSTAT_SWITCHING 4) 0
      let s := s.setSr 0
      (List.range 36).foldl
        (fun s n => if s.lane n = lnBackoff ∧ s.on (F.LAN_CTL_EN n) then s.setLane n lnDetect else s) s)

/-! ### Switches -/

/-- R532: only the DDR and the HKP domain have a multiplexer that switches. -/
def switches (d : Nat) : Bool := d == 1 || d == 4

/-- A switch of a domain ends: HKP runs from the ring oscillator while the root PLL coasts (R453, R455). -/
def State.switched (s : State) (d : Nat) : State :=
  let s := s.set (F.CLK_DSTAT_SRC d) (b2n (d == 4 && s.on F.CLK_STAT_COAST))
  (s.set (F.CLK_DSTAT_SWITCHING d) 0).tryGates

/-- CLOCK_SWITCH (R455). -/
def execClockSwitch (d : Fin 5) (s : State) : Host.Outcome State Fault Refusal :=
  .next (if switches d then s.switched d else s)

/-- R532: the words of a unit take their reset values, LK fields apart. -/
def State.resetUnit (s : State) (uu : Nat) : State :=
  (s.regs.filter fun e => e.1.unit == uu).foldl
    (fun s e =>
      let lk : Word := BitVec.ofNat 32 e.1.info.lk
      s.wr e.1 ((s.rd e.1 &&& lk) ||| (e.1.resetValue &&& ~~~lk))) s

/-- R532: a local reset of the DDR domain leaves both channels untrained. -/
def State.resetDdr (s : State) : State := { (s.resetUnit 0x0E) with dram := Vector.replicate 2 DramChan.reset }

/-- R532: a local reset of the HKP domain: every LED rail off and VDD_CORE at CODE 0x32. -/
def State.resetHkp (s : State) : State :=
  let s := (s.railsOff.resetUnit 0x10).resetUnit 0x0F
  let s := { s with pwr := State.reset.pwr, hkp := State.reset.hkp, sd := { s.sd with transfer := none } }
  (s.set F.HKP_SDSTAT_PRESENT (b2n s.sd.card.isSome)).setCode 0x32

/-- CLOCK_SWITCH_FORCED: the old clock does not stop, and the blocks of the domain are reset (R455, R532). -/
def execClockSwitchForced (d : Fin 5) (s : State) : Host.Outcome State Fault Refusal :=
  .next (
    if !(switches d) then s
    else
      let s := (s.set ⟨.CLK_STAT, 16 + d, 1⟩ 1).flag .CLK_EV 1
      let s := if d.val = 1 then s.resetDdr else s.resetHkp
      (s.set (F.CLK_DSTAT_SWRST d) 1).switched d)

/-! ### Gates -/

/-- Table 18.2: a domain may be gated and is powered in the role. -/
def State.mayGate (s : State) (d : Nat) : Bool := d == 1 || (d == 2 && s.isTile)

/-- R456: a write of 1 to CLOSE bit `d`. -/
def State.closeGate (s : State) (d : Nat) : State := if s.mayGate d then (s.set ⟨.CLK_GATE, d, 1⟩ 1).tryGates else s

/-- R456: a write of 0 to CLOSE bit `d`. -/
def State.openGate (s : State) (d : Nat) : State := (s.set ⟨.CLK_GATE, d, 1⟩ 0).set (F.CLK_DSTAT_GATED d) 0

/-- GATE_CLOSE (R456, R458). -/
def execGateClose (d : Fin 5) (s : State) : Host.Outcome State Fault Refusal := .next (s.closeGate d)

/-- GATE_CLOSE_TIMEOUT: an access is still outstanding after 1,024 cycles (R456). -/
def execGateCloseTimeout (d : Fin 5) (s : State) : Host.Outcome State Fault Refusal :=
  .next (if s.on ⟨.CLK_GATE, d, 1⟩ && !(s.on (F.CLK_DSTAT_GATED d)) then
      ((s.set ⟨.CLK_GATE, d, 1⟩ 0).set ⟨.CLK_STAT, 24 + d, 1⟩ 1).flag .CLK_EV 2
    else s)

/-- GATE_OPEN (R456). -/
def execGateOpen (d : Fin 5) (s : State) : Host.Outcome State Fault Refusal := .next (s.openGate d)

/-- GATED_ACCESS: the gate opens, and closes again when the block is next idle while CLOSE is 1 (R457). -/
def execGatedAccess (d : Fin 5) (s : State) : Host.Outcome State Fault Refusal :=
  .next (s.set (F.CLK_DSTAT_GATED d) 0)

/-- A write of CLK.GATE (R456). -/
def State.writeGate (s : State) (value : Word) : State :=
  (List.range 5).foldl (fun s d => if value.getLsbD d then s.closeGate d else s.openGate d) s

/-! ### Lane PLLs -/

/-- A powered lane of quad `q` has EN set (R451). -/
def State.quadEnabled (s : State) (q : Nat) : Bool :=
  (List.range 4).any fun k => s.lanePowered (4 * q + k) && s.on (F.LAN_CTL_EN (4 * q + k))

/-- LANE_PLL_LOCK (R451). -/
def execLanePllLock (q : Fin 9) (s : State) : Host.Outcome State Fault Refusal :=
  .next (if s.quadEnabled q && !(s.on F.CLK_STAT_COAST) then s.set ⟨.CLK_STAT, 5 + q, 1⟩ 1 else s)

/-- LANE_PLL_LOCK_LOSS: the lanes of the quad lose block lock (R451, R137, R138). -/
def execLanePllLockLoss (q : Fin 9) (s : State) : Host.Outcome State Fault Refusal :=
  .next (if s.on ⟨.CLK_STAT, 5 + q, 1⟩ then
      (List.range 4).foldl (fun s k => s.lockLost (4 * q + k)) (s.quadUnlock q)
    else s)

end Sys2Proof.Machine
end

