-- ==== Sys2Proof/Machine/Dusk.lean ====
section
/-! DEFINITION. Dawn's completion and its seal (R483 to R485), test slices (R508 to R513), Dusk (R487, R488), Midnight
(R441, R489, R504) and the ends of the part's own journal writes (R498, R500). -/

namespace Sys2Proof.Machine

/-- The boot record changed. -/
def State.modBot (s : State) (f : BotState → BotState) : State := { s with bot := f s.bot }

/-- STAGE of BOT.STAT. -/
def State.stage (s : State) : Nat := s.get F.BOT_STAT_STAGE

/-- STAGE changes, and EVSTAGE is set (Table 20.15). -/
def State.setStage (s : State) (v : Nat) : State :=
  if s.stage = v then s else (s.set F.BOT_STAT_STAGE v).flag .BOT_EV 0

/-- Every core halts as under R95 (Tables 20.8 and 20.10); one in NVWR when its write ends (R90). -/
def State.haltAll (s : State) : State :=
  (List.finRange 5).foldl
    (fun s n =>
      let s := s.requestHalt n
      if (s.core n).haltReq && !(s.core n).holdsHalt then s.haltCore n 2 (s.core n).pc else s) s

/-! ### Dawn -/

/-- R485: Dawn completes: LK fields lock with STAGE 6, and EVDAWN is set. -/
def State.completeDawn (s : State) : State :=
  ((s.modBot fun b => { b with dawnDue := false, dawned := true }).setStage 6).flag .BOT_EV 1

/-- R485: a write of 1 to DAWNDONE; during the power-on tests it waits for their end. -/
def State.dawnDone (s : State) : State :=
  if s.stage = 4 then s.completeDawn
  else if s.stage = 5 then s.modBot fun b => { b with dawnDue := true }
  else s

/-- DAWNDONE (R485). -/
def execDawndone (s : State) : Host.Outcome State Fault Refusal := .next s.dawnDone

/-- A time after step 5 of Table 20.7, in microseconds, has passed. -/
def State.sinceStep5 (s : State) (us : Nat) : Bool :=
  match s.bot.step5 with
  | some t => decide (t + usTicks us ≤ s.tim.ticks)
  | none => false

/-- R485: LIMIT, as it stands, has passed since step 5; 0 acts as 1. -/
def State.limitPassed (s : State) : Bool := s.sinceStep5 (max 1 (s.get F.BOT_DAWNCFG_LIMIT) * 1000000)

/-- R483, R485: TWAIT, as it stands, has passed since step 5. -/
def State.waitPassed (s : State) : Bool := s.sinceStep5 (s.get F.BOT_DAWNCFG_TWAIT * 1000)

/-- R485: automatic completion; during the power-on tests it waits for their end. -/
def State.dawnByLimit (s : State) : State := if s.stage = 4 ∧ s.limitPassed = true then s.completeDawn else s

/-- DAWN_LIMIT_EXPIRY (R485). -/
def execDawnLimitExpiry (s : State) : Host.Outcome State Fault Refusal := .next s.dawnByLimit

/-! ### The seal -/

/-- The SEQ of a seal page that is valid (Table 20.9). -/
def State.sealSeq (s : State) (page : Nat) : Option Nat :=
  let l := s.nvPage page
  if pageValid l then some (leAt l 0 4) else none

/-- The newer valid seal record. -/
def State.newestSeal (s : State) : Option (List Byte) :=
  (copyInForce (s.sealSeq 20) (s.sealSeq 21)).map fun j => s.nvPage (20 + j)

/-- A journal page that is a valid first page of a power-loss anchor, with its JSEQ (R503). -/
def State.anchorSeq (s : State) (page : Nat) : Option Nat :=
  let l := s.nvPage page
  match s.journalSeq page with
  | some q => if leAt l 4 1 = 2 ∧ leAt l 5 1 = 0 then some q else none
  | none => none

/-- The newest power-loss anchor: its page and JSEQ. -/
def State.powerAnchor (s : State) : Option (Nat × Nat) :=
  ((List.range 96).map (· + 24)).foldl
    (fun best p => match s.anchorSeq p, best with
      | some q, some (_, b) => if b < q then some (p, q) else best
      | some q, none => some (p, q)
      | none, _ => best) none

/-- R483: BOT.SEAL.STATE of a decision: 1 fresh, or the first condition that fails. -/
def State.sealState (s : State) : Nat :=
  match s.newestSeal with
  | none => 2
  | some l =>
    let t := leAt l 4 6
    let now := wuSec s.now
    if !(bit (leAt l 10 2) 0) then 5
    else if leAt l 16 4 ≠ (s.rd .BOT_MDIG).toNat then 6
    else if !(s.on F.TIM_STAT_VALID) ∨ now < t ∨ t + 604800 < now then 3
    else if (match s.powerAnchor with | some (_, q) => decide (leAt l 12 4 < q) | none => false) then 4
    else if !s.tempProven then 7
    else 1

/-! ### Test slices -/

/-- The units present in the role (R508). -/
def State.testUnits (s : State) : Nat := if s.isTile then 848 else 248

/-- The logical core that runs on a physical core, if any (R92). -/
def State.logicalOf (s : State) (phys : Nat) : Option (Fin 5) :=
  (List.finRange 5).find? fun n => s.get ⟨.HRC_MAP, 3 * n, 3⟩ == phys && s.coreState n != coreRetired

/-- Table 21.7: the condition of a unit's block is met. -/
def State.testAllowed (s : State) (u : Nat) : Bool :=
  match unitBlock u with
  | (1, p, _) => match s.logicalOf p with
    | some n => s.coreState n == coreHalted
    | none => true
  | (5, _, _) => s.allRailsOff
  | _ => true

/-- R509: the state shows no work in progress in a unit's block: no codec command, no transfer, no frame in
composition. -/
def State.sliceIdle (s : State) (u : Nat) : Bool :=
  match (unitBlock u).1 with
  | 3 => s.codec.isNone
  | 4 => (List.finRange 5).all fun n => (List.finRange 16).all fun i => ((s.core n).tickets[i]).busy.isNone
  | 7 | 8 | 10 | 11 | 12 => s.cmp.frames.all (·.complete)
  | _ => true

/-- The bound of one unit in microseconds at the measured S (R508); an S not yet measured counts as 1.00 (DEDUCED). -/
def State.unitBound (s : State) : Nat :=
  let v := if s.get F.PWR_SPEED_S = 0 then 256 else s.get F.PWR_SPEED_S
  (250 * 256 + v - 1) / v

/-- The slice run changed. -/
def State.setRun (s : State) (r : Option SliceRun) : State := s.modAsr fun a => { a with slice := r }

/-- R511: the RC counters and W1C bits of a unit's words take their reset values. -/
def State.clearCounters (s : State) (p : Reg → Bool) : State :=
  (s.regs.filter fun e => p e.1).foldl
    (fun s e =>
      let m : Word := BitVec.ofNat 32 (e.1.info.rc ||| e.1.info.w1c)
      s.wr e.1 ((e.2 &&& ~~~m) ||| (e.1.resetValue &&& m))) s

/-- R423: the words of the MEM block after its slice: RW fields too take their reset values, but for MEM.CFG, MEM.SIZE,
MEM.ADJ and the remap entries. -/
def State.reinitMem (s : State) : State :=
  let s := s.clearCounters fun r => r.unit == 0x0E
  (s.regs.filter fun e => e.1.unit == 0x0E && (match e.1 with
    | .MEM_CFG => false
    | .MEM_ADJ _ => false
    | .MEM_REMAP .. => false
    | _ => true)).foldl
    (fun s e =>
      let m : Word := BitVec.ofNat 32 e.1.info.rw
      s.wr e.1 ((e.2 &&& ~~~m) ||| (e.1.resetValue &&& m))) s

/-- R511: what the end of a slice re-initialises in its block. -/
def State.reinit (s : State) (kind inst : Nat) : State :=
  match kind with
  | 1 => match s.logicalOf inst with
    | some n =>
      let r := Core.reset
      s.setCore n { s.core n with
        sup := r.sup, psup := r.psup, inTrap := r.inTrap, epc := r.epc, causeCode := r.causeCode,
        causeDetail := r.causeDetail, tvec := r.tvec, evmask := r.evmask, instret := r.instret }
    | none => s
  | 3 => s.clearCounters fun r => r.unit == 0x06
  | 4 => s.clearCounters fun r => r.unit == 0x0C
  | 5 => s.clearCounters fun r => r.unit == 0x10 && decide (r.addr % 0x10000 < 0x800)
  | 6 => s.reinitMem
  | 11 => s.clearCounters fun r => r.unit == 0x07
  | 12 => s.clearCounters fun r => r.unit == 0x08
  | 13 =>
    let s := s.clearCounters fun r => r == .SCN_GSTAT inst
    s.clearResiduals inst
  | _ => s

/-- TEST_SLICE: the next slice begins: the rail at VMAX, a scan group dark (R509, Table 13.4). -/
def State.beginSlice (s : State) : State :=
  match s.asr.slice with
  | some r =>
    if r.slice.isSome || r.left == 0 || !(s.testAllowed r.next) || !(s.sliceIdle r.next) then s
    else
      let s := (s.setRun (some { r with slice := some 0 })).set F.ASR_STAT_SLICE 1
      let s := s.followCode
      match unitBlock r.next with
      | (13, g, _) => (s.modGroup g fun x => { x with sliceHold := true }).updateDark
      | _ => s
  | none => s

/-- TEST_SLICE (R509, R510). -/
def execTestSlice (s : State) : Host.Outcome State Fault Refusal := .next s.beginSlice

/-- The running slice ends: the rail is given back, and a START held for a group or a compose start takes place
(Table 13.4, R510). -/
def State.endSlice (s : State) (u : Nat) : State :=
  let s := (s.set F.ASR_STAT_SLICE 0).followCode
  match unitBlock u with
  | (13, g, _) =>
    let held := (s.group g).startHeld
    let s := (s.modGroup g fun x => { x with sliceHold := false, startHeld := none }).updateDark
    match held with
    | some slot => s.startGroup g (b2n slot)
    | none => s
  | _ => s.serveCompose

/-- Table 20.8: Dusk ends: self-refresh, HALT_OK and EVDUSK. -/
def State.endDusk (s : State) : State :=
  let s := s.srEnter.set F.PWR_STAT_HALTOK 1
  ((s.modBot fun b => { b with dusk := none }).set F.BOT_DUSKSTAT_DONE 1).flag .BOT_EV 2

/-- R488: the seal of a Dusk is written, or NOSEAL is set. -/
def State.sealDusk (s : State) (rot : Nat) (ok : Bool) : State :=
  match s.nvCheck 1 with
  | 0 =>
    let (j, q) := nextCopy (s.sealSeq 20) (s.sealSeq 21)
    let body := leBytes 4 q ++ s.recordTime false ++ leBytes 2 (b2n ok)
      ++ leBytes 4 ((s.journalNewest.map (·.2)).getD 0) ++ leBytes 4 (s.rd .BOT_MDIG).toNat ++ leBytes 4 rot ++ [0, 0, 0, 0]
    (s.nvPay 1).nvQueue ⟨.seal, [(20 + j, body ++ checkWord body)], false⟩
  | r => ((s.nvRefused r).set F.BOT_DUSKSTAT_NOSEAL 1).endDusk

/-- A run of slices ends: a request, the power-on tests (R484, R485), or Dusk's (R513). -/
def State.endSlices (s : State) (r : SliceRun) : State :=
  let s := s.setRun none
  match r.cause with
  | 0 => s.set F.ASR_SLICESTAT_BUSY 0
  | 1 => if s.bot.dawnDue || s.limitPassed then s.completeDawn else s.setStage 4
  | _ => s.sealDusk r.next (match s.bot.dusk with | some (_, _, ok) => ok | none => false)

/-- R513: the next slice's first unit fits in what remains of Dusk's budget. -/
def State.duskFits (s : State) (r : SliceRun) : Bool :=
  decide (r.used + s.unitBound + 100 ≤ s.get F.BOT_DUSKCFG_BUDGET * 1000)

/-- The run goes on, or ends. -/
def State.goOn (s : State) (r : SliceRun) : State :=
  if r.left = 0 ∨ (r.cause = 2 ∧ !(s.duskFits r)) then s.endSlices r else s.setRun (some r)

/-- The unit after `n` units of a run; only Dusk wraps (R513). -/
def State.unitAfter (s : State) (r : SliceRun) (n : Nat) : Nat :=
  if r.cause = 2 then (r.next + n) % s.testUnits else r.next + n

/-- R509: the units that a slice runs, `cap` being left in its block: one, and more while the bound of the next and 0.1 ms
fit in what remains of BUDGET; a unit takes its bound at most. -/
def State.sliceUnits (s : State) (cap units : Nat) : Nat :=
  let least := (clampN 5 200 (s.get F.ASR_SLICECFG_BUDGET) * 100 - 100) / s.unitBound
  clampN (max 1 (min least cap)) (max 1 cap) units

/-- R509: the time of a slice lies within its budget. -/
def State.sliceTime (s : State) (micros : Nat) : Nat :=
  min micros (max (clampN 5 200 (s.get F.ASR_SLICECFG_BUDGET) * 100) (s.unitBound + 100))

/-- TEST_SLICE_END: the slice has run `units` consecutive units, of which `failed` failed, `row` being the first failing
row code of a memory unit, in `micros` µs (R509, R511 to R513). A slice stays within its block. -/
def State.finishSlice (s : State) (units failed row micros : Nat) (memory : Bool) : State :=
  match s.asr.slice with
  | some r =>
    if r.slice.isNone then s
    else
      let (kind, inst, rest) := unitBlock r.next
      let n := s.sliceUnits (min rest r.left) units
      let micros := s.sliceTime micros
      let bad := min failed n
      let s := s.set F.ASR_SLICESTAT_UNIT (r.next + n - 1)
      let s :=
        if bad = 0 then (if s.get F.ASR_SLICESTAT_RESULT = 2 then s else s.set F.ASR_SLICESTAT_RESULT 1)
        else ((s.set F.ASR_SLICESTAT_RESULT 2).count F.ASR_TESTFAIL_COUNT bad).flag .ASR_EV 3
      let s := if bad ≠ 0 ∧ memory then (s.set F.ASR_FAILROW_ROW row).set F.ASR_FAILROW_VALID 1 else s
      let s := if r.cause = 1 ∧ bad ≠ 0 then s.set F.BOT_SEAL_POSTFAIL 1 else s
      let s :=
        if r.cause = 2 then
          let s := s.modBot fun b => { b with dusk := b.dusk.map fun d => (d.1, d.2.1, d.2.2 && bad == 0) }
          let s := s.count F.BOT_DUSKSTAT_SLICES 1
          s.set F.BOT_DUSKSTAT_MS (min 65535 ((r.used + micros) / 1000))
        else s
      let s := (s.reinit kind inst).endSlice r.next
      s.goOn { r with next := s.unitAfter r n, left := r.left - n, used := r.used + micros, slice := none }
  | none => s

/-- TEST_SLICE_END (R511 to R513). -/
def execTestSliceEnd (units failed : BitVec 10) (row : Option (BitVec 23)) (micros : BitVec 16) (s : State) :
    Host.Outcome State Fault Refusal :=
  .next (s.finishSlice units.toNat failed.toNat ((row.map (·.toNat)).getD 0) micros.toNat row.isSome)

/-- TEST_SLICE_SKIP: the block did not become idle within 1 ms, which the run has then used, or its condition is not met
(R509). -/
def execTestSliceSkip (s : State) : Host.Outcome State Fault Refusal :=
  .next (match s.asr.slice with
    | some r =>
      if r.slice.isSome then s
      else
        let s := if s.get F.ASR_SLICESTAT_RESULT = 2 then s else s.set F.ASR_SLICESTAT_RESULT 3
        s.goOn { r with
          next := s.unitAfter r 1, left := r.left - 1, used := r.used + if s.testAllowed r.next then 1000 else 0 }
    | none => s)

/-- R508: a request through ASR.SLICECTL, its other fields already written; ignored while slices are in hand. Units beyond
the set are not run, and a request for none of the set is skipped (DEDUCED). -/
def State.requestSlices (s : State) : State :=
  if s.lifeCycle = 2 ∨ 4 ≤ s.lifeCycle then s.set F.ASR_SLICESTAT_RESULT 5
  else if s.asr.slice.isSome || s.stage == 7 then s
  else
    let u := s.get F.ASR_SLICECTL_UNIT
    let n := min (max 1 (s.get F.ASR_SLICECTL_COUNT)) (s.testUnits - u)
    if n = 0 then s.set F.ASR_SLICESTAT_RESULT 3
    else ((s.set F.ASR_SLICESTAT_RESULT 0).set F.ASR_SLICESTAT_BUSY 1).setRun (some ⟨0, u, n, 0, none⟩)

/-- A write of ASR.SLICECTL (R508). -/
def State.writeSliceCtl (s : State) (value : Word) : State :=
  let s := s.wr .ASR_SLICECTL (value &&& 0xFFFFF)
  if value.getLsbD 31 then s.requestSlices else s

/-- SLICE_REQUEST: a write of ASR.SLICECTL with GO (R508). -/
def execSliceRequest (value : Word) (s : State) : Host.Outcome State Fault Refusal :=
  .next (s.writeSliceCtl (value ||| 0x80000000))

/-! ### The decision -/

/-- R483, R484: the seal is decided after step 5; without a fresh one the power-on tests run, every unit once from unit 0.
A request's slices in hand give way to them. -/
def State.decideSeal (s : State) : State :=
  if s.stage ≠ 4 ∨ s.get F.BOT_SEAL_STATE ≠ 0 then s
  else
    let v := s.sealState
    let s := s.set F.BOT_SEAL_STATE v
    if v = 1 then s
    else (((s.set F.BOT_SEAL_POST 1).set F.ASR_SLICESTAT_BUSY 0).setStage 5).setRun (some ⟨1, 0, s.testUnits, 0, none⟩)

/-- SEAL_DECISION: VALID has risen, or TWAIT has passed since step 5 (R483, Table 20.7 step 7). -/
def execSealDecision (s : State) : Host.Outcome State Fault Refusal :=
  .next (if s.on F.TIM_STAT_VALID || s.waitPassed then s.decideSeal else s)

/-! ### Dusk -/

/-- R513: the first slice of a Dusk: the seal's ROT, or unit 0. -/
def State.duskRot (s : State) : Nat :=
  match s.newestSeal with
  | some l => if leAt l 20 4 < s.testUnits then leAt l 20 4 else 0
  | none => 0

/-- R487, Table 20.8: a write of 1 to BOT.CTL.DUSK, accepted in STAGE 6. -/
def State.dusk (s : State) : State :=
  if s.stage ≠ 6 then s
  else
    let rot := s.duskRot
    let s := if s.isTile then (s.modScn fun c => { c with darkHold := true }).darkNow else s
    let s := ((s.railsOff.haltAll).set F.ASR_SLICESTAT_BUSY 0).setStage 7
    let s := s.modBot fun b => { b with dusk := some (s.tim.ticks, rot, true) }
    s.goOn ⟨2, rot, s.testUnits, 0, none⟩

/-- DUSK (R487). -/
def execDusk (s : State) : Host.Outcome State Fault Refusal := .next s.dusk

/-! ### Midnight -/

/-- R489: the journal holds no anchor newer than the newest seal. -/
def State.firstAnchor (s : State) : Bool :=
  match s.newestSeal with
  | none => false
  | some l => match s.powerAnchor with
    | none => true
    | some (_, q) => decide (q ≤ leAt l 12 4)

/-- R504: the anchor is due: the first after a seal, or 60 s after the newest one, or 60 s after the last reset while the
wall time is invalid. An anchor whose time was not known gives no 60 s (DEDUCED). -/
def State.anchorDue (s : State) : Bool :=
  s.firstAnchor ||
    (if s.on F.TIM_STAT_VALID then
      match s.powerAnchor with
      | none => true
      | some (p, _) =>
        let l := s.nvPage p
        decide (wuOf (leAt l 6 6 + 60) (leAt l 12 4) 0 ≤ s.now)
    else decide (usTicks 60000000 ≤ s.tim.ticks))

/-- Tables 17.4 and 20.10 step 6: once the journal is at rest every phase goes to mid and HALT_OK rises. -/
def State.midnightEnd (s : State) : State :=
  if s.midnight && s.asr.jobs.isEmpty && !(s.on F.PWR_STAT_HALTOK) then (s.set F.PWR_STAT_HALTOK 1).idlePhases 0 else s

/-- R504, R489: the power-loss anchor; it takes no credit. -/
def State.midnightAnchor (s : State) (vin : Bool) : State :=
  if !s.anchorDue then s
  else if !s.tempProven then s.nvRefused 2
  else
    let head := if s.asr.proof.running then s.asr.proof.head else List.replicate 32 0
    s.journalRecord .anchor 2 [s.recordTime true ++ head.take 12, head.drop 12 ++ [BitVec.ofNat 8 (b2n vin)]]

/-- A job belongs to core `n`. -/
def NvjJob.ofCore (j : NvjJob) (n : Fin 5) : Bool :=
  match j.owner with
  | .core m _ => m == n
  | _ => false

/-- R498: only the page that is being programmed is still written; a core's NVWR in hand completes, and the cores whose
writes had not begun halt. -/
def State.cutJobs (s : State) : State :=
  let first := s.asr.jobs.take 1
  let s := s.modAsr fun a => { a with jobs := first.map fun j => match j.owner with
    | .core .. => j
    | _ => ⟨.cut, j.pages.take 1, true⟩ }
  (List.finRange 5).foldl
    (fun s n =>
      if (s.core n).holdsHalt && !(first.any fun j => j.ofCore n) then s.haltCore n 2 (s.core n).pc else s) s

/-- R441, Table 20.10: Midnight, at most once in a power cycle; `vin` says that VIN_SENSE showed it. -/
def State.startMidnight (s : State) (vin : Bool) : State :=
  if s.midnight then s
  else
    let s := (s.set F.PWR_STAT_MIDNIGHT 1).flag .PWR_EV 2
    let s := if s.isTile then (s.modScn fun c => { c with midnight := true }).darkNow else s
    let s := match s.asr.slice with
      | some r => if r.slice.isSome then (s.set F.ASR_STAT_SLICE 0).set F.ASR_SLICESTAT_RESULT 4 else s
      | none => s
    let s := ((s.setRun none).set F.ASR_SLICESTAT_BUSY 0).modBot fun b => { b with dusk := none }
    let s := (s.haltAll.setStage 7).railsOff
    let s := s.followCode.cutJobs
    (s.midnightAnchor vin).midnightEnd

/-- PFAIL_DETECT: PFAIL_N has been low for 200 ns (R441). -/
def execPfailDetect (s : State) : Host.Outcome State Fault Refusal :=
  .next ((s.set F.PWR_STAT_PFAIL 1).startMidnight false)

/-- VIN_FAIL_DETECT: two samples in a row of VIN_SENSE below FAIL (R441). -/
def execVinFailDetect (s : State) : Host.Outcome State Fault Refusal :=
  .next (if s.on F.PWR_MID_VINEN then s.startMidnight true else s)

/-- SENSE_SAMPLE: the samples of ISNS0 to ISNS15 and of VIN_SENSE in one 1.28 µs interval (R427, R441). -/
def execSenseSample (codes : List (BitVec 12)) (vin : BitVec 12) (s : State) : Host.Outcome State Fault Refusal :=
  .next (let (low, s) := s.senseSample codes vin.toNat
    if low then s.startMidnight true else s)

/-! ### The part's own journal writes -/

/-- A write of the part ends, written or not: who asked for it sees the outcome. -/
def State.ownWriteEnd (s : State) (owner : NvjOwner) (page : Nat) (ok : Bool) : State :=
  let s := s.set F.ASR_NVSTAT_LASTRES (if ok then 0 else 4)
  match owner with
  | .floors =>
    if ok then s.showFloors.floorEnd 1
    else
      let (w, s) := s.draw
      s.floorEnd (w.toNat % 8)
  | .seal => (if ok then s.set F.BOT_DUSKSTAT_SEALED 1 else s.set F.BOT_DUSKSTAT_NOSEAL 1).endDusk
  | .map => if ok then s.set F.ASR_MAPSTAT_SEQ (leAt (s.nvPage page) 0 2) else s
  | .trip =>
    if ok then
      let s := s.set F.HKP_STAT_RECPEND 0
      ({ s with aon := { s.aon with trip := none, tripCount := 0 } }.set F.HKP_STAT_NOPROOF 0).flag .HKP_EV 7
    else s
  | .trims count sec => if ok then s.calRecord (page / 8) count sec else s.calEnd 6
  | .calibration => s.calEnd (if ok then 1 else 6)
  | _ => s

/-- R498, R500: the page in hand of the part's own writes has been programmed and verified, or not. A page that fails is
repeated once on the spare. -/
def State.ownWrite (s : State) (verified : Bool) : State :=
  match s.asr.jobs with
  | ⟨owner, (page, l) :: rest, repeated⟩ :: more =>
    match owner with
    | .core .. => s
    | _ =>
      let wasFailed := s.nvFailed page
      let (ok, s) := s.nvEndPage page l verified
      if ok then
        if rest.isEmpty then ((s.nvPop).ownWriteEnd owner page true).midnightEnd
        else (s.modAsr fun a => { a with jobs := ⟨owner, rest, false⟩ :: more }).nvBegin
      else if !repeated && !wasFailed && !(s.nvFailed page) then
        (s.modAsr fun a => { a with jobs := ⟨owner, (page, l) :: rest, true⟩ :: more }).nvBegin
      else ((s.nvPop).ownWriteEnd owner page false).midnightEnd
  | _ => s

/-- NVJ_WRITE_COMPLETE (R498, R500). -/
def execNvjWriteComplete (verified : Bool) (s : State) : Host.Outcome State Fault Refusal := .next (s.ownWrite verified)

end Sys2Proof.Machine
end

