-- ==== Sys2Proof/Machine/Hkp.lean ====
section
/-! DEFINITION. Housekeeping: the slow round with its temperatures, derating and trip (R460 to R468), the colour sensors
(R470), I²C commands (R469, R471) and the lamp-board identity (R472). -/

namespace Sys2Proof.Machine

/-- The housekeeping record changed. -/
def State.modHkp (s : State) (f : HkpState → HkpState) : State := { s with hkp := f s.hkp }

/-- A flag of HKP.EV. -/
def State.hkpFlag (s : State) (b : Nat) : State := s.flag .HKP_EV b

/-- A byte of the applied trims, by its place in Table 21.5. -/
def State.trimByte (s : State) (i : Nat) : Nat := (s.asr.taps.getD (i - 16) 0).toNat

/-! ### Readings -/

/-- R460, Table 21.5: a code with the ADC gain and offset applied, within 12 bits; the product is cut to whole codes
(DEDUCED). -/
def State.correctCode (s : State) (code : Nat) : Nat :=
  let gain := s.trimByte 116 + 256 * s.trimByte 117
  let offset := sgn 16 (s.trimByte 118 + 256 * s.trimByte 119)
  (clampI 0 4095 ((code * gain / 32768 : Nat) + offset)).toNat

/-- R461: the use of input HKi: KIND 2 only on HK0 to HK15 and in tile role. -/
def State.channelKind (s : State) (i : Nat) : Nat :=
  match s.get (F.HKP_CH_KIND i) with
  | 1 => 1
  | 2 => if s.isTile && decide (i < 16) then 2 else 0
  | _ => 0

/-- R461: the temperature of a thermistor code, in 1/16 °C. -/
def State.thermistor (s : State) (code : Nat) : Int :=
  let k := code / 256
  let f := code % 256
  let t (k : Nat) : Int := sgn 16 (s.get (F.HKP_TTAB_TEMP k))
  fdiv (t k * (256 - f : Nat) + t (k + 1) * f + 128) 256

/-- One housekeeping channel of a round (R460, R461): its value, and EVINVAL where a thermistor turns invalid. -/
def State.readChannel (s : State) (i code : Nat) : State :=
  let c := s.correctCode code
  let s' := s.set (F.HKP_VAL_CODE i) c
  match s.channelKind i with
  | 1 => s'.set (F.HKP_VAL_VALID i) 1
  | 2 =>
    if s.get F.HKP_THVALID_MIN ≤ c ∧ c ≤ s.get F.HKP_THVALID_MAX then
      (s'.set (F.HKP_VAL_VALID i) 1).set (F.HKP_VAL_TEMP i) (unsgn 16 (s.thermistor c))
    else
      let s' := if s.on (F.HKP_VAL_VALID i) then s'.hkpFlag 5 else s'
      s'.set (F.HKP_VAL_VALID i) 0
  | _ => s'.set (F.HKP_VAL_VALID i) 0

/-- One physical on-die sensor of a round, its offset trim applied (R460, R462, Table 21.5). -/
def State.readSensor (s : State) (p : Nat) (raw : Nat → Int) : State :=
  let t := raw p + sgn 8 (s.trimByte (120 + p))
  let s' := s.set (F.HKP_DIE_TEMP p) (satI 16 t)
  if -880 ≤ t ∧ t ≤ 2400 then s'.set (F.HKP_DIE_VALID p) 1
  else
    let s' := if s.on (F.HKP_DIE_VALID p) then s'.hkpFlag 5 else s'
    s'.set (F.HKP_DIE_VALID p) 0

/-- +2,047 °C, the value of an invalid reading (R462). -/
def hottest : Int := 2047 * 16

/-- The thermistor channels. -/
def State.thermistors (s : State) : List Nat := (List.range 16).filter fun i => s.channelKind i == 2

/-- The value of a thermistor for the thresholds (R462). -/
def State.thermValue (s : State) (i : Nat) : Int :=
  if s.on (F.HKP_VAL_VALID i) then sgn 16 (s.get (F.HKP_VAL_TEMP i)) else hottest

/-- The greatest of a list, if it has any. -/
def maxOf : List Int → Option Int
  | [] => none
  | a :: l => some (l.foldl max a)

/-- TJ (R462). -/
def State.tj (s : State) : Int := (maxOf s.validSensors).getD hottest

/-- TLB (R462); none without a thermistor channel. -/
def State.tlb (s : State) : Option Int := maxOf (s.thermistors.map s.thermValue)

/-- HKP.TJ and HKP.TLB; the lowest reading where none is valid, and TLB where no thermistor is, are free values. -/
def State.showTemps (s : State) : State :=
  let s := s.set F.HKP_TJ_MAX (unsgn 16 s.tj)
  let s := match maxOf (s.validSensors.map fun x => -x) with
    | some m => s.set F.HKP_TJ_MIN (unsgn 16 (-m))
    | none => let (w, s) := s.draw; s.set F.HKP_TJ_MIN (w.toNat % 65536)
  match s.tlb with
  | some t => s.set F.HKP_TLB_MAX (unsgn 16 t)
  | none => if s.isTile then let (w, s) := s.draw; s.set F.HKP_TLB_MAX (w.toNat % 65536) else s

/-! ### Rules of a round -/

/-- HYST of every row of Table 19.1. -/
def State.hyst (s : State) : Int := s.get F.HKP_LTRIP_HYST

/-- A limit field, a temperature. -/
def State.limit (s : State) (f : Fld) : Int := sgn 16 (s.get f)

/-- R465: the derating gain; the rate of rise is that of the round before, since it is evaluated after the gain (R460). -/
def State.derate (s : State) : State :=
  let lim := s.limit F.HKP_LLIM_DERATE
  let g := s.hkp.derate
  let hot := s.hkp.thermRise || (match s.tlb with | some t => decide (lim ≤ t) | none => false)
  let cool := match s.tlb with | some t => decide (t < lim - s.hyst) | none => true
  let g' := if hot then max 4194304 (g - 839) else if cool then min 8388608 (g + 839) else g
  let s := (s.modHkp fun h => { h with derate := g' }).set F.HKP_DERATE_GAIN (g' / 256)
  let d := decide (g' < 8388608)
  if d = s.on F.HKP_STAT_DERATING then s else (s.set F.HKP_STAT_DERATING (b2n d)).hkpFlag 2

/-- R464: a value now and 100 rounds earlier, both valid, show a fast rise. -/
def State.fast (s : State) (now : Option Int) (hist : List (Option Int)) : Bool :=
  match now, hist.getD 99 none with
  | some a, some b => decide (b + s.get F.HKP_RISE_LIMIT < a)
  | _, _ => false

/-- The history of the sources with a new value each. -/
def pushHist (hist : List (List (Option Int))) (now : List (Option Int)) : List (List (Option Int)) :=
  now.zipIdx.map fun e => (e.1 :: hist.getD e.2 []).take 100

/-- R464: the rate of rise. -/
def State.riseCheck (s : State) : State :=
  let th := (List.range 16).map fun i =>
    if s.channelKind i = 2 ∧ s.on (F.HKP_VAL_VALID i) then some (sgn 16 (s.get (F.HKP_VAL_TEMP i))) else none
  let di := (List.range 8).map s.sensorNow
  let tf := th.zipIdx.any fun e => s.fast e.1 (s.hkp.thermHist.getD e.2 [])
  let df := di.zipIdx.any fun e => s.fast e.1 (s.hkp.dieHist.getD e.2 [])
  let calm := if tf || df then 0 else s.hkp.calmRounds + 1
  let s := s.modHkp fun h => { h with
    thermHist := pushHist h.thermHist th, dieHist := pushHist h.dieHist di, calmRounds := calm, thermRise := tf }
  if tf || df then (s.set F.HKP_STAT_RISE 1).hkpFlag 3
  else if 100 ≤ calm then s.set F.HKP_STAT_RISE 0 else s

/-- R463: one warning, with its flag on a change. -/
def State.warn (s : State) (f : Fld) (ev : Nat) (value : Option Int) (lim : Int) : State :=
  let w := match value with
    | some t => if lim ≤ t then true else if t < lim - s.hyst then false else s.on f
    | none => false
  if w = s.on f then s else (s.set f (b2n w)).hkpFlag ev

/-- R463, R467: the warnings, and whether a TRIPCLR would be accepted. -/
def State.thresholds (s : State) : State :=
  let jw := s.limit F.HKP_JLIM_WARN
  let lw := s.limit F.HKP_LLIM_WARN
  let s := (s.warn F.HKP_STAT_JWARN 0 (some s.tj) jw).warn F.HKP_STAT_LWARN 1 s.tlb lw
  let cool := decide (s.tj < jw - s.hyst) && (match s.tlb with | some t => decide (t < lw - s.hyst) | none => true)
    && decide (2 ≤ s.validSensors.length)
  s.modHkp fun h => { h with cool := cool }

/-- R466: the data of a trip record, its count apart (Table 21.4). -/
def State.tripRecord (s : State) : List Byte :=
  s.recordTime true ++ leBytes 2 (unsgn 16 s.tj) ++ leBytes 2 (s.get F.HKP_TLB_MAX)
    ++ [BitVec.ofNat 8 (s.get F.HKP_STAT_TRIPSRC)]

/-- R466, R468: the part trips; with a record held its count rises, else one is formed. -/
def State.tripNow (s : State) (board : Bool) : State :=
  let s := (s.set F.HKP_STAT_TRIP 1).set F.HKP_STAT_TRIPSRC (b2n board)
  let s := (s.hkpFlag 4).count F.HKP_TRIPCNT_COUNT 1
  let s := if s.isTile then s.tripDark.railsOff else s
  if s.aon.trip.isSome then { s with aon := { s.aon with tripCount := min 255 (s.aon.tripCount + 1) } }
  else ({ s with aon := { s.aon with trip := some s.tripRecord, tripCount := 0 } }).set F.HKP_STAT_RECPEND 1

/-- R466: a trip falls where a temperature reaches its trip value, or stands there while no trip is latched (DEDUCED). -/
def State.tripCheck (s : State) : State :=
  let j := decide (s.limit F.HKP_JLIM_TRIP ≤ s.tj)
  let l := match s.tlb with | some t => s.isTile && decide (s.limit F.HKP_LTRIP_TRIP ≤ t) | none => false
  let was := s.hkp.tripping
  let latched := s.on F.HKP_STAT_TRIP
  let s := s.modHkp fun h => { h with tripping := (j, l) }
  if (j && !(was.1 && latched)) || (l && !(was.2 && latched)) then s.tripNow (!j) else s

/-- R468: a held trip record is written at the first round with a proven temperature and a credit. -/
def State.writeTrip (s : State) : State :=
  match s.aon.trip with
  | none => s
  | some l =>
    if s.asr.jobs.any fun j => j.owner == .trip then s
    else match s.nvCheck 1 with
      | 0 => ((s.nvPay 1).set F.HKP_STAT_NOPROOF 0).journalRecord .trip 1 [l ++ [BitVec.ofNat 8 s.aon.tripCount]]
      | 2 => if s.on F.HKP_STAT_NOPROOF then s else (s.set F.HKP_STAT_NOPROOF 1).hkpFlag 6
      | _ => s

/-- R462, R515: an armed sensor substitution takes effect at the start of a round. -/
def State.replaceSensor (s : State) (k : Nat) : State :=
  let s := s.disarm 6 k
  match [8, 9].find? fun p => (List.range 8).all fun i => s.physSensor i != p with
  | none => s
  | some p =>
    let s := s.wr .HKP_DIEMAP (setBits (s.rd .HKP_DIEMAP) (4 * k) 4 p)
    s.substituted fun m => if p = 8 then { m with sens8 := k } else { m with sens9 := k }

/-- R462: the sensors armed are replaced at the start of a round, in the order of arming. -/
def State.replaceSensors (s : State) : State :=
  ((s.asr.armed.filter fun e => e.1 == 6).map (·.2)).foldl (fun s k => s.replaceSensor k) s

/-- Spare sensors not in use and not spoken for. -/
def State.spareSensors (s : State) : Nat :=
  ([8, 9].countP fun p => (List.range 8).all fun i => s.physSensor i != p) - s.asr.armed.countP fun e => e.1 == 6

/-- R89, R462: SPARE class 0x06. -/
def State.spareSensor (s : State) (k : Nat) : Nat × State := if s.spareSensors = 0 then (2, s) else (0, s.arm 6 k)

/-- R515: a repair map record held until the temperature is proven is written. -/
def State.writeHeldMap (s : State) : State :=
  match s.aon.mapHeld with
  | some m =>
    if s.tempProven then
      (({ s with aon := { s.aon with mapHeld := none } }).set F.ASR_STAT_MAPHELD 0).queueMap m
    else s
  | none => s

/-- R460: one slow round: trims and sensor substitutions first, then the readings, then the rules in their order. -/
def State.slowRound (s : State) (codes : Nat → Nat) (sensors : Nat → Int) : State :=
  let s := (s.applyTrims 5).replaceSensors
  let s := s.set F.HKP_ROUNDS_COUNT (s.get F.HKP_ROUNDS_COUNT + 1)
  let s := (List.range 32).foldl (fun s i => s.readChannel i (codes i)) s
  let s := (List.range 10).foldl (fun s p => s.readSensor p sensors) s
  let s := s.showTemps.derate.riseCheck.thresholds.tripCheck
  (s.writeTrip.writeHeldMap).updateCold s.validSensors

/-- SLOW_ROUND with the codes of HK0 to HK31 and the readings of physical sensors 0 to 9, in 1/16 °C (R460). -/
def execSlowRound (codes : List (BitVec 12)) (sensors : List (BitVec 16)) (s : State) : Host.Outcome State Fault Refusal :=
  .next (s.slowRound (fun i => (codes.getD i 0).toNat) fun p => (sensors.getD p 0).toInt)

/-- R467: a write of 1 to HKP.CTL.TRIPCLR. -/
def State.clearTrip (s : State) : State := if s.hkp.cool then s.set F.HKP_STAT_TRIP 0 else s

/-- TRIPCLR (R467). -/
def execTripclr (s : State) : Host.Outcome State Fault Refusal := .next s.clearTrip

/-! ### Colour sensors -/

/-- COLOUR_SENSOR_START: integration starts (R470). -/
def execColourSensorStart (s : State) : Host.Outcome State Fault Refusal :=
  .next (if s.isTile then s.emit (.i2c 0 [0xA1]) else s)

/-- R470: the ten bytes of a sensor; one that does not acknowledge gives none. -/
def State.takeSensor (s : State) (k : Nat) (l : List Byte) : State :=
  let valid := decide (l.length = 10) && bit (leAt l 0 1) 0 && !(bit (leAt l 0 1) 1)
  let s := (List.range 3).foldl
    (fun s c =>
      let s := if l.length = 10 then s.set (F.HKP_CSM_COUNT k c) (beAt l (1 + 3 * c) 3) else s
      s.set (F.HKP_CSM_VALID k c) (b2n valid)) s
  if valid then s else s.hkpFlag 9

/-- COLOUR_SENSOR_STOP: integration stops, and the enabled sensors are read in order; `reads` holds what each sensor
answers (R470). -/
def execColourSensorStop (reads : List (List Byte)) (s : State) : Host.Outcome State Fault Refusal :=
  .next (if s.isTile then
      (List.range 8).foldl
        (fun s k => if s.on (F.HKP_CSADDR_EN k) then
            (s.emit (.i2c (s.get (F.HKP_CSADDR_ADDR k)) [0x10])).takeSensor k (reads.getD k [])
          else s) (s.emit (.i2c 0 [0xA2]))
    else s)

/-! ### I²C commands and the ID memory -/

/-- LEN of an I²C command (HKP.I2CCMD). -/
def i2cLen (cmd : Word) : Nat := let n := getBits cmd 16 3; if 1 ≤ n ∧ n ≤ 4 then n else 4

/-- R471: a write of HKP.I2CCMD; with GO one transaction starts, unless one is in progress. -/
def State.i2cWrite (s : State) (value : Word) : State :=
  let s := s.wr .HKP_I2CCMD (value &&& 0x0007FFFF)
  if value.getLsbD 31 && !(s.on F.HKP_I2CSTAT_BUSY) then
    let s := (s.modHkp fun h => { h with i2c := some value }).set F.HKP_I2CSTAT_BUSY 1
    let reg : Byte := value.extractLsb' 8 8
    let data := if value.getLsbD 7 then [] else leBytes (i2cLen value) (s.rd .HKP_I2CDATA).toNat
    s.emit (.i2c (getBits value 0 7) (reg :: data))
  else s

/-- I2C_COMMAND: a write of HKP.I2CCMD (R471). -/
def execI2cCommand (value : Word) (s : State) : Host.Outcome State Fault Refusal := .next (s.i2cWrite value)

/-- R469, R471: a command ends with a RESULT, and EVI2C is set. -/
def State.i2cEnd (s : State) (res : Nat) : State :=
  let s := (s.modHkp fun h => { h with i2c := none }).set F.HKP_I2CSTAT_BUSY 0
  (s.set F.HKP_I2CSTAT_RESULT res).hkpFlag 8

/-- I2C_COMMAND_END: the target acknowledged or not; a read gives `data` (R471). -/
def execI2cCommandEnd (ack : Bool) (data : Word) (s : State) : Host.Outcome State Fault Refusal :=
  .next (match s.hkp.i2c with
    | none => s
    | some cmd =>
      let s := if ack && cmd.getLsbD 7 then s.wr .HKP_I2CDATA (data &&& fieldMask 0 (8 * i2cLen cmd)) else s
      s.i2cEnd (if ack then 0 else 1))

/-- R472: the ID read ends. -/
def State.idEnd (s : State) (valid : Bool) : State :=
  ((s.modHkp fun h => { h with idReading := false }).set F.HKP_STAT_IDVALID (b2n valid)).hkpFlag 10

/-- I2C_BUS_STUCK: a line has been low for 25 ms; what is in progress ends, and the bus is freed (R469). -/
def execI2cBusStuck (s : State) : Host.Outcome State Fault Refusal :=
  .next (
    let s := if s.hkp.i2c.isSome then s.i2cEnd 2 else s
    let s := if s.hkp.idReading then s.idEnd false else s
    s.emit .i2cRecover)

/-- R472: a write of 1 to HKP.CTL.IDREAD; nothing in sender role, nor while one is in progress. -/
def State.idRead (s : State) : State :=
  if !s.isTile || s.hkp.idReading then s
  else (s.modHkp fun h => { h with idReading := true }).emit (.i2c (s.get F.HKP_I2CCFG_IDADDR) [0])

/-- IDREAD (R472). -/
def execIdread (s : State) : Host.Outcome State Fault Refusal := .next s.idRead

/-- IDREAD_END: the 32 bytes read, or fewer where the memory does not answer (R472). -/
def execIdreadEnd (bytes : List Byte) (s : State) : Host.Outcome State Fault Refusal :=
  .next (
    if !s.hkp.idReading then s
    else if bytes.length = 32 then
      let s := (List.range 8).foldl (fun s k => s.wr (.HKP_ID k) (BitVec.ofNat 32 (leAt bytes (4 * k) 4))) s
      s.idEnd (decide (beAt bytes 28 4 = (crc32 (bytes.take 28)).toNat))
    else s.idEnd false)

end Sys2Proof.Machine
end

