-- ==== Sys2Proof/Machine/Boot.lean ====
section
/-! DEFINITION. Resets (R531, R539, R540, R560), the end of the start sequence with trims and repair map (R505, R516), boot
sources (R474, R475), manifests and their checks (R479, R480, R482) and life-cycle transitions (R492, R493). -/

namespace Sys2Proof.Machine

/-! ### Resets -/

/-- R502: a reset tears the page that is being programmed: its content is undefined. -/
def State.tearWrite (s : State) : State :=
  match s.asr.jobs with
  | [] => s
  | j :: _ => match j.pages with
    | [] => s
    | (page, _) :: _ =>
      let d := s.drawBytes 32
      d.2.nvStore page d.1

/-- R493: a fuse transition that a reset cuts off leaves the old state or the new one. -/
def State.cutFuses (s : State) : State :=
  match s.bot.lcs with
  | some (dest, km, kh) =>
    let (w, s) := s.draw
    if dest ≠ 3 ∧ w.getLsbD 0 then
      { s with fuse := if dest = 1 then ⟨1, kh, km⟩ else { s.fuse with lifeCycle := dest } }
    else s
  | none => s

/-- The part's random source gives BOT.NONCE a new value (R493). -/
def State.newNonce (s : State) : State := let (w, s) := s.draw; s.wr .BOT_NONCE w

/-- The fields that straps and fuses give (Table 22.24). -/
def State.showStraps (s : State) : State :=
  let s := s.set F.BOT_STAT_ROLE (b2n s.aon.role)
  let s := s.set F.BOT_STAT_BOOTSEL s.aon.bootsel
  let s := if s.isTile then s.set F.TIM_CFG_SRC 2 else s
  let s := s.set F.BOT_LCS_STATE s.fuse.lifeCycle
  let s := s.setBytesBE .ASR_DEVID (beBytes 16 Config.deviceId.toNat)
  let s := s.setBytesBE .ASR_HKHASH s.fuse.hostKey
  let s := s.setBytesBE .ASR_MKHASH s.fuse.manifestKey
  s.setBytesBE .ASR_DEVPUB (publicKey Config.deviceKey)

/-- R531: a full reset: every word and every unit at its reset state, but for the journal, the fuses and the always-on
domain; the balls outside and what waits there go on. A part that had come to its core rail starts it again. -/
def State.fullReset (s : State) (f : AonState → AonState) : State :=
  let s := s.tearWrite.cutFuses
  let a := f s.aon
  let s : State := { State.reset with
    nvj := s.nvj, fuse := s.fuse, aon := { a with phase := min 5 a.phase }, sd := ⟨s.sd.card, none⟩, tap := s.tap,
    sent := s.sent, freeCtr := s.freeCtr, pending := s.pending }
  let s := (s.set F.HKP_SDSTAT_PRESENT (b2n s.sd.card.isSome)).showStart
  s.showStraps.newNonce

/-- RESET_N_RISE samples ROLE and BOOTSEL (R474, R536). -/
def execResetNRise (role : Bool) (bootsel : BitVec 2) (s : State) : Host.Outcome State Fault Refusal :=
  .next (if s.aon.resetLow then
      s.fullReset fun a => { a with resetLow := false, role := role, bootsel := bootsel.toNat }
    else s)

/-- RESET_N_LOW: a low of 2 µs or more (R539). -/
def execResetNLow (s : State) : Host.Outcome State Fault Refusal :=
  .next (s.fullReset fun a => { a with resetLow := true })

/-- VDD_AON_LOW: the supply of the always-on domain is lost, and with it what that domain holds (R540, R468, R515). -/
def execVddAonLow (s : State) : Host.Outcome State Fault Refusal :=
  .next (s.fullReset fun a => { a with
    supply := false, phase := 0, oscdly := 0, freq := 0, ringCount := 0, tries := 0, trip := none, tripCount := 0,
    mapHeld := none })

/-- CORE_UNDERVOLTAGE_RESET: VDD_CORE below 0.55 V for 1 µs, outside the soft-start (R428, R429). -/
def execCoreUndervoltageReset (s : State) : Host.Outcome State Fault Refusal :=
  .next (if s.aon.phase = 6 then s.fullReset id else s)

/-- POWER_RETURN: power has been good for 10 ms after the end of Midnight (R443). -/
def execPowerReturn (s : State) : Host.Outcome State Fault Refusal :=
  .next (if s.midnight && s.on F.PWR_STAT_HALTOK then s.fullReset id else s)

/-- How a write of BOT.RESET arrived, from who sent it; a core's has no sender. -/
def resetPath : Option Who → ResetPath
  | none => .core
  | some .qspi => .host .qspi
  | some (.channel ..) => .host .channel
  | some .master => .wall

/-- R560: a write of BOT.RESET; only 0xA5 has an effect. -/
def State.askReset (s : State) (value : Word) (path : ResetPath) : State :=
  if getBits value 0 8 = 0xA5 then
    s.modBot fun b => { b with
      reset := some path, resetAt := s.tim.ticks, resetAfter := some (s.hst.responses.length + 1) }
  else s

/-- BOT_RESET (R560). -/
def execBotReset (value : Word) (who : Option Who) (s : State) : Host.Outcome State Fault Refusal :=
  .next (s.askReset value (resetPath who))

/-- R560: the moment of a reset has come. On QSPI GET has clocked out the header of the response, or 100 ms have passed;
the moments at which a message, a cell or a store leaves are those of SOFT_RESET itself (log entry 79). -/
def State.resetDue (s : State) : Bool :=
  match s.bot.reset with
  | none => false
  | some (.host .qspi) => s.bot.resetAfter == some 0 || decide (s.bot.resetAt + usTicks 100000 ≤ s.tim.ticks)
  | some _ => true

/-- SOFT_RESET: 10 µs after the moment that R560 gives for the way in which the write arrived. -/
def execSoftReset (s : State) : Host.Outcome State Fault Refusal := .next (if s.resetDue then s.fullReset id else s)

/-! ### The repair map at step 3 -/

/-- R516: retired lanes of the record. Their LAN.STAT words keep their reset values, since Table 22.24 does not name
them. -/
def State.applyLanes (s : State) (m : RepairMap) : State :=
  (List.range 9).foldl
    (fun s p => (List.range (laneCount p)).foldl
      (fun s i =>
        if bit m.lanes (laneMapBit p i) && s.lanePowered (laneOf p i) then
          match s.lowestSpare p with
          | some sp => s.retireBits p i sp
          | none => s.set (F.LAN_PSUB_RETIRED p) (s.get (F.LAN_PSUB_RETIRED p) ||| 2 ^ i)
        else s) s) s

/-- R516, R107: the Hour core of the record. -/
def State.applyCore (s : State) (core : Nat) : State :=
  if 7 ≤ core ∨ (5 ≤ core) then s
  else
    let s := if core < 4 then s.set ⟨.HRC_MAP, 3 * core, 3⟩ 4 else s
    let s := (s.set ⟨.HRC_MAP, 12, 3⟩ 7).set F.HRC_MAP_SPAREUSED 1
    (s.set (F.HRC_STAT_STATE 4) coreRetired).set (F.HRC_STAT_HCAUSE 4) 4

/-- A lane of an engine replaced in its lane map. -/
def State.applyEngineLane (s : State) (r : Reg) (k : Nat) : State :=
  if k < 8 then s.wr r (setBits (s.rd r) (4 * k) 4 8) else s

/-- A logical sensor moved to a spare. -/
def State.applySensor (s : State) (k p : Nat) : State :=
  if k < 8 then s.wr .HKP_DIEMAP (setBits (s.rd .HKP_DIEMAP) (4 * k) 4 p) else s

/-- R516: the repair map record in force is applied. -/
def State.applyMap (s : State) : State :=
  match copyInForce (s.recordSeq 22) (s.recordSeq 23) with
  | none => s.set F.ASR_STAT_MAPBAD 1
  | some j =>
    let l := s.nvPage (22 + j)
    let m := RepairMap.ofPage l
    let s := (s.modAsr fun a => { a with map := m, rows := m.rows }).set F.ASR_MAPSTAT_SEQ (leAt l 0 2)
    let s := (s.applyLanes m).applyCore m.core
    let s := (s.applySensor m.sens8 8).applySensor m.sens9 9
    if s.isTile then
      let s := (s.applyEngineLane .CMP_LANEMAP m.cmpLane).applyEngineLane .COR_LANEMAP m.corLane
      m.cells.foldl (fun s p => s.set (F.LMP_PSTAT_SPARECELL p) 1) s
    else s

/-! ### Boot sources -/

/-- The boot source in force (Tables 20.1 and 20.13): 0 QSPI push, 1 SD card, 2 chain boot, 3 host channel push. -/
def State.bootSource (s : State) : Nat :=
  let b := s.get F.BOT_STAT_BOOTSEL
  let b := if s.isTile then (if b = 3 then 2 else b) else (if b = 2 then 0 else b)
  if s.lifeCycle = 0 ∧ (b = 1 ∨ b = 2) then 0 else b

/-- The boot ROM waits for a pushed image (R45); on the network it brings up quad 0 at 25GBASE-R (R44). -/
def State.waitPush (s : State) : State :=
  let s := (s.setStage 2).set F.HST_STAT_BOOTWAIT 1
  if s.bootNet then s.set (F.ING_QCFG_MODE 0) 2 else s

/-- R474, R559: what the boot ROM does first. -/
def State.startBoot (s : State) : State :=
  if s.retired then s.setStage 2
  else match s.bootSource with
    | 1 => s
    | 2 =>
      let s := (List.range 6).foldl (fun s i => s.setLaneEnable (8 + i) true) s
      ((s.setPortEnable 0 true).setPortEnable 1 true).waitPush
    | _ => s.waitPush

/-- What the always-on domain still holds is shown (R468, R515). -/
def State.showHeldRecords (s : State) : State :=
  let s := s.set F.HKP_STAT_RECPEND (b2n s.aon.trip.isSome)
  s.set F.ASR_STAT_MAPHELD (b2n s.aon.mapHeld.isSome)

/-- CORE_SOFT_START_DONE: VDD_CORE has settled; trims, repair map and the journal's fields are in place, and HC0 begins
(R428, R505, R516, Table 20.7 step 3). -/
def execCoreSoftStartDone (s : State) : Host.Outcome State Fault Refusal :=
  .next (
    if s.aon.phase ≠ 5 ∨ s.aon.resetLow then s
    else
      let s := (s.modAon fun a => { a with phase := 6 }).setCode 0x32
      let s := (s.loadTrims.applyMap.showFloors).showHeldRecords
      let s := s.set F.ASR_STAT_FLOORBAD (b2n (copyInForce (s.floorSeq 0) (s.floorSeq 1)).isNone)
      let s := s.set F.ASR_NVSTAT_SPARES ((s.nvj.spares.map fun e => 2 ^ (e.2 - 120)).foldl (· ||| ·) 0)
      s.startBoot)

/-! ### Manifests -/

/-- Bytes [a, a + n) of a list are 0. -/
def zeros (l : List Byte) (a n : Nat) : Bool := (slice l a n).all (· == 0)

/-- Entry `e` of a manifest (Table 20.4). -/
def entry (m : List Byte) (e : Nat) : List Byte := slice m (64 + 80 * e) 80

/-- COUNT of a manifest. -/
def entryCount (m : List Byte) : Nat := leAt m 10 1

/-- The entries of a manifest. -/
def entries (m : List Byte) : List (List Byte) := (List.range (entryCount m)).map (entry m)

/-- An entry meets Table 20.4. -/
def entryOk (e : List Byte) : Bool :=
  decide (1 ≤ leAt e 0 1 ∧ leAt e 0 1 ≤ 15) && decide (1 ≤ leAt e 1 1 ∧ leAt e 1 1 ≤ 3)
    && decide (leAt e 4 4 % 512 = 0 ∧ 4096 ≤ leAt e 4 4)
    && decide (4 ≤ leAt e 8 4 ∧ leAt e 8 4 ≤ 16777216 ∧ leAt e 8 4 % 4 = 0)
    && zeros e 12 4 && decide (leAt e 16 8 < 2 ^ 40) && zeros e 72 8

/-- An entry is a stage-2 loader that names a role: bit 0 sender, bit 1 tile. -/
def stage2For (role : Nat) (e : List Byte) : Bool := decide (leAt e 0 1 = 1) && bit (leAt e 1 1) role

/-- Check 1 of Table 20.6. -/
def check1 (m : List Byte) : Bool :=
  decide (leAt m 0 4 = 0x464D4C56 ∧ leAt m 4 2 = 1 ∧ leAt m 8 2 = 0x9128 ∧ 1 ≤ entryCount m ∧ entryCount m ≤ 32)
    && zeros m 11 53 && (entries m).all entryOk
    && ((List.range 32).all fun e => decide (e < entryCount m) || zeros (entry m e) 0 80)
    && zeros m 2816 1280
    && [0, 1].all fun r => decide ((entries m).countP (stage2For r) ≤ 1)

/-- SHA-384 of the signed bytes of a manifest. -/
def manifestDigest (m : List Byte) : List Byte := sha384 (m.take 2720)

/-- A key and a signature pass checks 2 and 3 of Table 20.6; the result is 0 or the failing ERR. -/
def State.keyCheck (s : State) (digest key sig : List Byte) : Nat :=
  if sha384 key ≠ s.fuse.manifestKey then 4
  else if p384.verify key digest sig then 0 else 5

/-- The versions of a manifest by class (Tables 20.3 and 20.5). -/
def versions (m : List Byte) : List (Nat × Nat) := (0, leAt m 6 2) :: (entries m).map fun e => (leAt e 0 1, leAt e 2 2)

/-- The stage-2 entry for the part's own role. -/
def State.stage2 (s : State) (m : List Byte) : Option (List Byte) := (entries m).find? (stage2For (b2n s.isTile))

/-- Common memory holds a range. -/
def inCommon (a n : Nat) : Bool := decide (0xE100000000 ≤ a ∧ a + n ≤ 0xE100200000)

/-- Checks 1 to 5 of Table 20.6: 0, or the ERR of the first that fails; BLANK skips 2 to 4. -/
def State.check5 (s : State) (m : List Byte) : Nat :=
  if !(check1 m) then 3
  else
    let keys := if s.lifeCycle = 0 then 0 else s.keyCheck (manifestDigest m) (slice m 2624 96) (slice m 2720 96)
    if keys ≠ 0 then keys
    else if s.lifeCycle ≠ 0 && (versions m).any fun v => decide (v.2 < s.floors.getD v.1 0) then 6
    else match s.stage2 m with
      | none => 7
      | some e => if inCommon (leAt e 16 8) (leAt e 8 4) then 0 else 7

/-- R479: a manifest that passed boots: it lies at common memory offset 0, the words show it, and HC0 starts the stage-2
loader in supervisor mode. -/
def State.bootManifest (s : State) (m : List Byte) (load : Nat) (slot pushed : Bool) (marker : Nat) : State :=
  let s := s.store 0xE100000000 m
  let s := s.wr .BOT_MVER (BitVec.ofNat 32 (leAt m 6 2 + b2n slot * 2 ^ 16 + b2n pushed * 2 ^ 17))
  let s := s.wr .BOT_MDIG (BitVec.ofNat 32 (beAt (manifestDigest m) 0 4))
  let s := (s.wr .BOT_MARKER (BitVec.ofNat 32 marker)).set F.BOT_STAT_ERR 0
  let s := s.modBot fun b => { b with booted := versions m, step5 := some s.tim.ticks }
  let s := s.setCore 0 { s.core 0 with pc := BitVec.ofNat 40 load, sup := true, wait := none, haltReq := false }
  (s.set (F.HRC_STAT_STATE 0) coreRunning).setStage 4

/-- R480: a boot that failed waits for a push, with ERR. -/
def State.bootFailed (s : State) (err : Nat) : State := (s.set F.BOT_STAT_ERR err).waitPush

/-- R45, R475: the bundle is handed to the boot ROM, which begins the checks; in RETIRED nothing is (R559). -/
def State.handOver (s : State) : State :=
  if s.on F.HST_STAT_BOOTWAIT && !s.retired then (s.set F.HST_STAT_BOOTWAIT 0).setStage 3 else s

/-- PUSHGO (R475). -/
def execPushgo (s : State) : Host.Outcome State Fault Refusal := .next s.handOver

/-- Check 6 of Table 20.6, then the boot: 0 and the booted state, or the ERR. -/
def State.check6 (s : State) (m image : List Byte) (slot pushed : Bool) (marker : Nat) : Nat × State :=
  match s.stage2 m with
  | none => (7, s)
  | some e =>
    if sha384 image = slice e 24 48 then (0, s.bootManifest m (leAt e 16 8) slot pushed marker) else (8, s)

/-- R479: the checks of a pushed bundle. -/
def State.checkPush (s : State) : State :=
  let m := s.bytes 0xE100000000 4096
  match s.check5 m with
  | 0 => match s.stage2 m with
    | none => s.bootFailed 7
    | some e => match s.check6 m (s.bytes (leAt e 16 8) (leAt e 8 4)) false true 0 with
      | (0, s') => s'
      | (r, s') => s'.bootFailed r
  | r => s.bootFailed r

/-! ### The update medium -/

/-- Bytes of a card from a byte address on. -/
def cardRead (c : SdCard) (a n : Nat) : List Byte := Memory.readBytes c.data a n

/-- The first partition entry of type 0xDA of a card's MBR: first sector and sectors. The MBR's layout is the common one
(PRESUMED, log entry 11). -/
def cardPartition (c : SdCard) : Option (Nat × Nat) :=
  if leAt (cardRead c 510 2) 0 2 ≠ 0xAA55 then none
  else
    (List.range 4).findSome? fun i =>
      let e := cardRead c (446 + 16 * i) 16
      if leAt e 4 1 = 0xDA then some (leAt e 8 4, leAt e 12 4) else none

/-- R477: a marker copy that is valid: SEQ, ACTIVE and SLOTSEC. -/
def markerOf (l : List Byte) (len : Nat) : Option (Nat × Nat × Nat) :=
  let sec := leAt l 12 4
  if leAt l 0 4 = 0x56554C56 ∧ leAt l 508 4 = (crc32 (l.take 508)).toNat ∧ leAt l 8 1 ≤ 1 ∧ zeros l 9 3 ∧ zeros l 16 492
      ∧ sec % 8 = 0 ∧ 16 ≤ sec ∧ 64 + 2 * sec ≤ len then
    some (leAt l 4 4, leAt l 8 1, sec)
  else none

/-- R477: the marker that the boot ROM takes. -/
def cardMarker (c : SdCard) (part len : Nat) : Option (Nat × Nat × Nat) :=
  match markerOf (cardRead c (part * 512) 512) len, markerOf (cardRead c ((part + 1) * 512) 512) len with
  | none, x => x
  | x, none => x
  | some a, some b => if a.1 < b.1 then some b else some a

/-- R479: one slot of the medium is checked in full; its image is placed where its entry names. -/
def State.checkSlot' (s : State) (c : SdCard) (base : Nat) (slot : Bool) (marker : Nat) : Nat × State :=
  let m := cardRead c base 4096
  match s.check5 m with
  | 0 => match s.stage2 m with
    | none => (7, s)
    | some e =>
      let image := cardRead c (base + leAt e 4 4) (leAt e 8 4)
      (s.store (leAt e 16 8) image).check6 m image slot false marker
  | r => (r, s)

/-- R480: the marked slot, and the other one where it fails. -/
def State.checkMedium (s : State) (c : SdCard) (part len : Nat) : State :=
  match cardMarker c part len with
  | none => s.bootFailed 2
  | some (seq, active, sec) =>
    let base (k : Nat) := (part + 64 + k * sec) * 512
    match s.checkSlot' c (base active) (active == 1) seq with
    | (0, s') => s'
    | (r, _) => match s.checkSlot' c (base (1 - active)) (active == 0) seq with
      | (0, s') => s'.set F.BOT_STAT_FALLBACK 1
      | _ => s.bootFailed r

/-- BOOT_CHECK: the boot ROM checks the bundle handed over, or the medium; `readError` says that the medium could not be
read (R479, R480). -/
def execBootCheck (readError : Bool) (s : State) : Host.Outcome State Fault Refusal :=
  .next (
    if s.stage = 3 then s.checkPush
    else if s.stage = 1 ∧ s.aon.phase = 6 ∧ s.bootSource = 1 then
      let s := s.setStage 3
      if readError then s.bootFailed 9
      else match s.sd.card with
        | none => s.bootFailed 1
        | some c => match cardPartition c with
          | none => s.bootFailed 1
          | some (part, len) => s.checkMedium c part len
    else s)

/-- R482: a write of BOT.MCHK; ignored while a check is in progress. -/
def State.manifestCheck (s : State) (value : Word) : State :=
  if s.bot.mchk.isSome then s
  else
    let r := s.check5 (s.bytes (0xE100000000 + getBits value 0 9 * 4096) 4096)
    (s.modBot fun b => { b with mchk := some r }).set F.BOT_MCHKSTAT_BUSY 1

/-- MCHK (R482). -/
def execMchk (value : Word) (s : State) : Host.Outcome State Fault Refusal := .next (s.manifestCheck value)

/-- MANIFEST_CHECK_END (R482). -/
def execManifestCheckEnd (s : State) : Host.Outcome State Fault Refusal :=
  .next (match s.bot.mchk with
    | none => s
    | some r =>
      let s := (s.modBot fun b => { b with mchk := none }).set F.BOT_MCHKSTAT_RESULT r
      ((s.set F.BOT_MCHKSTAT_BUSY 0).set F.BOT_MCHKSTAT_VALID 1).flag .BOT_EV 3)

/-! ### Life-cycle transitions -/

/-- A request ends at once with a RESULT (R492). -/
def State.lcsEnd (s : State) (res : Nat) : State := (s.set F.BOT_LCS_RESULT res).flag .BOT_EV 5

/-- A transition begins (R493). -/
def State.lcsBegin (s : State) (dest : Nat) (mk hk : List Byte) : State :=
  (s.modBot fun b => { b with lcs := some (dest, mk, hk) }).set F.BOT_LCS_BUSY 1

/-- R493: what a fuse transition needs beside its state: KEY 0xC5 and a proven temperature. -/
def State.fuseRefusal (s : State) (key : Byte) : Option Nat :=
  if key ≠ 0xC5 then some 3 else if !s.tempProven then some 5 else none

/-- The bytes of common memory from the offset that BOT.LCTL.ADDR names. -/
def State.lctlBytes (s : State) (addr : Nat) (n : Nat) : List Byte := s.bytes (0xE100000000 + addr * 32) n

/-- R492: PROVISION; the 16 bytes after the hashes must be 0, which counts as a failed token (DEDUCED). -/
def State.provision (s : State) (addr : Nat) (key : Byte) : State :=
  if s.on F.BOT_LCS_BUSY then s.lcsEnd 6
  else if s.lifeCycle ≠ 0 then s.lcsEnd 2
  else match s.fuseRefusal key with
    | some r => s.lcsEnd r
    | none =>
      let l := s.lctlBytes addr 96
      if zeros l 80 16 then s.lcsBegin 1 (l.take 48) (slice l 48 32) else s.lcsEnd 4

/-- R492: SHIP. -/
def State.ship (s : State) (key : Byte) : State :=
  if s.on F.BOT_LCS_BUSY then s.lcsEnd 6
  else if s.lifeCycle ≠ 1 then s.lcsEnd 2
  else match s.fuseRefusal key with
    | some r => s.lcsEnd r
    | none => s.lcsBegin 2 [] []

/-- R492, R493: SERVICE with the token at ADDR; BOT.NONCE takes a new value after each request. The nonce in the token is
read as little-endian (DEDUCED). -/
def State.service (s : State) (addr : Nat) : State :=
  if s.on F.BOT_LCS_BUSY then s.newNonce.lcsEnd 6
  else
    let l := s.lctlBytes addr 224
    let ok := decide (l.take 16 = s.devidBytes ∧ leAt l 16 4 = (s.rd .BOT_NONCE).toNat) && zeros l 20 12
      && s.keyCheck (sha384 (l.take 128)) (slice l 32 96) (slice l 128 96) == 0
    let s := s.newNonce
    if s.lifeCycle ≠ 2 then s.lcsEnd 2 else if ok then s.lcsBegin 3 [] [] else s.lcsEnd 4

/-- R492: RETIRE. -/
def State.retire' (s : State) (key : Byte) : State :=
  if s.on F.BOT_LCS_BUSY then s.lcsEnd 6
  else if s.lifeCycle = 0 ∨ s.lifeCycle = 4 then s.lcsEnd 2
  else match s.fuseRefusal key with
    | some r => s.lcsEnd r
    | none => s.lcsBegin 4 [] []

/-- PROVISION (R492). -/
def execProvision (addr : BitVec 16) (key : Byte) (s : State) : Host.Outcome State Fault Refusal :=
  .next (s.provision addr.toNat key)

/-- SHIP (R492). -/
def execShip (key : Byte) (s : State) : Host.Outcome State Fault Refusal := .next (s.ship key)

/-- SERVICE (R492). -/
def execService (addr : BitVec 16) (_key : Byte) (s : State) : Host.Outcome State Fault Refusal := .next (s.service addr.toNat)

/-- RETIRE (R492). -/
def execRetire (key : Byte) (s : State) : Host.Outcome State Fault Refusal := .next (s.retire' key)

/-- R492: a write of BOT.LCTL. An OP of none of Table 20.14 does nothing. -/
def State.writeLctl (s : State) (value : Word) : State :=
  let addr := getBits value 8 16
  let key : Byte := value.extractLsb' 24 8
  match getBits value 0 3 with
  | 1 => s.provision addr key
  | 2 => s.ship key
  | 3 => s.service addr
  | 4 => s.retire' key
  | _ => s

/-- LCS_TRANSITION_END: the state changes and is fused, SERVICE apart, and a life-cycle record goes to the journal (R493,
Table 21.4). -/
def execLcsTransitionEnd (s : State) : Host.Outcome State Fault Refusal :=
  .next (match s.bot.lcs with
    | none => s
    | some (dest, mk, hk) =>
      let old := s.lifeCycle
      let s := (s.modBot fun b => { b with lcs := none }).set F.BOT_LCS_BUSY 0
      let s := s.set F.BOT_LCS_STATE dest
      let s :=
        if dest = 1 then ({ s with fuse := ⟨1, hk, mk⟩ }.setBytesBE .ASR_HKHASH hk).setBytesBE .ASR_MKHASH mk
        else if dest = 3 then s
        else { s with fuse := { s.fuse with lifeCycle := dest } }
      let s := s.lcsEnd 1
      if s.tempProven then
        s.journalRecord .lifeCycle 3 [s.recordTime false ++ [BitVec.ofNat 8 old, BitVec.ofNat 8 dest]]
      else s.nvRefused 2)

end Sys2Proof.Machine
end

