-- ==== Sys2Proof/Machine/LinkWords.lean ====
section
/-! DEFINITION. Writes of the wall link's words that act (R162, R163, R175, R186, R192), and the cells that the part
sends of itself at fixed intervals (R186, R203, R204, R385). -/

namespace Sys2Proof.Machine

/-- R7, R162, R163: a write of LNK.PCTL[p].EN. -/
def State.writePctl (s : State) (p : Nat) (en : Bool) : State :=
  if s.alive (.LNK_PCTL p) then s.setPortEnable p en else s

/-- PORT_ENABLE (R163). -/
def execPortEnable (p : Fin 9) (s : State) : Host.Outcome State Fault Refusal := .next (s.writePctl p true)

/-- PORT_DISABLE (R162). -/
def execPortDisable (p : Fin 9) (s : State) : Host.Outcome State Fault Refusal := .next (s.writePctl p false)

/-- A write of 1 to LNK.ANNOUNCE[c].AEND (R186). -/
def execAnnounceAend (c : Fin 8) (s : State) : Host.Outcome State Fault Refusal := .next (s.announceOn c false)

/-- A write of 1 to LNK.ANNOUNCE[c].BEND (R186). -/
def execAnnounceBend (c : Fin 8) (s : State) : Host.Outcome State Fault Refusal := .next (s.announceOn c true)

/-- ANNOUNCE_REPEAT: an end that announces repeats its ANNOUNCE every 1 ms while it is up (R186). -/
def execAnnounceRepeat (p : Fin 9) (s : State) : Host.Outcome State Fault Refusal :=
  .next (if !s.isTile && decide (p.val < 8) && (s.port p).announcing then s.sendAnnounce p else s)

/-- R186: a write of LNK.EPOCH[c]; a lower value is ignored. -/
def State.writeEpoch (s : State) (c : Nat) (value : Word) : State :=
  if s.alive (.LNK_EPOCH c) && decide ((s.rd (.LNK_EPOCH c)).toNat ≤ value.toNat) then s.wr (.LNK_EPOCH c) value else s

/-- EPOCH_WRITE (R186). -/
def execEpochWrite (c : Fin 8) (value : Word) (s : State) : Host.Outcome State Fault Refusal := .next (s.writeEpoch c value)

/-- R175: a write of LNK.GENKEY[c][e] sets the entry and clears its GENDONE and GENMISS. -/
def State.writeGenkey (s : State) (c e : Nat) (value : Word) : State :=
  if s.alive (.LNK_GENKEY c e) then
    (List.range 4).foldl (fun s j => (s.wr (.LNK_GENDONE c e j) 0).wr (.LNK_GENMISS c e j) 0)
      (s.wr (.LNK_GENKEY c e) (value &&& 0x8FFFFFFF))
  else s

/-- GENKEY_WRITE (R175). -/
def execGenkeyWrite (c : Fin 8) (e : Fin 16) (value : Word) (s : State) : Host.Outcome State Fault Refusal :=
  .next (s.writeGenkey c e value)

/-- R192: a write of LNK.CFG, ignored while any chain port is not down; a port may then come up (R163). -/
def State.writeLnkCfg (s : State) (value : Word) : State :=
  if (List.range 8).all fun p => s.get (F.LNK_PSTAT_STATE p) == 0 then
    (List.range 8).foldl (fun s p => if s.alive (.LNK_PCTL p) then s.checkPort p else s)
      (s.wr .LNK_CFG (value &&& 0x7F))
  else s

/-- LNK_CFG_WRITE (R192). -/
def execLnkCfgWrite (value : Word) (s : State) : Host.Outcome State Fault Refusal := .next (s.writeLnkCfg value)

/-- R203, R385, R393: the epoch of the TIME cell that a port sends, and its FROMB; none for a port that sends none. -/
def State.timeEpoch (s : State) (p : Nat) : Option (BitVec 32 × Bool) :=
  if s.isTile || !(s.up p) || !(s.on F.TIM_STAT_VALID) then none
  else if p = 8 then (if s.paired ∧ s.role = roleLead then some (s.rd .MIR_PEPOCH, false) else none)
  else if (s.port p).announcing && !(s.silent p) then some (s.endEpoch p, s.isBEnd p)
  else none

/-- TIME_CELL_SEND: TIM.TCPER has passed on a port (R203, R385). -/
def execTimeCellSend (p : Fin 9) (s : State) : Host.Outcome State Fault Refusal :=
  .next (match s.timeEpoch p with
    | some (e, b) =>
      let seq := (s.port p).timeSeq
      (s.modPort p fun t => { t with timeSeq := seq + 1 }).sendVc0 p (.time e b seq)
    | none => s)

/-- LDREQ_SEND: TIM.LDPER has passed on a port that is up (R204). -/
def execLdreqSend (p : Fin 9) (s : State) : Host.Outcome State Fault Refusal :=
  .next (if s.up p then
      let seq := (s.port p).ldSeq
      (s.modPort p fun t => { t with ldSeq := seq + 1 }).sendVc0 p (.ldreq seq)
    else s)

end Sys2Proof.Machine
end

