-- ==== Sys2Proof/Machine/SrfCmd.lean ====
section
/-! DEFINITION. The codec commands (R258 to R260, R269, Tables 10.3 to 10.5) and the release fence (R267, R268). -/

namespace Sys2Proof.Machine

/-- A command ends with a RESULT of Table 10.5 (R258). -/
def State.srfEnd (s : State) (res : Nat) : State :=
  ((s.set F.SRF_CMDSTAT_BUSY 0).set F.SRF_CMDSTAT_RESULT res).flag .SRF_EV 4

/-- A handle descriptor (Table 10.3), or none where it breaks that table. -/
def handleOf (l : List Byte) : Option Handle :=
  let ctrl := leAt l 0 4
  let size := leAt l 4 4
  let org := leAt l 8 4
  let win := leAt l 12 4
  let base := leAt l 16 8
  let bw := bits size 0 11
  let bh := bits size 16 11
  let wx := bits org 0 11
  let wy := bits org 16 11
  let ww := bits win 0 11
  let wh := bits win 16 11
  let clear (x : Nat) : Bool := decide (bits x 11 5 = 0 ∧ bits x 27 5 = 0)
  if ctrl < 128 ∧ 1 ≤ ctrl % 8 ∧ clear size ∧ clear org ∧ clear win ∧ 1 ≤ bw ∧ bw ≤ 1024 ∧ 1 ≤ bh ∧ bh ≤ 1024
      ∧ bw * bh ≤ 524288 ∧ 1 ≤ ww ∧ 1 ≤ wh ∧ wx + ww ≤ bw ∧ wy + wh ≤ bh ∧ base < 2 ^ 40 ∧ base % 4096 = 0
      ∧ leAt l 24 8 = 0 then
    some {
      fmt := ctrl % 8, reclaim := bit ctrl 3, bw := bw, bh := bh, wx := wx, wy := wy, ww := ww, wh := wh, base := base
      slots := List.replicate (bits ctrl 4 3 + 1) Slot.empty, opened := none, used := none, done := none
      retracted := none, noslot := [], era := 0 }
  else none

/-- R257: on the sender the window is the whole surface. -/
def Handle.whole (x : Handle) : Bool := decide (x.wx = 0 ∧ x.wy = 0 ∧ x.ww = x.bw ∧ x.wh = x.bh)

/-- The slots of every handle of the chip. -/
def State.slotTotal (s : State) : Nat := s.srf.foldl (fun a e => a + e.2.slots.length) 0

/-- CREATE: RESULT and the state (R258, R259). A descriptor that cannot be read counts as one that breaks Table 10.3
(DEDUCED). -/
def State.srfCreate (s : State) (h : Nat) : State :=
  if (s.handle h).isSome then s.srfEnd 2
  else
    let a := s.get F.SRF_HTBASE_ADDR * 4096 + 32 * h
    if !(inDram a) then s.srfEnd 3
    else match s.load a 32 with
      | (.ok l, s) => match handleOf l with
        | some x =>
          if (!s.isTile && !x.whole) || decide (s.dramBytes < x.base + x.slots.length * x.slotSize) then s.srfEnd 3
          else if 16384 < s.slotTotal + x.slots.length then s.srfEnd 7
          else (s.setHandle h x).srfEnd 0
        | none => s.srfEnd 3
      | (_, s) => s.srfEnd 3

/-- DESTROY (R258). -/
def State.srfDestroy (s : State) (h : Nat) : State :=
  match s.handle h with
  | some x => if x.slots.all fun e => e.st == 0 then (s.dropHandle h).srfEnd 0 else s.srfEnd 2
  | none => s.srfEnd 2

/-- OPEN: a generation of a raw handle in a free slot; a compressed handle's state does not allow it (DEDUCED). -/
def State.srfOpen (s : State) (h gen : Nat) : State :=
  if s.isTile then s.srfEnd 6
  else match s.handle h with
    | none => s.srfEnd 2
    | some x =>
      let late := match x.opened with
        | some o => genLater gen o
        | none => true
      if !(fmtRaw x.fmt) || !late then s.srfEnd 2
      else match s.slotFor h x with
        | none => s.srfEnd 4
        | some j => ((s.openSlot h x j gen).set F.SRF_CMDSTAT_SLOT j).srfEnd 0

/-- SEAL: the slot enters SEALING. -/
def State.srfSeal (s : State) (h gen : Nat) : State :=
  if s.isTile then s.srfEnd 6
  else match s.handle h with
    | none => s.srfEnd 2
    | some x => match x.find gen with
      | none => s.srfEnd 2
      | some j =>
        if fmtRaw x.fmt ∧ (x.slots.getD j Slot.empty).st = 1 then
          (s.setHandle h (x.modSlot j fun e => { e with st := 2 })).srfEnd 0
        else s.srfEnd 2

/-- R261: SEAL has written the check code of every block, and the slot is COMPLETE; its blocks can now be sent. A block
that cannot be read gets a free code. -/
def State.sealDone (s : State) (h gen : Nat) : State :=
  match s.handle h with
  | none => s
  | some x => match x.find gen with
    | none => s
    | some j =>
      if (x.slots.getD j Slot.empty).st ≠ 2 then s
      else
        let s := (List.range x.blocks).foldl
          (fun s i =>
            let (code, s) := match s.blockData x j i with
              | some l => (leBytes 2 (crc16 l).toNat, s)
              | none => s.drawBytes 2
            (s.store (x.codeAddr j i) code).setPresent x j i) s
        s.setHandle h { x.modSlot j (fun e => { e with st := 3 }) with
          used := newestUsed x.used (gen, (x.slots.getD j Slot.empty).era) }

/-- R269: an ingest frame in an abandoned generation counts as dropped, and its further packets are discarded. -/
def State.abandonFrame (s : State) (h gen : Nat) : State :=
  (List.range 16).foldl
    (fun s i =>
      let st := (s.ing.streams[i]?).getD Stream.reset
      if s.get (F.ING_SHANDLE_HANDLE i) = h ∧ (st.frames.any fun f => f.held && f.gen == gen) then
        let fs := st.frames.map fun f => if f.gen = gen then { f with held := false } else f
        ({ s with ing := { s.ing with streams := s.ing.streams.setIfInBounds i { st with frames := fs } } }).count
          (F.ING_SFRDROP_COUNT i) 1
      else s) s

/-- FREE (R269). -/
def State.srfFree (s : State) (h gen : Nat) : State :=
  match s.handle h with
  | none => s.srfEnd 2
  | some x => match x.find gen with
    | none => s.srfEnd 5
    | some j =>
      let e := x.slots.getD j Slot.empty
      match e.st with
      | 1 => let s := s.freeSlot h x j; (if s.isTile then s else s.abandonFrame h gen).srfEnd 0
      | 2 => (s.freeSlot h x j).srfEnd 0
      | 5 => s.srfEnd 5
      | st =>
        if (s.isTile && st == 3) || !(s.genInUse h x e) then (s.freeSlot h x j).srfEnd 0
        else (s.setHandle h (x.modSlot j fun e => { e with st := 5 })).srfEnd 1

/-- QUERY: the handle's state as one snapshot (Table 10.4). An absent handle gives STATE and changes nothing else
(R259). -/
def State.srfQuery (s : State) (h : Nat) : State :=
  match s.handle h with
  | none => s.srfEnd 2
  | some x =>
    let slot (j : Nat) : Slot := x.slots.getD j Slot.empty
    let s := s.wr .SRF_QSTAT (BitVec.ofNat 32 (1 + 2 * x.fmt + 16 * (x.slots.length - 1) + 128 * b2n x.reclaim))
    let s := s.wr .SRF_QSLOTS (BitVec.ofNat 32 ((List.range 8).foldl (fun a j => a + (slot j).st * 8 ^ j) 0))
    let s := (List.range 4).foldl
      (fun s j => s.wr (.SRF_QGEN j) (BitVec.ofNat 32 ((slot (2 * j)).gen + (slot (2 * j + 1)).gen * 65536))) s
    let s := s.wr .SRF_QNEWEST (BitVec.ofNat 32 (x.opened.getD 0 + ((x.used.map (·.1)).getD 0) * 65536))
    let s := s.wr .SRF_QRETR (BitVec.ofNat 32 (x.retracted.getD 0 + b2n x.retracted.isSome * 65536))
    s.srfEnd 0

/-- FORGET (R260). -/
def State.srfForget (s : State) (h : Nat) : State :=
  match s.handle h with
  | none => s.srfEnd 2
  | some x => if x.slots.any fun e => e.st == 1 || e.st == 2 then s.srfEnd 2 else (s.setHandle h x.forget).srfEnd 0

/-- R258: the effect and the result of a command. -/
def State.srfDecide (s : State) (value : Word) : State :=
  let h := getBits value 4 12
  let gen := getBits value 16 16
  match getBits value 0 4 with
  | 1 => s.srfCreate h
  | 2 => s.srfDestroy h
  | 3 => s.srfOpen h gen
  | 4 => s.srfSeal h gen
  | 5 => s.srfFree h gen
  | 6 => s.srfQuery h
  | 7 => s.srfForget h
  | _ => s.srfEnd 8

/-- R258: the command in hand ends, once its time has come. -/
def State.codecTick (s : State) : State :=
  match s.codec with
  | some (v, t) => if t ≤ s.tim.ticks then { s with codec := none }.srfDecide v else s
  | none => s

/-- R258: a write to SRF.CMD begins a command, which ends after a free number of ticks within 2 µs; while one is in hand
the write is ignored and sets LOST. -/
def State.srfCommand (s : State) (value : Word) : State :=
  if s.codec.isSome then s.set F.SRF_CMDSTAT_LOST 1
  else
    let (f, s) := s.draw
    ({ s with codec := some (value, s.tim.ticks + f.toNat % 313) }.set F.SRF_CMDSTAT_BUSY 1).codecTick

/-- A command given from its write to its end, which is ignored while another is in hand (R258). -/
def State.codecRun (s : State) (f : State → State) : State :=
  if s.codec.isSome then s.set F.SRF_CMDSTAT_LOST 1 else f s

/-- CREATE (R259). -/
def execCreate (h : BitVec 12) (s : State) : Host.Outcome State Fault Refusal :=
  .next (s.codecRun fun s => s.srfCreate h.toNat)

/-- DESTROY (R258). -/
def execDestroy (h : BitVec 12) (s : State) : Host.Outcome State Fault Refusal :=
  .next (s.codecRun fun s => s.srfDestroy h.toNat)

/-- OPEN (R258). -/
def execOpenGen (h : BitVec 12) (gen : BitVec 16) (s : State) : Host.Outcome State Fault Refusal :=
  .next (s.codecRun fun s => s.srfOpen h.toNat gen.toNat)

/-- SEAL (R261). -/
def execSeal (h : BitVec 12) (gen : BitVec 16) (s : State) : Host.Outcome State Fault Refusal :=
  .next (s.codecRun fun s => s.srfSeal h.toNat gen.toNat)

/-- SEAL_COMPLETE (R261). -/
def execSealComplete (h : BitVec 12) (gen : BitVec 16) (s : State) : Host.Outcome State Fault Refusal :=
  .next (s.sealDone h.toNat gen.toNat)

/-- FREE (R269). -/
def execFreeGen (h : BitVec 12) (gen : BitVec 16) (s : State) : Host.Outcome State Fault Refusal :=
  .next (s.codecRun fun s => s.srfFree h.toNat gen.toNat)

/-- QUERY (R258). -/
def execQuery (h : BitVec 12) (s : State) : Host.Outcome State Fault Refusal :=
  .next (s.codecRun fun s => s.srfQuery h.toNat)

/-- FORGET (R260). -/
def execForget (h : BitVec 12) (s : State) : Host.Outcome State Fault Refusal :=
  .next (s.codecRun fun s => s.srfForget h.toNat)

/-- CODEC_BADOP: a write of SRF.CMD whose OP is none of Table 10.4; a word that holds one of them is that command. -/
def execCodecBadop (value : Word) (s : State) : Host.Outcome State Fault Refusal := 
  .next (s.codecRun fun s => s.srfDecide value)

/-- RELEASE_FENCE: the fence of a RELEASING generation passes where nothing uses it any more (R267, R268). -/
def execReleaseFence (h : BitVec 12) (gen : BitVec 16) (s : State) : Host.Outcome State Fault Refusal :=
  .next (match s.handle h.toNat with
    | none => s
    | some x => match x.find gen.toNat with
      | none => s
      | some j =>
        let e := x.slots.getD j Slot.empty
        if e.st = 5 ∧ s.fencePassed h.toNat x e then s.freeSlot h.toNat x j else s)

end Sys2Proof.Machine
end

