-- ==== Sys2Proof/Machine/IngOps.lean ====
section
/-! DEFINITION. The streams of the source ingest: packets and their pixels (R225 to R228), frames and generations (R231 to
R241), enabling, loss and disabling (R229, R230, R242, R243), IGMP membership (R224) and the quad mode (R219). The packet
formats are those of the standards that chapter 9 names (PRESUMED, log entry 6). -/

namespace Sys2Proof.Machine

/-- A stream. -/
def State.stream (s : State) (i : Nat) : Stream := (s.ing.streams[i]?).getD Stream.reset

/-- A stream changed. -/
def State.modStream (s : State) (i : Nat) (f : Stream → Stream) : State :=
  { s with ing := { s.ing with streams := s.ing.streams.setIfInBounds i (f (s.stream i)) } }

/-- A stream is enabled. -/
def State.streamOn (s : State) (i : Nat) : Bool := s.on (F.ING_SCTL_EN i)

/-- The width and height of a stream. -/
def State.streamW (s : State) (i : Nat) : Nat := s.get (F.ING_SSIZE_W i)
def State.streamH (s : State) (i : Nat) : Nat := s.get (F.ING_SSIZE_H i)

/-! ### IGMP (R224) -/

/-- An IPv4 multicast address. -/
def isGroup (ip : Word) : Bool := ip.toNat / 2 ^ 28 == 14

/-- The PTP receiver runs on a source port (R245). -/
def State.ptpPort (s : State) (i : Nat) : Bool :=
  s.on F.ING_PTPCFG_EN && !s.isTile
    && (s.get F.ING_PTPCFG_PORTA == i || (s.on F.ING_PTPCFG_BEN && s.get F.ING_PTPCFG_PORTB == i))

/-- The groups of PTP: 224.0.1.129 and 224.0.0.107 (R220). -/
def ptpGroups : List Word := [0xE0000181, 0xE000006B]

/-- The group of an enabled flow of a stream on a port. -/
def State.flowGroup (s : State) (i k : Nat) (b : Bool) : Option Word :=
  let (en, port, ip) :=
    if b then (s.on (F.ING_SPORTB_EN k), s.get (F.ING_SPORTB_SRCPORT k), s.rd (.ING_SDSTB k))
    else (s.on (F.ING_SPORTA_EN k), s.get (F.ING_SPORTA_SRCPORT k), s.rd (.ING_SDSTA k))
  if s.streamOn k && en && port == i && isGroup ip then some ip else none

/-- The groups that a port has joined. -/
def State.groups (s : State) (i : Nat) : List Word :=
  let flows := (List.range 16).filterMap (fun k => s.flowGroup i k false) ++ (List.range 16).filterMap fun k => s.flowGroup i k true
  (flows ++ if s.ptpPort i then ptpGroups else []).eraseDups

/-- An IGMP message in a packet with the router alert option. -/
def State.sendIgmp (s : State) (i : Nat) (dst : Word) (m : Nat → List Byte) : State :=
  if s.maySend i then
    let body := m (inetSum (m 0))
    s.sendEther i (etherFrame (groupMac dst) (s.portMac i) 0x0800 (ipPacket 2 1 (s.portIp i) dst [0x94, 4, 0, 0] body))
  else s

/-- An IGMPv3 report with one record for each group; 2 is IS_EXCLUDE, 3 TO_INCLUDE, 4 TO_EXCLUDE, each without sources. -/
def State.igmpV3 (s : State) (i type : Nat) (gs : List Word) : State :=
  if gs.isEmpty then s
  else s.sendIgmp i 0xE0000016 fun c =>
    [0x22, 0] ++ beBytes 2 c ++ [0, 0] ++ beBytes 2 gs.length
      ++ (gs.map fun g => [BitVec.ofNat 8 type, 0, 0, 0] ++ beBytes 4 g.toNat).flatten

/-- R224: the reports and leaves that a change of enabled flows brings. -/
def State.igmpChange (before after : State) : State :=
  (List.range 8).foldl
    (fun s i =>
      let old := before.groups i
      let new := after.groups i
      (s.igmpV3 i 3 (old.filter fun g => !new.contains g)).igmpV3 i 4 (new.filter fun g => !old.contains g)) after

/-- IGMP_REPORT: the answer to a query falls due on a port (R224). -/
def execIgmpReport (i : Fin 8) (s : State) : Host.Outcome State Fault Refusal :=
  .next (
    if s.isTile then s
    else if s.ing.igmpV2.contains i.val then
      (s.groups i).foldl (fun s g => s.sendIgmp i g fun c => [0x16, 0] ++ beBytes 2 c ++ beBytes 4 g.toNat) s
    else s.igmpV3 i 2 (s.groups i))

/-! ### Packets -/

/-- A sample row data header of ST 2110-20, with its Length, and the octets present. -/
structure RowData where
  len : Nat
  row : Nat
  offset : Nat
  field : Bool
  data : List Byte
deriving DecidableEq, Repr

/-- An RTP packet of a stream: payload type, extended sequence number, timestamp and row data. -/
structure RtpPacket where
  pt : Nat
  seq : Nat
  stamp : Nat
  rows : List RowData
deriving DecidableEq, Repr

/-- At most `fuel` row data headers: length, row, field and offset of each. -/
def rowHeaders : Nat → List Byte → Option (List (Nat × Nat × Nat) × List Byte)
  | 0, _ => none
  | fuel + 1, l =>
    if l.length < 6 then none
    else
      let h := (beAt l 0 2, beAt l 2 2, beAt l 4 2)
      let rest := l.drop 6
      if bit h.2.2 15 then (rowHeaders fuel rest).map fun (hs, d) => (h :: hs, d) else some ([h], rest)

/-- The octets of each header. -/
def rowData : List (Nat × Nat × Nat) → List Byte → List RowData
  | [], _ => []
  | (n, r, o) :: hs, d => ⟨n, r % 32768, o % 32768, bit r 15, d.take n⟩ :: rowData hs (d.drop n)

/-- An RTP packet with an ST 2110-20 payload of 1 to 3 row data headers. -/
def parseRtp (l : List Byte) : Option RtpPacket :=
  let b0 := leAt l 0 1
  let n := 12 + 4 * (b0 % 16)
  let n := if bit b0 4 then n + 4 + 4 * beAt l (n + 2) 2 else n
  if l.length < n + 2 ∨ b0 / 64 ≠ 2 then none
  else (rowHeaders 3 (l.drop (n + 2))).map fun (hs, d) =>
    ⟨leAt l 1 1 % 128, beAt l n 2 * 65536 + beAt l 2 2, beAt l 4 4, rowData hs d⟩

/-- Bits of a sample. -/
def State.depth (s : State) (i : Nat) : Nat := 8 + 2 * s.get (F.ING_SFMT_DEPTH i)

/-- The octets and pixels of a pgroup. -/
def State.pgroup (s : State) (i : Nat) : Nat × Nat :=
  match s.get (F.ING_SFMT_SAMP i), s.get (F.ING_SFMT_DEPTH i) with
  | 0, d => (4 + d, 2)
  | _, 0 => (3, 1)
  | _, 1 => (15, 4)
  | _, _ => (9, 2)

/-- The pixels of a row data segment at their places. -/
def State.segment (s : State) (i : Nat) (r : RowData) : List StagedPixel :=
  let (bytes, px) := s.pgroup i
  let d := s.depth i
  let scale := 2 ^ (12 - d)
  let base := r.row * s.streamW i + r.offset
  ((chunks bytes r.data.length r.data).filter fun c => c.length == bytes).zipIdx.flatMap fun (c, g) =>
    let v := (fieldsOf d (bytes * 8 / d) (beNat c)).map (· * scale)
    let at' (k : Nat) : Nat := v.getD k 0
    (List.range px).map fun k =>
      let place := base + g * px + k
      match s.get (F.ING_SFMT_SAMP i) with
      | 0 => if k = 0 then ⟨place, at' 1, at' 0, at' 2⟩ else ⟨place, at' 3, 0, 0⟩
      | 1 => ⟨place, at' (3 * k + 1), at' (3 * k), at' (3 * k + 2)⟩
      | _ => ⟨place, at' (3 * k), at' (3 * k + 1), at' (3 * k + 2)⟩

/-- R225: the packet is accepted on a flow of the stream. -/
def State.rtpOk (s : State) (i : Nat) (p : RtpPacket) : Bool :=
  let pt := s.get (F.ING_SCTL_PT i)
  let (bytes, px) := s.pgroup i
  (pt == 0 || p.pt == pt) && p.rows.all fun r =>
    !r.field && decide (r.row < s.streamH i ∧ r.offset + (r.len + bytes - 1) / bytes * px ≤ s.streamW i)

/-! ### Pixels (R235, R236) -/

/-- The rows of an affine transform: the factors of the three samples and the constant, in units of 2^−16. -/
abbrev Affine := Int × Int × Int × Int

/-- R235: the transforms for R, G and B of a colorimetry and range. -/
def matrixOf (rgb bt2020 full : Bool) : List Affine :=
  let k : Int := 65536 * 1023
  let (yo, ys, cs) : Int × Nat × Nat := if full then (0, 4095, 4095) else (256, 3504, 3584)
  let a := rdiv k ys
  let c0 := rdiv (-k * yo) ys
  if rgb then [(a, 0, 0, c0), (0, a, 0, c0), (0, 0, a, c0)]
  else
    let (kr, kb) : Nat × Nat := if bt2020 then (2627, 593) else (2126, 722)
    let kg : Nat := 10000 - kr - kb
    let r : Nat := 2 * (10000 - kr)
    let b : Nat := 2 * (10000 - kb)
    let gb : Nat := 2 * kb * (10000 - kb)
    let gr : Nat := 2 * kr * (10000 - kr)
    let chroma (n : Nat) : Int := rdiv (k * n) (10000 * cs)
    let const (n : Nat) : Int := rdiv (-k * (yo * 10000 * cs + 2048 * n * ys)) (ys * 10000 * cs)
    let g (n : Nat) : Int := rdiv (-k * n) (10000 * kg * cs)
    let gConst := rdiv (-k * (yo * 10000 * kg * cs - 2048 * (gb + gr : Nat) * ys)) (ys * 10000 * kg * cs)
    [(a, 0, chroma r, const r), (a, g gb, g gr, gConst), (a, chroma b, 0, const b)]

/-- One output of a transform: rounded once, halves upward, and clamped. -/
def affine (t : Affine) (x y z : Nat) : Nat := (clampI 0 1023 (rdiv (t.1 * x + t.2.1 * y + t.2.2.1 * z + t.2.2.2) 65536)).toNat

/-- The staged pixel at a place. -/
def OpenFrame.staged (f : OpenFrame) (place : Nat) : Option StagedPixel := f.pixels.find? fun p => p.place == place

/-- A chroma sample of a pixel that is missing from an incomplete frame: a free value. -/
def State.freeChroma (s : State) (place k : Nat) : Nat := (Config.freeWord (s.freeCtr + 2 * place + k)).toNat % 4096

/-- R236: the chroma samples of a staged pixel in 4:2:2. -/
def State.chroma422 (s : State) (w : Nat) (f : OpenFrame) (x y : Nat) : Nat × Nat :=
  let at' (x : Nat) : Nat × Nat := match f.staged (y * w + x) with
    | some p => (p.c1, p.c2)
    | none => (s.freeChroma (y * w + x) 0, s.freeChroma (y * w + x) 1)
  if x % 2 = 0 then at' x
  else if x + 1 < w then (((at' (x - 1)).1 + (at' (x + 1)).1 + 1) / 2, ((at' (x - 1)).2 + (at' (x + 1)).2 + 1) / 2)
  else at' (x - 1)

/-- R235, R240: the RGB pixel of a frame at (x, y); a missing one takes ING.SFILL. -/
def State.framePixel (s : State) (i : Nat) (f : OpenFrame) (x y : Nat) : Pixel :=
  let w := s.streamW i
  match f.staged (y * w + x) with
  | none => ⟨s.get (F.ING_SFILL_R i), s.get (F.ING_SFILL_G i), s.get (F.ING_SFILL_B i), 1023⟩
  | some p =>
    let samp := s.get (F.ING_SFMT_SAMP i)
    let (c1, c2) := if samp = 0 then s.chroma422 w f x y else (p.c1, p.c2)
    match (matrixOf (samp == 2) (s.on (F.ING_SFMT_COLOR i)) (s.on (F.ING_SFMT_RANGE i))).map fun t => affine t p.c0 c1 c2 with
    | [r, g, b] => ⟨r, g, b, 1023⟩
    | _ => ⟨0, 0, 0, 1023⟩

/-- Block rows of a stream's frames. -/
def State.blockRows (s : State) (i : Nat) : Nat := (s.streamH i + 7) / 8

/-- Every pixel of a block row is present (R238). -/
def State.rowPresent (s : State) (i : Nat) (f : OpenFrame) (row : Nat) : Bool :=
  let w := s.streamW i
  (List.range 8).all fun k =>
    let y := 8 * row + k
    decide (s.streamH i ≤ y) || (List.range w).all fun x => (f.staged (y * w + x)).isSome

/-- Every pixel has arrived (R234). -/
def State.frameFull (s : State) (i : Nat) (f : OpenFrame) : Bool := decide (f.pixels.length = s.streamW i * s.streamH i)

/-! ### The codec (R238 to R241) -/

/-- ING.SROWS: the newest open generation (Table 9.6). -/
def State.showRows (s : State) (i : Nat) : State :=
  match (s.stream i).frames.reverse.find? (·.held) with
  | some f => ((s.set (F.ING_SROWS_ROWS i) f.rows.length).set (F.ING_SROWS_GEN i) f.gen).set (F.ING_SROWS_OPEN i) 1
  | none => s.set (F.ING_SROWS_OPEN i) 0

/-- A frame of a stream changed, named by its tick count. -/
def State.modFrame (s : State) (i m : Nat) (g : OpenFrame → OpenFrame) : State :=
  s.modStream i fun t => { t with frames := t.frames.map fun f => if f.m = m then g f else f }

/-- A frame removed. -/
def State.dropFrame (s : State) (i m : Nat) : State :=
  (s.modStream i fun t => { t with frames := t.frames.filter fun f => f.m != m }).showRows i

/-- The codec's slot of a frame's generation, while it is OPEN. -/
def State.frameSlot (s : State) (i : Nat) (f : OpenFrame) : Option (Handle × Nat) :=
  match s.handle (s.get (F.ING_SHANDLE_HANDLE i)) with
  | some x => match x.find f.gen with
    | some j => if f.held ∧ (x.slots.getD j Slot.empty).st = 1 then some (x, j) else none
    | none => none
  | none => none

/-- R236, R251: a block row of a frame is converted, encoded and written. -/
def State.writeRow (s : State) (i : Nat) (f : OpenFrame) (row : Nat) : State :=
  match s.frameSlot i f with
  | none => s
  | some (x, j) =>
    let w := s.streamW i
    let h := s.streamH i
    let px (bx k : Nat) : Pixel := s.framePixel i f (min (w - 1) (8 * bx + k % 8)) (min (h - 1) (8 * row + k / 8))
    let blocks := (List.range x.bw).map fun bx => encodeBlock x.fmt ((List.range 64).map (px bx))
    let s' := (blocks.zipIdx).foldl (fun s e => s.putBlock x j (row * x.ww + e.2) e.1) s
    let s' := if f.inc then { s' with freeCtr := s'.freeCtr + 2 * w * h } else s'
    (s'.modFrame i f.m fun f => { f with rows := f.rows ++ [row] }).showRows i

/-- R229: the codec accepts a handle for a stream. -/
def State.codecAccepts (s : State) (i : Nat) : Bool :=
  let h := s.get (F.ING_SHANDLE_HANDLE i)
  match s.handle h with
  | some x => decide (1 ≤ x.fmt ∧ x.fmt ≤ 5 ∧ x.bw = (s.streamW i + 7) / 8 ∧ x.bh = (s.streamH i + 7) / 8)
      && (List.range 16).all fun k => k == i || !(s.streamOn k) || s.get (F.ING_SHANDLE_HANDLE k) != h
  | none => false

/-- R238: generation `gen` is opened through the codec; false where it cannot be. -/
def State.codecOpen (s : State) (i gen : Nat) : Bool × State :=
  let h := s.get (F.ING_SHANDLE_HANDLE i)
  match s.handle h with
  | some x =>
    let late := match x.opened with
      | some o => genLater gen o
      | none => true
    if s.codecAccepts i && late then
      match s.slotFor h x with
      | some j => (true, s.openSlot h x j gen)
      | none => (false, s)
    else (false, s)
  | none => (false, s)

/-- A frame counts in ING.SFRDROP. -/
def State.frameLost (s : State) (i : Nat) : State := s.count (F.ING_SFRDROP_COUNT i) 1

/-- A frame is abandoned through the codec (R240, R243). -/
def State.abandon (s : State) (i : Nat) (f : OpenFrame) : State :=
  let s := match s.frameSlot i f with
    | some (x, j) => s.freeSlot (s.get (F.ING_SHANDLE_HANDLE i)) x j
    | none => s
  (if f.held then s.frameLost i else s).dropFrame i f.m

/-- Sequence numbers missing from both paths up to the highest of a closing frame (R228). -/
def State.countLost (s : State) (i : Nat) (f : OpenFrame) : State :=
  let t := s.stream i
  match t.lostFrom with
  | none => s
  | some a =>
    let n := (f.hiSeq + 1 + 2 ^ 32 - a) % 2 ^ 32
    if 2 ^ 31 ≤ n then s
    else
      let due (q : Nat) : Bool := decide ((q + 2 ^ 32 - a) % 2 ^ 32 < n)
      (s.count (F.ING_SLOSTPKT_COUNT i) (n - t.received.countP due)).modStream i fun t => { t with
        received := t.received.filter fun q => !due q, lostFrom := some ((f.hiSeq + 1) % 2 ^ 32) }

/-- R234, R240: a frame closes. -/
def State.closeFrame (s : State) (i : Nat) (f : OpenFrame) : State :=
  let s := s.countLost i f
  if !f.held then s.dropFrame i f.m
  else if s.frameFull i f then s.modFrame i f.m fun f => { f with closed := true }
  else
    let s := s.flagF (F.ING_SSTAT_EVERR i)
    if s.on (F.ING_SCTL_INCPOL i) then s.abandon i f else s.modFrame i f.m fun f => { f with closed := true, inc := true }

/-- The frames of a stream that have not closed, in the order of opening. -/
def State.openFrames (s : State) (i : Nat) : List OpenFrame := (s.stream i).frames.filter fun f => !f.closed

/-- R234: SKEW milliseconds have passed since the first accepted packet of a later frame. -/
def State.skewPassed (s : State) (i : Nat) (f : OpenFrame) : Bool :=
  match f.later with
  | some t => decide (t + s.get (F.ING_SCTL_SKEW i) * 156250 ≤ s.tim.ticks)
  | none => false

/-- FRAME_CLOSE_SKEW: SKEW milliseconds after a later frame's first packet the older frame closes (R234). -/
def execFrameCloseSkew (i : Fin 16) (s : State) : Host.Outcome State Fault Refusal :=
  .next (match (s.openFrames i).find? fun f => s.skewPassed i f with
    | some f => s.closeFrame i f
    | none => s)

/-- BLOCK_ROW_HANDOFF: a block row of a generation is converted and handed to the codec, once its pixels are all present or
its frame has closed (R238). -/
def execBlockRowHandoff (i : Fin 16) (gen : BitVec 16) (row : BitVec 10) (s : State) : Host.Outcome State Fault Refusal :=
  .next (match (s.stream i).frames.find? fun f => f.held && f.gen == gen.toNat with
    | none => s
    | some f =>
      if row.toNat < s.blockRows i ∧ row.toNat ∉ f.rows ∧ (f.closed || s.rowPresent i f row.toNat) then
        s.writeRow i f row.toNat
      else s)

/-- R238: the block rows of a frame that the codec does not have yet are handed over. -/
def State.handRows (s : State) (i : Nat) (f : OpenFrame) : State :=
  ((List.range (s.blockRows i)).filter fun r => !f.rows.contains r).foldl (fun s r => s.writeRow i f r) s

/-- R239: the codec has written every block row of a closed frame: the generation is complete. -/
def State.completeFrame (s : State) (i : Nat) (f : OpenFrame) : State :=
  let s := s.handRows i f
  match s.frameSlot i f with
  | none => s.dropFrame i f.m
  | some (x, j) =>
    let x := { x.modSlot j (fun e => { e with st := 3 }) with used := newestUsed x.used (f.gen, (x.slots.getD j Slot.empty).era) }
    let s := (s.setHandle (s.get (F.ING_SHANDLE_HANDLE i)) x).dropFrame i f.m
    let s := s.wr (.ING_SLAST i) (BitVec.ofNat 32 (f.gen + b2n f.inc * 65536))
    let s := s.modStream i fun t => { t with cap := f.m }
    let s :=
      if (s.stream i).latched then s
      else (s.wr (.ING_SCAPHI i) (BitVec.ofNat 32 (f.m / 2 ^ 32))).wr (.ING_SCAPLO i) (BitVec.ofNat 32 f.m)
    s.flagF (F.ING_SSTAT_EVFRAME i)

/-- GENERATION_COMPLETE (R239). -/
def execGenerationComplete (i : Fin 16) (gen : BitVec 16) (s : State) : Host.Outcome State Fault Refusal :=
  .next (match (s.stream i).frames.find? fun f => f.held && f.closed && f.gen == gen.toNat with
    | some f => s.completeFrame i f
    | none => s)

/-- R239: a read of ING.SLAST latches the capture instant of its frame. -/
def State.latchCapture (s : State) (i : Nat) : State :=
  let c := (s.stream i).cap
  let s := (s.wr (.ING_SCAPHI i) (BitVec.ofNat 32 (c / 2 ^ 32))).wr (.ING_SCAPLO i) (BitVec.ofNat 32 c)
  s.modStream i fun t => { t with latched := true }

/-- SLAST_READ (R239). -/
def execSlastRead (i : Fin 16) (s : State) : Host.Outcome State Fault Refusal :=
  .next (if s.isTile then s else s.latchCapture i)

/-! ### Frames -/

/-- R231: the media tick count of a timestamp: the value nearest the arrival that has these low 32 bits. -/
def unwrapStamp (now stamp : Nat) : Nat :=
  let a := now * 90000 / (65536 * 1000000000)
  let base := a / 2 ^ 32
  let near (x y : Nat) : Nat := if y < x then x - y else y - x
  let c := [base * 2 ^ 32 + stamp, (base + 1) * 2 ^ 32 + stamp] ++ if base = 0 then [] else [(base - 1) * 2 ^ 32 + stamp]
  c.foldl (fun b x => if near x a < near b a then x else b) (base * 2 ^ 32 + stamp)

/-- R232: the generation of a frame. -/
def State.frameGen (s : State) (i m : Nat) : Nat :=
  let den := s.get (F.ING_SRATE_DEN i)
  (2 * m * s.get (F.ING_SRATE_NUM i) + 90000 * den) / (2 * 90000 * den) % 65536

/-- A bad packet counted (R225, R228, R233, R244). -/
def State.badPacket (s : State) (i : Nat) : State := s.count (F.ING_SBADPKT_COUNT i) 1

/-- R234: a frame's slot in the staging DRAM takes a pixel's four bytes. The spec does not give their layout: they are free
values, and the pixel itself is kept with the frame. -/
def State.stageBytes (s : State) (i : Nat) (f : OpenFrame) (px : List StagedPixel) : State :=
  let base := s.get (F.ING_SSTAGE_ADDR i) * 4096 + f.slot * (s.streamW i * ((s.streamH i + 7) / 8 * 8) * 4)
  px.foldl
    (fun s e =>
      let a := base + 4 * e.place
      if inDram a && s.inMemory a 4 then let (l, s) := s.drawBytes 4; s.store a l else s) s

/-- Pixels staged into the frame of tick count `m`; a frame with every pixel closes (R234). -/
def State.stage' (s : State) (i m : Nat) (p : RtpPacket) : State :=
  let px := p.rows.flatMap (s.segment i)
  let s := match (s.openFrames i).find? fun f => f.m == m with
    | some f => s.stageBytes i f px
    | none => s
  let later (a b : Nat) : Nat := if (a + 2 ^ 32 - b) % 2 ^ 32 < 2 ^ 31 then a else b
  let s := s.modFrame i m fun f => { f with
    pixels := (f.pixels.filter fun q => !(px.any fun r => r.place == q.place)) ++ px
    hiSeq := later p.seq f.hiSeq }
  match (s.openFrames i).find? fun f => f.m == m with
  | some f => if s.frameFull i f then s.closeFrame i f else s
  | none => s

/-- R234: a frame holds its staging slot until its last block row has been handed to the codec. -/
def State.holdsSlot (s : State) (i : Nat) (f : OpenFrame) : Bool := !f.closed || decide (f.rows.length < s.blockRows i)

/-- R234: a free staging slot. Where closed frames hold both, the older one's rows are handed over first (DEDUCED). -/
def State.stagingSlot (s : State) (i : Nat) : Nat × State :=
  let free (s : State) : Option Nat :=
    [0, 1].find? fun k => !((s.stream i).frames.any fun f => f.slot == k && s.holdsSlot i f)
  match free s with
  | some k => (k, s)
  | none =>
    let s := match (s.stream i).frames.find? fun f => f.closed && s.holdsSlot i f with
      | some f => s.handRows i f
      | none => s
    ((free s).getD 0, s)

/-- R233, R234, R238: a frame is opened for a packet, closing the older of two open ones; a frame that is not later than
the last one is refused. -/
def State.openFrame (s : State) (i m : Nat) (p : RtpPacket) : State :=
  let t := s.stream i
  let gen := s.frameGen i m
  let refused := match t.lastGen with
    | some g => !(genLater gen g)
    | none => false
  if t.refused.contains m then s.badPacket i
  else if refused then
    ((s.frameLost i).modStream i fun t => { t with refused := m :: t.refused }).badPacket i
  else
    let s := match s.openFrames i with
      | f :: _ :: _ => s.closeFrame i f
      | _ => s
    let (slot, s) := s.stagingSlot i
    let (held, s) := s.codecOpen i gen
    let s := if held then s else s.frameLost i
    let s := s.modStream i fun t => { t with
      frames := (t.frames.map fun f => { f with later := some (f.later.getD s.tim.ticks) })
        ++ [⟨m, gen, slot, held, p.seq, [], [], false, false, none⟩]
      lastGen := some gen }
    ((s.set (F.ING_SSTAT_STATE i) 2).showRows i).stage' i m p

/-- R228: what becomes of a sequence number: 0 new, 1 a second copy, 2 too old. -/
def Stream.seqCheck (t : Stream) (q : Nat) : Nat :=
  if t.seqs.contains q then 1
  else
    let newest := t.seqs.foldl (fun a b => if (b + 2 ^ 32 - a) % 2 ^ 32 < 2 ^ 31 then b else a) (t.seqs.headD q)
    let behind := (newest + 2 ^ 32 - q) % 2 ^ 32
    if 4096 ≤ behind ∧ behind < 2 ^ 31 then 2 else 0

/-- A datagram on a flow of an enabled stream; `now` is its arrival (R225 to R234, R242, R244). While the time is not
valid, packets of a frame already open are known by their timestamp (DEDUCED). -/
def State.flowPacket (s : State) (i : Nat) (pathB : Bool) (now : Nat) (l : List Byte) : State :=
  match parseRtp l with
  | none => s.badPacket i
  | some p =>
    if !(s.rtpOk i p) then s.badPacket i
    else
      let s := s.set (if pathB then F.ING_SSTAT_PATHB i else F.ING_SSTAT_PATHA i) 1
      let s := if s.get (F.ING_SSTAT_STATE i) = 3 then s.set (F.ING_SSTAT_STATE i) 2 else s
      match (s.stream i).seqCheck p.seq with
      | 1 => s.count (F.ING_SDUP_COUNT i) 1
      | 2 => s.badPacket i
      | _ =>
        let s := s.modStream i fun t => { t with
          seqs := (p.seq :: t.seqs).take 4096, received := p.seq :: t.received
          lostFrom := some (t.lostFrom.getD p.seq) }
        if !(s.on F.TIM_STAT_VALID) then
          match (s.openFrames i).find? fun f => f.m % 2 ^ 32 == p.stamp with
          | some f => s.stage' i f.m p
          | none => s.badPacket i
        else
          let m := unwrapStamp now p.stamp
          if (s.openFrames i).any fun f => f.m == m then s.stage' i m p else s.openFrame i m p

/-! ### Enabling, loss and disabling -/

/-- R229: the rate of a stream in kpx/s. -/
def State.streamRate (s : State) (i : Nat) : Nat :=
  let d := s.get (F.ING_SRATE_DEN i) * 1000
  (s.streamW i * s.streamH i * s.get (F.ING_SRATE_NUM i) + d - 1) / d

/-- Table 9.2: format, size and rate of a stream are supported. -/
def State.streamFits (s : State) (i : Nat) : Bool :=
  let n := s.get (F.ING_SRATE_NUM i)
  let d := s.get (F.ING_SRATE_DEN i)
  decide (s.get (F.ING_SFMT_SAMP i) ≤ 2 ∧ s.get (F.ING_SFMT_DEPTH i) ≤ 2 ∧ 8 ≤ s.streamW i ∧ s.streamW i ≤ 7680
    ∧ 8 ≤ s.streamH i ∧ s.streamH i ≤ 4320 ∧ 1 ≤ d ∧ d ≤ n ∧ n ≤ 240 * d)

/-- R229: a write of 1 to ING.SCTL.EN. -/
def State.enableStream (s : State) (i : Nat) : State :=
  if s.isTile || s.streamOn i then s
  else
    let r := s.streamRate i
    if s.streamFits i && decide (r ≤ 2000000 ∧ s.get F.ING_RATESUM_KPXS + r ≤ 4000000) && s.codecAccepts i then
      let s' := ((s.set (F.ING_SCTL_EN i) 1).set (F.ING_SSTAT_REFUSED i) 0).set (F.ING_SSTAT_STATE i) 1
      State.igmpChange s (s'.set F.ING_RATESUM_KPXS (s.get F.ING_RATESUM_KPXS + r))
    else s.set (F.ING_SSTAT_REFUSED i) 1

/-- R233: the record of the last generation opened is cleared, and the codec's with it. -/
def State.forgetStream (s : State) (i : Nat) : State :=
  let s := s.modStream i fun t => { t with lastGen := none, refused := [], lostFrom := none, received := [] }
  let h := s.get (F.ING_SHANDLE_HANDLE i)
  match s.handle h with
  | some x => s.setHandle h { x with opened := none, era := x.era + 1 }
  | none => s

/-- R243: a write of 0 to ING.SCTL.EN. -/
def State.disableStream (s : State) (i : Nat) : State :=
  if s.isTile || !(s.streamOn i) then s
  else
    let s' := (s.stream i).frames.foldl (fun s f => s.abandon i f) s
    let s' := (s'.set (F.ING_SCTL_EN i) 0).set F.ING_RATESUM_KPXS (s.get F.ING_RATESUM_KPXS - s.streamRate i)
    let s' := ((s'.set (F.ING_SSTAT_STATE i) 0).set (F.ING_SSTAT_PATHA i) 0).set (F.ING_SSTAT_PATHB i) 0
    (State.igmpChange s s').forgetStream i

/-- STREAM_ENABLE (R229). -/
def execStreamEnable (i : Fin 16) (s : State) : Host.Outcome State Fault Refusal := .next (s.enableStream i)

/-- STREAM_DISABLE (R243). -/
def execStreamDisable (i : Fin 16) (s : State) : Host.Outcome State Fault Refusal := .next (s.disableStream i)

/-- STREAM_LOSS: no accepted packet on either path for LOSS milliseconds (R242). -/
def execStreamLoss (i : Fin 16) (s : State) : Host.Outcome State Fault Refusal :=
  .next (
    if s.streamOn i ∧ s.get (F.ING_SSTAT_STATE i) ≠ 3 then
      let s := (s.set (F.ING_SSTAT_STATE i) 3).flagF (F.ING_SSTAT_EVLOSS i)
      let s := (s.set (F.ING_SSTAT_PATHA i) 0).set (F.ING_SSTAT_PATHB i) 0
      ((s.openFrames i).foldl (fun s f => s.closeFrame i f) s).forgetStream i
    else s)

/-- PATH_SILENCE: one enabled path is silent for LOSS milliseconds while the other delivers (R242). -/
def execPathSilence (i : Fin 16) (pathB : Bool) (s : State) : Host.Outcome State Fault Refusal :=
  .next (
    let f := if pathB then F.ING_SSTAT_PATHB i else F.ING_SSTAT_PATHA i
    if s.streamOn i && s.on f then (s.set f 0).flagF (F.ING_SSTAT_EVPATH i) else s)

/-- R219: a write to ING.QCFG; LAN.CTL.RATE follows the mode (R131). -/
def State.writeQcfg (s : State) (q : Nat) (value : Word) : State :=
  if s.isTile || (List.range 4).any fun k => s.on (F.LAN_CTL_EN (4 * q + k)) then s
  else
    let mode := getBits value 0 2
    (List.range 4).foldl (fun s k => s.set (F.LAN_CTL_RATE (4 * q + k)) (if mode = 3 then 1 else 0))
      (s.set (F.ING_QCFG_MODE q) mode)

/-- QCFG_WRITE (R219). -/
def execQcfgWrite (q : Fin 2) (value : Word) (s : State) : Host.Outcome State Fault Refusal := .next (s.writeQcfg q value)

end Sys2Proof.Machine
end

