-- ==== Sys2Proof/Machine/Ptp.lean ====
section
/-! DEFINITION. The PTP time receiver (R245 to R247). The message formats and the comparison of transmitters are those of
IEEE 1588-2019 (PRESUMED, log entry 6). -/

namespace Sys2Proof.Machine

/-- The PTP record changed. -/
def State.modPtp (s : State) (f : PtpState → PtpState) : State := { s with ing := { s.ing with ptp := f s.ing.ptp } }

/-- A PTP receiver that has heard nothing. -/
def PtpState.reset : PtpState := ⟨[], none, none, none, none, 0, [], none⟩

/-- The port identity of the part on a source port: its MAC address as an EUI-64, and the port's number. -/
def State.ptpIdentity (s : State) (i : Nat) : BitVec 80 :=
  let m := (s.portMac i).toNat
  BitVec.ofNat 80 ((m / 2 ^ 24 * 2 ^ 40 + 0xFFFE * 2 ^ 24 + m % 2 ^ 24) * 65536 + i + 1)

/-- A span of 2^k seconds in ticks. -/
def logTicks (k : Int) : Nat := if 0 ≤ k then 156250000 * 2 ^ k.toNat else 156250000 / 2 ^ (-k).toNat

/-- Foreign-master qualification: two Announce messages within four intervals, the last of them still within four. -/
def Transmitter.qualified (t : Transmitter) (now : Nat) : Bool :=
  match t.heard with
  | a :: b :: _ => decide (a ≤ b + 4 * logTicks t.interval ∧ now ≤ a + 4 * logTicks t.interval)
  | _ => false

/-- The first difference of two lists decides. -/
def listLess : List Nat → List Nat → Bool
  | [], _ => false
  | _, [] => false
  | a :: r, b :: t => decide (a < b) || (decide (a = b) && listLess r t)

/-- The default data set comparison: one grandmaster by its distance, two by their data sets. -/
def Transmitter.better (a b : Transmitter) : Bool := if a.gm = b.gm then listLess (a.rank.drop 6) (b.rank.drop 6) else listLess a.rank b.rank

/-- The best qualified transmitter. -/
def State.bestTransmitter (s : State) : Option Transmitter :=
  (s.ing.ptp.heard.filter fun t => t.qualified s.tim.ticks).foldl
    (fun best t => match best with
      | some b => if t.better b then some t else some b
      | none => some t) none

/-- A transmitter's identity. -/
def Transmitter.key (t : Transmitter) : Nat × BitVec 80 := (t.port, t.ident)

/-- R246: the selection follows the transmitters heard; a change of grandmaster identity sets EVSRC (R199). The words keep
the last grandmaster while none is selected. -/
def State.selectPtp (s : State) : State :=
  match s.bestTransmitter with
  | none =>
    let s := s.modPtp fun p => { p with selected := none, sync := none, pair := none, request := none, delays := [], interval := none }
    s.set F.ING_PTPSTAT_STATE (if s.on F.ING_PTPCFG_EN then 1 else 0)
  | some t =>
    let old := (s.rd .ING_PTPGMHI).toNat * 2 ^ 32 + (s.rd .ING_PTPGMLO).toNat
    let s :=
      if s.ing.ptp.selected = some t.key then s
      else s.modPtp fun p => { p with
        selected := some t.key, sync := none, pair := none, request := none, delays := [], interval := none }
    let s := ((s.set F.ING_PTPSTAT_STATE 2).set F.ING_PTPSTAT_PORT t.port).set F.ING_PTPSTAT_CLASS t.cls
    let s := (s.wr .ING_PTPGMHI (BitVec.ofNat 32 (t.gm.toNat / 2 ^ 32))).wr .ING_PTPGMLO (BitVec.ofNat 32 t.gm.toNat)
    let s := (s.set F.ING_PTPUTC_OFFSET t.utc).set F.ING_PTPUTC_VALID (b2n t.utcValid)
    if old ≠ 0 ∧ old ≠ t.gm.toNat then s.flag .TIM_EV 5 else s

/-- R245: a write of ING.PTPCFG: what was heard on a port that is no longer named, or in another domain, is forgotten; the
groups follow (R224). -/
def State.writePtpcfg (s : State) (before : State) : State :=
  let keep := s.on F.ING_PTPCFG_EN && s.get F.ING_PTPCFG_DOMAIN == before.get F.ING_PTPCFG_DOMAIN
  let s := s.modPtp fun p => { p with heard := if keep then p.heard.filter fun t => s.ptpPort t.port else [] }
  State.igmpChange before s.selectPtp

/-- A PTP timestamp in 1/65,536 ns. -/
def ptpTime (l : List Byte) (a : Nat) : Nat := wuOf (beAt l a 6) (beAt l (a + 6) 4) 0

/-- The correction field of a message, in 1/65,536 ns. -/
def ptpCorrection (l : List Byte) : Int := sgn 64 (beAt l 8 8)

/-- R247: a pair of origin time with its corrections and local receive time: a measurement, once a delay is known. -/
def State.ptpMeasure (s : State) (i : Nat) (t1 : Int) (t2 : Nat) : State :=
  let s := s.modPtp fun p => { p with pair := some (t1, t2), sync := none }
  let d := s.ing.ptp.delays
  if d.isEmpty ∨ s.rd (.ING_PADDR i) = 0 ∨ s.get F.TIM_CFG_SRC ≠ 1 then s
  else s.measure (t1 + fdiv (d.foldl (· + ·) 0) (2 * d.length) - t2)

/-- An Announce message (R246). -/
def State.ptpAnnounce (s : State) (i : Nat) (src : BitVec 80) (l : List Byte) : State :=
  let k := (i, src)
  let old := s.ing.ptp.heard.find? fun t => t.key == k
  let gm := BitVec.ofNat 64 (beAt l 53 8)
  let steps := beAt l 61 2
  if 255 ≤ steps ∨ l.length < 64 then s
  else
    let t : Transmitter := {
      port := i, ident := src
      rank := [beAt l 47 1, beAt l 48 1, beAt l 49 1, beAt l 50 2, beAt l 52 1, gm.toNat, steps, src.toNat, i]
      gm := gm, cls := beAt l 48 1, utc := beAt l 44 2, utcValid := bit (beAt l 7 1) 2
      heard := (s.tim.ticks :: (match old with | some t => t.heard | none => [])).take 2
      interval := sgn 8 (beAt l 33 1) }
    (s.modPtp fun p => { p with heard := (p.heard.filter fun t => t.key != k) ++ [t] }).selectPtp

/-- A PTP message that arrived on a source port at `rx`; `src` is its sender (R245 to R247). -/
def State.ptpMessage (s : State) (i : Nat) (rx : Nat) (l : List Byte) : State :=
  if l.length < 44 ∨ beAt l 1 1 % 16 ≠ 2 ∨ beAt l 4 1 ≠ s.get F.ING_PTPCFG_DOMAIN then s
  else
    let src := BitVec.ofNat 80 (beAt l 20 10)
    let seq := beAt l 30 2
    let chosen := s.ing.ptp.selected == some (i, src)
    match beAt l 0 1 % 16 with
    | 11 => if bit (beAt l 6 1) 0 then s else s.ptpAnnounce i src l
    | 0 =>
      if !chosen then s
      else if bit (beAt l 6 1) 1 then s.modPtp fun p => { p with sync := some (seq, rx, ptpCorrection l) }
      else s.ptpMeasure i (ptpTime l 34 + ptpCorrection l) rx
    | 8 => match chosen, s.ing.ptp.sync with
      | true, some (q, t2, c) => if q = seq then s.ptpMeasure i (ptpTime l 34 + ptpCorrection l + c) t2 else s
      | _, _ => s
    | 9 => match chosen, s.ing.ptp.request, s.ing.ptp.pair with
      | true, some (q, t3), some (t1, t2) =>
        if q = seq ∧ BitVec.ofNat 80 (beAt l 44 10) = s.ptpIdentity i ∧ 54 ≤ l.length then
          let t4 : Int := ptpTime l 34 - ptpCorrection l
          s.modPtp fun p => { p with
            request := none, interval := some (sgn 8 (beAt l 33 1))
            delays := ((t2 - t1 - (t4 - t3)) :: p.delays).take 16 }
        else s
      | _, _, _ => s
    | _ => s

/-- DELAY_REQ_SEND (R245): a Delay_Req to the selected transmitter's port. -/
def execDelayReqSend (s : State) : Host.Outcome State Fault Refusal :=
  .next (match s.ing.ptp.selected with
    | none => s
    | some (i, _) =>
      if s.maySend i then
        let q := s.ing.ptp.nextSeq
        let m := [1, 2] ++ beBytes 2 44 ++ [BitVec.ofNat 8 (s.get F.ING_PTPCFG_DOMAIN), 0] ++ List.replicate 14 0
          ++ beBytes 10 (s.ptpIdentity i).toNat ++ beBytes 2 q ++ [1, 0x7F] ++ List.replicate 10 0
        let s := s.sendEther i
          (etherFrame 0x01005E000181 (s.portMac i) 0x0800 (udpPacket (s.portIp i) 0xE0000181 319 319 m))
        s.modPtp fun p => { p with request := some (q, s.sourceTx i), nextSeq := (q + 1) % 65536 }
      else s)

/-- PTP_ANNOUNCE_TIMEOUT: three intervals without an Announce of the selected transmitter (R246). -/
def execPtpAnnounceTimeout (s : State) : Host.Outcome State Fault Refusal :=
  .next (match s.ing.ptp.selected with
    | none => s
    | some k => (s.modPtp fun p => { p with heard := p.heard.filter fun t => t.key != k }).selectPtp)

end Sys2Proof.Machine
end

