-- ==== Sys2Proof/Machine/Sd.lean ====
section
/-! DEFINITION. The SD card interface (R494 to R496). -/

namespace Sys2Proof.Machine

/-- The SD record changed. -/
def State.modSd (s : State) (f : SdState → SdState) : State := { s with sd := f s.sd }

/-- R494: a write of 1 to HKP.SDCTL.INIT; ignored while a transfer runs. -/
def State.sdInit (s : State) : State := if s.on F.HKP_SDSTAT_BUSY then s else s.set F.HKP_SDSTAT_STATE 1

/-- SD_INIT (R494). -/
def execSdInit (s : State) : Host.Outcome State Fault Refusal := .next s.sdInit

/-- A RESULT with its event bit `b`, and EVERR where it is not 0 (Table 20.15). -/
def State.sdResult (s : State) (b res : Nat) : State :=
  let s := (s.set F.HKP_SDSTAT_RESULT res).flag .HKP_SDEV b
  if res = 0 then s else s.flag .HKP_SDEV 3

/-- SD_INIT_END: initialisation ends; `result` is the card's own failure, 0 for none (R494). -/
def execSdInitEnd (result : BitVec 3) (s : State) : Host.Outcome State Fault Refusal :=
  .next (
    if s.get F.HKP_SDSTAT_STATE ≠ 1 then s
    else match s.sd.card with
      | none => (s.set F.HKP_SDSTAT_STATE 3).sdResult 1 1
      | some c =>
        if c.sdsc then (s.set F.HKP_SDSTAT_STATE 3).sdResult 1 4
        else if result ≠ 0 then (s.set F.HKP_SDSTAT_STATE 3).sdResult 1 result.toNat
        else
          let s := (s.set F.HKP_SDSTAT_STATE 2).set F.HKP_SDSTAT_SDR50 (b2n c.lowVolt)
          let s := s.wr .HKP_SDCAP (BitVec.ofNat 32 c.sectors)
          let s := s.set F.HKP_SDSTAT_PARTOK (b2n (cardPartition c).isSome)
          let s := match cardPartition c with
            | some (a, n) => (s.wr .HKP_SDPART (BitVec.ofNat 32 a)).wr .HKP_SDPLEN (BitVec.ofNat 32 n)
            | none => s
          s.sdResult 1 0)

/-- R495: the local range of a transfer is served; a card write may also read the journal window and the boot ROM (R15). -/
def State.sdRange (s : State) (write : Bool) (a n : Nat) : Bool :=
  (if write then s.inMemory a n else s.writable a n) || (write && (inNvjWindow a n || inBootRom a n))

/-- R495: a write of 1 to HKP.SDCTL.GO, WRITE as the same write leaves it. One that cannot begin ends at once; a card that
is not ready counts as none (DEDUCED). -/
def State.sdGo (s : State) : State :=
  if s.on F.HKP_SDSTAT_BUSY then s
  else
    let write := s.on F.HKP_SDCTL_WRITE
    let lba := (s.rd .HKP_SDLBA).toNat
    let n := max 1 (s.get F.HKP_SDCNT_SECTORS)
    let a := s.get F.HKP_SDADDR_ADDR * 512
    if s.sd.card.isNone ∨ s.get F.HKP_SDSTAT_STATE ≠ 2 then s.sdResult 0 1
    else if (s.rd .HKP_SDCAP).toNat < lba + n then s.sdResult 0 5
    else if !(s.sdRange write a (512 * n)) then s.sdResult 0 6
    else (s.modSd fun x => { x with transfer := some ⟨write, lba, n, a⟩ }).set F.HKP_SDSTAT_BUSY 1

/-- SD_GO (R495). -/
def execSdGo (s : State) : Host.Outcome State Fault Refusal := .next s.sdGo

/-- Bytes written to the card. -/
def State.cardPut (s : State) (a : Nat) (l : List Byte) : State :=
  s.modSd fun x => { x with card := x.card.map fun c => { c with data := Memory.writeBytes c.data a l } }

/-- Bytes of a card read. -/
def State.cardBytes (s : State) (a n : Nat) : List Byte :=
  match s.sd.card with
  | some c => cardRead c a n
  | none => []

/-- R495: `k` sectors of a transfer are complete; uncorrectable source bytes are free values. -/
def State.sdMove (s : State) (t : SdTransfer) (k : Nat) : State :=
  (List.range k).foldl
    (fun s i =>
      if t.write then
        match s.load (t.addr + 512 * i) 512 with
        | (.ok l, s) => s.cardPut ((t.lba + i) * 512) l
        | (_, s) => let (l, s) := s.drawBytes 512; s.cardPut ((t.lba + i) * 512) l
      else s.store (t.addr + 512 * i) (s.cardBytes ((t.lba + i) * 512) 512)) s

/-- R495: a transfer ends after `k` complete sectors; a failing sector is undefined on the card. -/
def State.sdEnd (s : State) (t : SdTransfer) (k res : Nat) : State :=
  let s := s.sdMove t k
  let s :=
    if res ≠ 0 ∧ t.write ∧ k < t.count then
      let (l, s) := s.drawBytes 512
      s.cardPut ((t.lba + k) * 512) l
    else s
  ((s.modSd fun x => { x with transfer := none }).set F.HKP_SDSTAT_BUSY 0).sdResult 0 res

/-- SD_TRANSFER_END: the transfer ends with `result`, 0 for all sectors moved, after `done` complete sectors and `retries`
retries of sectors with a CRC error (R495). -/
def execSdTransferEnd (done : BitVec 16) (result : BitVec 3) (retries : BitVec 16) (s : State) :
    Host.Outcome State Fault Refusal :=
  .next (match s.sd.transfer with
    | none => s
    | some t =>
      let s := s.count F.HKP_SDCRC_COUNT retries.toNat
      if result = 0 then s.sdEnd t t.count 0 else s.sdEnd t (min done.toNat (t.count - 1)) result.toNat)

/-- SD_CARD_DETECT: SD_CD_N changes: a card comes or goes; its going ends a transfer with RESULT 1 after a free number of
complete sectors (R495, R496). -/
def execSdCardDetect (card : Option SdCard) (s : State) : Host.Outcome State Fault Refusal :=
  .next (
    if card.isSome = s.sd.card.isSome then s
    else
      let s := match s.sd.transfer with
        | some t => let (w, s) := s.draw; s.sdEnd t (w.toNat % t.count) 1
        | none => s
      let s := (s.modSd fun x => { x with card := card }).set F.HKP_SDSTAT_PRESENT (b2n card.isSome)
      (s.set F.HKP_SDSTAT_STATE 0).flag .HKP_SDEV 2)

end Sys2Proof.Machine
end

