-- ==== Sys2Proof/Machine/RegWrite.lean ====
section
/-! DEFINITION. Reads and writes of device state words by their requestors (R7, R109, R457, R523 to R530): the access
codes of Table 0.4, the fields that lock at Dawn, and the words that act when they are read or written. -/

namespace Sys2Proof.Machine

/-! ### Access codes -/

/-- R3, R530: the LK fields are locked: Dawn has completed. -/
def State.locked (s : State) : Bool := s.bot.dawned

/-- R525: a write under the access codes of Table 0.4: RW fields take it, LK fields until they lock, W1C flags are
cleared by ones, and every other field keeps its value. -/
def State.plainWrite (s : State) (r : Reg) (v : Word) : State :=
  let i := r.info
  let m : Word := BitVec.ofNat 32 (if s.locked then i.rw else i.rw ||| i.lk)
  s.wr r (((s.rd r &&& ~~~m) ||| (v &&& m)) &&& ~~~(v &&& BitVec.ofNat 32 i.w1c))

/-- R457: an access to the words of a gated block opens the gate: MEM in the DDR domain, LMP in the LAMP domain. -/
def State.touchWord (s : State) (r : Reg) : State :=
  if r.unit = 0x0E then s.set (F.CLK_DSTAT_GATED 1) 0
  else if r.unit = 0x0A then s.set (F.CLK_DSTAT_GATED 2) 0
  else s

/-! ### Reads -/

/-- What a word reads as: it as held, but for the words that show a condition (R31, R43, R500, Table 4.8); the longest
wait of MEM.PWAIT is timing, of which the model tells nothing, and reads as a free value. -/
def State.wordNow (s : State) (r : Reg) : Word × State :=
  match r with
  | .HST_STAT => (s.statWord, s)
  | .HST_LEASE => (s.leaseWord, s)
  | .ASR_NVQ => (s.nvqWord, s)
  | .EVT_ALERTSRC => (BitVec.ofNat 32 (s.alertSource.getD 0x200), s)
  | .MEM_PWAIT _ =>
    let (w, s) := s.draw
    (w &&& 0xFFFF, s)
  | _ => (s.rd r, s)

/-- A read of a word: RC fields are cleared by it to their reset value (R526), and some words act (R239). -/
def State.regRead (s : State) (r : Reg) : Word × State :=
  if !(r.powered s.isTile) then (0, s)
  else
    let s := s.touchWord r
    let (w, s) := match r with
      | .ING_SLAST i => (s.latchCapture i).wordNow r
      | .LAN_RXEQ n => (s.readDfe n).wordNow r
      | _ => s.wordNow r
    let rc : Word := BitVec.ofNat 32 r.info.rc
    (w, s.wr r ((s.rd r &&& ~~~rc) ||| (r.resetValue &&& rc)))

/-! ### Writes that act -/

/-- A bit of a written word. -/
def wbit (v : Word) (i : Nat) : Bool := v.getLsbD i

/-- `f` done when a bit is written with 1. -/
def State.onBit (s : State) (v : Word) (i : Nat) (f : State → State) : State := if wbit v i then f s else s

/-- LAN.CTL[n]: polarity and adaptation, the lane's enable (R134) and the survey request (R144). -/
def State.writeLanCtl (s : State) (n : Nat) (v : Word) : State :=
  let en := s.get (F.LAN_CTL_EN n)
  let s := (s.plainWrite (.LAN_CTL n) v).set (F.LAN_CTL_EN n) en
  let s := if s.dfeMoves n then s.setAdapting n true else s
  (s.setLaneEnable n (wbit v 0)).onBit v 2 fun s => s.startSurvey n

/-- TIM.CFG: KP and KI, the source (R197, R199) and FREE. -/
def State.writeTimCfg (s : State) (v : Word) : State :=
  let src := s.get F.TIM_CFG_SRC
  let s := (s.plainWrite .TIM_CFG v).set F.TIM_CFG_SRC src
  (s.writeSrc (getBits v 0 2)).onBit v 2 State.freeRun

/-- ING.SCTL[i]: while EN is 1 only EN is written (R229, R230, R243). -/
def State.writeSctl (s : State) (i : Nat) (v : Word) : State :=
  let on := s.streamOn i
  let s := if on then s else (s.plainWrite (.ING_SCTL i) v).set (F.ING_SCTL_EN i) 0
  if wbit v 0 = on then s else if wbit v 0 then s.enableStream i else s.disableStream i

/-- A word of stream `i` that R230 holds while the stream is enabled. -/
def State.writeHeld (s : State) (i : Nat) (r : Reg) (v : Word) : State := if s.streamOn i then s else s.plainWrite r v

/-- A word of a stream's flows: the ports answer the change of groups (R224, R230). -/
def State.writeFlow (s : State) (r : Reg) (v : Word) : State := State.igmpChange s (s.plainWrite r v)

/-- SCN.GEOM (R333); the event of a lamp port is pending while a flag of it is set and the port carries lamps (R379). -/
def State.writeGeom (s : State) (v : Word) : State :=
  if s.anyRunning then s
  else (List.range 128).foldl
    (fun s p =>
      if !(lampPortUsed s p) then s.set ⟨.EVT_PEND (p / 32), p % 32, 1⟩ 0
      else if s.condition p then s.raise p
      else s) (s.plainWrite .SCN_GEOM v)

/-- SCN.CTL: DARK and RELEASE (R353). -/
def State.writeScnCtl (s : State) (v : Word) : State := (s.writeDark (wbit v 0)).onBit v 1 State.releaseTrip

/-- SCN.FADECTL: the fade's settings, and GO (R356). -/
def State.writeFade (s : State) (v : Word) : State :=
  (s.plainWrite .SCN_FADECTL v).onBit v 31 fun s => s.armFade (getBits v 0 16) (getBits v 16 12) (wbit v 28)

/-- SCN.GCTL[g]: SLOT, and STOP, which precedes START in one write (R346). -/
def State.writeGctl (s : State) (g : Nat) (v : Word) : State :=
  let s := s.plainWrite (.SCN_GCTL g) v
  if wbit v 1 then s.stopGroup g else s.onBit v 0 fun s => s.startGroup g (getBits v 2 1)

/-- LMP.CFG: the settings, and CLEAR (R376). -/
def State.writeLmpCfg (s : State) (v : Word) : State :=
  (s.plainWrite .LMP_CFG v).onBit v 1 fun s => if s.on F.LMP_STAT_CLEARING then s else s.startClear

/-- HRC.CTL[n]: HALT, which precedes START, and START (R94, R95). -/
def State.writeHrcCtl (s : State) (n : Nat) (v : Word) : State :=
  let n : Fin 5 := ⟨n % 5, Nat.mod_lt _ (by decide)⟩
  if s.bootCore n then s
  else if wbit v 1 then s.requestHalt n
  else if wbit v 0 then s.startCore n
  else s

/-- HRC.PCLO[n] and HRC.PCHI[n] are written only while the core is halted (R97). -/
def State.writePc (s : State) (n : Nat) (r : Reg) (v : Word) : State :=
  if s.coreState n = coreHalted then s.plainWrite r v else s

/-- EVT.FORCE (R113). -/
def State.writeForce (s : State) (v : Word) : State := s.raise (getBits v 0 9)

/-- A channel by its number. -/
def chanNo (ch : Nat) : Fin 2 := ⟨ch % 2, Nat.mod_lt _ (by decide)⟩

/-- MEM.RMCTL[ch] (R419). -/
def State.writeRmctl (s : State) (ch : Nat) (v : Word) : State :=
  s.onBit v 6 fun s => s.startRemap (chanNo ch) (getBits v 0 6)

/-- MEM.SRCTL: IDLE, ENTER and EXIT (R421, R422). -/
def State.writeSrctl (s : State) (v : Word) : State :=
  ((s.plainWrite .MEM_SRCTL v).onBit v 0 State.srEnter).onBit v 1 State.srExit

/-- PWR.LEDMAP[r]: the map, which comes into force at a boundary, and EN (R436). -/
def State.writeLedmap (s : State) (r : Nat) (v : Word) : State :=
  let en := s.get (F.PWR_LEDMAP_EN r)
  let s := (s.plainWrite (.PWR_LEDMAP r) v).set (F.PWR_LEDMAP_EN r) en
  if wbit v 31 = (en != 0) then s else if wbit v 31 then s.enableRail r else s.disableRail r

/-- HKP.CTL: TRIPCLR and IDREAD (R467, R472). -/
def State.writeHkpCtl (s : State) (v : Word) : State := (s.onBit v 0 State.clearTrip).onBit v 1 State.idRead

/-- HKP.SDCTL: the direction, INIT and GO (R494, R495). -/
def State.writeSdctl (s : State) (v : Word) : State :=
  ((s.plainWrite .HKP_SDCTL v).onBit v 0 State.sdInit).onBit v 1 State.sdGo

/-- ASR.CTL: TRIMCOMMIT and CALSAVE (R506, R507). -/
def State.writeAsrCtl (s : State) (v : Word) : State := (s.onBit v 0 State.trimCommit).onBit v 1 State.calSave

/-- ASR.PROOFCFG: the settings, and EN (R519). -/
def State.writeProof (s : State) (v : Word) : State :=
  let en := s.get F.ASR_PROOFCFG_EN
  let s := (s.plainWrite .ASR_PROOFCFG v).set F.ASR_PROOFCFG_EN en
  if wbit v 0 = (en != 0) then s else s.enableProof (wbit v 0)

/-- MIR.CTL: BECOME, HANDOVER and CKGO (R381, R390, R401). -/
def State.writeMirCtl (s : State) (v : Word) : State :=
  let s := if getBits v 0 2 = 1 then s.writeLead else if getBits v 0 2 = 2 then s.writeShadow else s
  (s.onBit v 2 State.armHandover).onBit v 3 State.startCheckpoint

/-- BOT.CTL: PUSHGO, DAWNDONE, DUSK and FLOORUP (R475, R485, R487, R491). -/
def State.writeBotCtl (s : State) (v : Word) : State :=
  (((s.onBit v 0 State.handOver).onBit v 1 State.dawnDone).onBit v 2 State.dusk).onBit v 3 State.floorUp

/-- R485: a write of BOT.DAWNCFG: a TWAIT or a LIMIT that has passed takes effect at once, TWAIT first as in Table 20.7. -/
def State.writeDawnCfg (s : State) (v : Word) : State :=
  let s := s.plainWrite .BOT_DAWNCFG v
  (if s.waitPassed then s.decideSeal else s).dawnByLimit

/-- The effect of a write to a word that is powered. -/
def State.wordWrite (s : State) (r : Reg) (v : Word) (path : ResetPath) : State :=
  match r with
  | .LAN_CTL n => s.writeLanCtl n v
  | .LAN_TXEQ n => s.writeTxeq n v
  | .LNK_PCTL p => s.writePctl p (wbit v 0)
  | .LNK_CFG => s.writeLnkCfg v
  | .LNK_EPOCH c => s.writeEpoch c v
  | .LNK_ANNOUNCE c => (s.onBit v 0 fun s => s.announceOn c false).onBit v 1 fun s => s.announceOn c true
  | .LNK_GENKEY c e => s.writeGenkey c e v
  | .LNK_RING _ => (s.plainWrite r v).sendDueProbes.updateReady
  | .TIM_CFG => s.writeTimCfg v
  | .TIM_LOCKLIM => (s.plainWrite r v).updateLock
  | .TIM_SNAP => s.onBit v 0 State.snapshot
  | .TIM_LQPUSH p => s.lqPush p v
  | .TIM_LQCTL p => s.onBit v 0 fun s => s.flushQueue p
  | .TIM_FPER => { s with tim := { s.tim with pendFper := v } }
  | .TIM_FPERFR => { s with tim := { s.tim with pendFperFr := v &&& 0xFFFF } }
  | .TIM_FPERCID => s.armPeriod v
  | .CLK_GATE => s.writeGate v
  | .ING_QCFG q => s.writeQcfg q v
  | .ING_PTPCFG => State.writePtpcfg (s.plainWrite r v) s
  | .ING_SCTL i => s.writeSctl i v
  | .ING_SFMT i | .ING_SSIZE i | .ING_SRATE i | .ING_SHANDLE i | .ING_SSTAGE i => s.writeHeld i r v
  | .ING_SDSTA _ | .ING_SPORTA _ | .ING_SDSTB _ | .ING_SPORTB _ => s.writeFlow r v
  | .SRF_CMD => s.srfCommand v
  | .CMP_CTL => s.onBit v 0 State.restartCompositor
  | .COR_CFG => s.writeCorCfg v
  | .COR_CTXBASE => s.modCor fun c => { c with pendCtx := v &&& 0x1FFFFFFF }
  | .COR_ARMCID => s.armContext v
  | .COR_LEDBASE => if s.on F.COR_CFG_LEDEN then s else s.plainWrite r v
  | .COR_LOOP _ => if s.on F.COR_CFG_LOOPEN then s else s.plainWrite r v
  | .SCN_CTL => s.writeScnCtl v
  | .SCN_GEOM => s.writeGeom v
  | .SCN_FADECTL => s.writeFade v
  | .SCN_GCTL g => s.writeGctl g v
  | .LMP_CFG => s.writeLmpCfg v
  | .LMP_STBASE => if s.on F.LMP_CFG_MAPEN then s else s.plainWrite r v
  | .HRC_CTL n => s.writeHrcCtl n v
  | .HRC_PCLO n => s.writePc n r v
  | .HRC_PCHI n => s.writePc n r v
  | .EVT_PEND j => s.clearPending j v
  | .EVT_FORCE => s.writeForce v
  | .EVT_ROUTE k => s.setRoute k (getBits v 0 3)
  | .HST_LEASECTL => s.onBit v 0 State.revoke
  | .MEM_CFG => (s.plainWrite r v).onBit v 8 State.train
  | .MEM_SRCTL => s.writeSrctl v
  | .MEM_PPR ch => s.writePpr (chanNo ch) v
  | .MEM_RMCTL ch => s.writeRmctl ch v
  | .MEM_REMAP ch e => if s.remapped ch e then s else s.plainWrite r v
  | .PWR_AVSPCID => s.armPreset v
  | .PWR_LEDMAP k => s.writeLedmap k v
  | .HKP_CTL => s.writeHkpCtl v
  | .HKP_I2CCMD => s.i2cWrite v
  | .HKP_SDCTL => s.writeSdctl v
  | .ASR_CTL => s.writeAsrCtl v
  | .ASR_TRIM _ => if s.get F.ASR_TRIMSTAT_PEND ≠ 0 then s else s.plainWrite r v
  | .ASR_SLICECTL => s.writeSliceCtl v
  | .ASR_PROOFCFG => s.writeProof v
  | .MIR_CTL => s.writeMirCtl v
  | .MIR_STAT => (s.plainWrite r v).updateReady
  | .BOT_CTL => s.writeBotCtl v
  | .BOT_DAWNCFG => s.writeDawnCfg v
  | .BOT_RESET => s.askReset v path
  | .BOT_LCTL => s.writeLctl v
  | .BOT_MCHK => s.manifestCheck v
  | _ => s.plainWrite r v

/-- A write of a word: a word that is not powered ignores it (R7). -/
def State.regWrite (s : State) (r : Reg) (v : Word) (path : ResetPath) : State :=
  if r.powered s.isTile then (s.touchWord r).wordWrite r v path else s

/-- A read at the address of a word; an offset that no table lists reads 0 (R523). -/
def State.wordRead (s : State) (a : Nat) : Word × State :=
  match Reg.ofAddr a with
  | some r => s.regRead r
  | none => (0, s)

/-- A write at the address of a word; an offset that no table lists ignores it (R523). -/
def State.wordStore (s : State) (a : Nat) (v : Word) (path : ResetPath) : State :=
  match Reg.ofAddr a with
  | some r => s.regWrite r v path
  | none => s

/-- DSW_WRITE: a write to a device state word (R525). -/
def execDswWrite (addr : BitVec 40) (value : Word) (s : State) : Host.Outcome State Fault Refusal :=
  .next (s.wordStore addr.toNat value .core)

end Sys2Proof.Machine
end

