-- ==== Sys2Proof/Machine/HostAccess.lean ====
section
/-! DEFINITION. Reads, writes and fills at local addresses for a host transaction or a wall-addressed request (R14 to
R16, R23, R24, R98, R408, R528, R529). -/

namespace Sys2Proof.Machine

/-- Status codes (Table 2.3). -/
def stOk : Nat := 0
def stAddress : Nat := 1
def stNoLease : Nat := 2
def stBusy : Nat := 3
def stFormat : Nat := 4
def stTimeout : Nat := 5
def stLinkDown : Nat := 6
def stAuth : Nat := 7

/-- R528: every word of the range lies in one listed block. -/
def inOneBlock (a n : Nat) : Bool :=
  decide (0xF000000000 ≤ a ∧ a + n ≤ 0xF001000000 ∧ a / 0x10000 = (a + n - 1) / 0x10000)
    && unitListed (a / 0x10000 % 0x10000)

/-- R529: words read one at a time in ascending order; each lies little-endian in the data. -/
def readWords : Nat → State → Nat → List Byte × State
  | 0, s, _ => ([], s)
  | k + 1, s, a =>
    let (w, s) := s.wordRead a
    let (l, s) := readWords k s (a + 4)
    (leBytes 4 w.toNat ++ l, s)

/-- R529: words written one at a time in ascending order. -/
def writeWords : Nat → State → Nat → List Byte → ResetPath → State
  | 0, s, _, _, _ => s
  | k + 1, s, a, l, path =>
    writeWords k (s.wordStore a (BitVec.ofNat 32 (leNat (l.take 4))) path) (a + 4) (l.drop 4) path

/-- A READ at a local address: its status, its data and the state after it. Uncorrectable data ends it with
ADDRESS_ERROR (R98). -/
def State.accessRead (s : State) (a n : Nat) : Nat × List Byte × State :=
  if touchesWords a n then
    if inOneBlock a n then
      let (l, s) := readWords (n / 4) s a
      (stOk, l, s)
    else (stAddress, [], s)
  else
    match s.load a n with
    | (.ok l, s) => (stOk, l, s)
    | (_, s) => (stAddress, [], s)

/-- A WRITE at a local address: its status and the state after it. -/
def State.accessWrite (s : State) (a : Nat) (l : List Byte) (path : ResetPath) : Nat × State :=
  if touchesWords a l.length then
    if inOneBlock a l.length then (stOk, writeWords (l.length / 4) s a l path) else (stAddress, s)
  else if s.writable a l.length then (stOk, s.store a l)
  else (stAddress, s)

/-- A pattern of 4 bytes over `n` bytes. -/
def fillBytes (p : List Byte) (n : Nat) : List Byte := ((List.replicate (n / 4) p).flatten).take n

/-- A FILL at a local address (R23, R24): none of device state words. -/
def State.accessFill (s : State) (a n : Nat) (p : List Byte) : Nat × State :=
  if s.writable a n then (stOk, s.store a (fillBytes p n)) else (stAddress, s)

end Sys2Proof.Machine
end

