-- ==== Sys2Proof/Machine/CoreMem.lean ====
section
/-! DEFINITION. Loads, stores and atomics of the Hour cores (R54, R57 to R61). Data is little-endian. -/

namespace Sys2Proof.Machine

/-! ### Access rules -/

/-- R61: the range is not one that user mode is refused: another core's local memory, device state words, the NVJ
window and the boot ROM. -/
def userMay (n : Fin 5) (a k : Nat) : Bool :=
  let own := 0xE000000000 + n.val * 0x40000
  decide (a < 0xE000000000) || decide (own ≤ a ∧ a + k ≤ own + 0x40000) || decide (0xE100000000 ≤ a ∧ a + k ≤ 0xE600000000)

/-- R16, R58: an aligned word of a listed block of device state words. -/
def wordAccess (a k : Nat) : Bool := k == 4 && a % 4 == 0 && inOneBlock a 4

/-- R58: a load of `k` bytes is not refused. -/
def State.loadAllowed (s : State) (n : Fin 5) (c : Core) (a k : Nat) : Bool :=
  (c.sup || userMay n a k) && (if touchesWords a k then wordAccess a k else s.inMemory a k || inNvjWindow a k || inBootRom a k)

/-- R15, R58, R278, R334, R338: a store of `k` bytes is not refused. -/
def State.storeAllowed (s : State) (n : Fin 5) (c : Core) (a k : Nat) : Bool :=
  (c.sup || userMay n a k) && (if touchesWords a k then wordAccess a k else s.writable a k)

/-- R60: an atomic is not refused: core local memories, common memory and DRAM. -/
def State.atomicAllowed (s : State) (n : Fin 5) (c : Core) (a : Nat) : Bool :=
  (c.sup || userMay n a 4) && s.inMemory a 4 && decide (a < 0xE200000000)

/-- The address of R54; none where bits [63:40] of the sum are not all zero. -/
def Core.dataAddr (c : Core) (ga : BitVec 5) (offset : BitVec 13) : Option Nat :=
  let t := (c.sum ga offset.toInt).toNat
  if t < 2 ^ 40 then some t else none

/-! ### Loads and stores -/

/-- A load of `k` bytes; `put` gives the destination its value (Table 3.4). Refusal comes before misalignment (R58), and
uncorrectable data causes the ECC trap (R98). -/
def loadInstr (n : Fin 5) (ga : BitVec 5) (offset : BitVec 13) (k : Nat) (put : Core → BitVec 64 → Core) (s : State)
    (c : Core) : Ends :=
  if !(isBase ga) then .trap trapIllegal 0
  else match c.dataAddr ga offset with
    | none => .trap trapAccess 0
    | some a =>
      if !(s.loadAllowed n c a k) then .trap trapAccess 0
      else if a % k ≠ 0 then .trap trapAlign 0
      else if touchesWords a k then
        let (v, s) := s.wordRead a
        .next (s.setCore n (put (s.core n) (v.setWidth 64)))
      else match s.load a k with
        | (.ok l, s) => .next (s.setCore n (put (s.core n) (BitVec.ofNat 64 (leNat l))))
        | (.ecc, s) => .trapAfter s trapEcc
        | (.refused, _) => .trap trapAccess 0

/-- A store of the low `k` bytes of a value (Table 3.4). -/
def storeInstr (n : Fin 5) (ga : BitVec 5) (offset : BitVec 13) (k : Nat) (v : BitVec 64) (s : State) (c : Core) : Ends :=
  if !(isBase ga) then .trap trapIllegal 0
  else match c.dataAddr ga offset with
    | none => .trap trapAccess 0
    | some a =>
      if !(s.storeAllowed n c a k) then .trap trapAccess 0
      else if a % k ≠ 0 then .trap trapAlign 0
      else if touchesWords a k then .next (s.wordStore a (v.setWidth 32) .core)
      else .next (s.store a (leBytes k v.toNat))

/-- LB: one byte, sign-extended (Table 3.4). -/
def execLb (n : Fin 5) (gd ga : BitVec 5) (offset : BitVec 13) (s : State) : Host.Outcome State Fault Refusal :=
  .next (s.runInstr n (loadInstr n ga offset 1 (fun c v => c.wg gd ((v.setWidth 8).signExtend 32)) s))

/-- LBU: one byte, zero-extended (Table 3.4). -/
def execLbu (n : Fin 5) (gd ga : BitVec 5) (offset : BitVec 13) (s : State) : Host.Outcome State Fault Refusal :=
  .next (s.runInstr n (loadInstr n ga offset 1 (fun c v => c.wg gd (v.setWidth 32)) s))

/-- LH: two bytes, sign-extended (Table 3.4). -/
def execLh (n : Fin 5) (gd ga : BitVec 5) (offset : BitVec 13) (s : State) : Host.Outcome State Fault Refusal :=
  .next (s.runInstr n (loadInstr n ga offset 2 (fun c v => c.wg gd ((v.setWidth 16).signExtend 32)) s))

/-- LHU: two bytes, zero-extended (Table 3.4). -/
def execLhu (n : Fin 5) (gd ga : BitVec 5) (offset : BitVec 13) (s : State) : Host.Outcome State Fault Refusal :=
  .next (s.runInstr n (loadInstr n ga offset 2 (fun c v => c.wg gd (v.setWidth 32)) s))

/-- LW: four bytes, or one device state word (Table 3.4, R58). -/
def execLw (n : Fin 5) (gd ga : BitVec 5) (offset : BitVec 13) (s : State) : Host.Outcome State Fault Refusal :=
  .next (s.runInstr n (loadInstr n ga offset 4 (fun c v => c.wg gd (v.setWidth 32)) s))

/-- LD: eight bytes into a pair; a gd that names no pair takes the ILLEGAL trap (Table 3.4, R52). -/
def execLd (n : Fin 5) (gd ga : BitVec 5) (offset : BitVec 13) (s : State) : Host.Outcome State Fault Refusal :=
  .next (s.runInstr n fun c =>
    if !(isPair gd) then .trap trapIllegal 0 else loadInstr n ga offset 8 (fun c v => c.setPair gd v) s c)

/-- SB (Table 3.4). -/
def execSb (n : Fin 5) (gd ga : BitVec 5) (offset : BitVec 13) (s : State) : Host.Outcome State Fault Refusal :=
  .next (s.runInstr n fun c => storeInstr n ga offset 1 ((c.rg gd).setWidth 64) s c)

/-- SH (Table 3.4). -/
def execSh (n : Fin 5) (gd ga : BitVec 5) (offset : BitVec 13) (s : State) : Host.Outcome State Fault Refusal :=
  .next (s.runInstr n fun c => storeInstr n ga offset 2 ((c.rg gd).setWidth 64) s c)

/-- SW: four bytes, or one device state word (Table 3.4, R58). -/
def execSw (n : Fin 5) (gd ga : BitVec 5) (offset : BitVec 13) (s : State) : Host.Outcome State Fault Refusal :=
  .next (s.runInstr n fun c => storeInstr n ga offset 4 ((c.rg gd).setWidth 64) s c)

/-- SD: eight bytes from a pair; a gd that names no pair takes the ILLEGAL trap (Table 3.4, R52). -/
def execSd (n : Fin 5) (gd ga : BitVec 5) (offset : BitVec 13) (s : State) : Host.Outcome State Fault Refusal :=
  .next (s.runInstr n fun c =>
    if !(isPair gd) then .trap trapIllegal 0 else storeInstr n ga offset 8 (c.pair gd) s c)

/-! ### Atomics -/

/-- R59, R60: an atomic; `f` gives what memory receives for the old word, none for no change. An old word that cannot be
corrected causes the ECC trap, and nothing is written (R98). -/
def atomicInstr (n : Fin 5) (gd ga : BitVec 5) (f : Word → Option Word) (s : State) (c : Core) : Ends :=
  if !(isBase ga) then .trap trapIllegal 0
  else match c.dataAddr ga 0 with
    | none => .trap trapAccess 0
    | some a =>
      if !(s.atomicAllowed n c a) then .trap trapAccess 0
      else if a % 4 ≠ 0 then .trap trapAlign 0
      else match s.load a 4 with
        | (.ok l, s) =>
          let old := BitVec.ofNat 32 (leNat l)
          let s := match f old with
            | some v => s.store a (leBytes 4 v.toNat)
            | none => s
          resultIn s n gd old
        | (.ecc, s) => .trapAfter s trapEcc
        | (.refused, _) => .trap trapAccess 0

/-- ATADD: gd receives the old word, and memory the old word plus gb (R59). -/
def execAtadd (n : Fin 5) (gd ga gb : BitVec 5) (s : State) : Host.Outcome State Fault Refusal :=
  .next (s.runInstr n fun c => atomicInstr n gd ga (fun old => some (old + c.rg gb)) s c)

/-- ATXCH: gd receives the old word, and memory gb (R59). -/
def execAtxch (n : Fin 5) (gd ga gb : BitVec 5) (s : State) : Host.Outcome State Fault Refusal :=
  .next (s.runInstr n fun c => atomicInstr n gd ga (fun _ => some (c.rg gb)) s c)

/-- ATCAS: gb names a pair; if the old word equals its even register, memory receives its odd register; gd receives the
old word (R59). -/
def execAtcas (n : Fin 5) (gd ga gb : BitVec 5) (s : State) : Host.Outcome State Fault Refusal :=
  .next (s.runInstr n fun c =>
    if !(isPair gb) then .trap trapIllegal 0
    else atomicInstr n gd ga (fun old => if old = c.rg gb then some (c.rg (gb + 1)) else none) s c)

end Sys2Proof.Machine
end

