-- ==== Sys2Proof/Machine/HostOps.lean ====
section
/-! DEFINITION. One host transaction (R22 to R30, R38, R45, R555, R559): its checks in order, its effect, its relay to a
tile, and the way its response takes (R37, R41, R386). -/

namespace Sys2Proof.Machine

/-! ### Headers -/

/-- A transaction header (Table 2.1). -/
structure TxnHead where
  type : Nat
  flags : Nat
  tag : Nat
  len : Nat
  addr : Nat

/-- The header of a transaction (Table 2.1). -/
def txnHead (l : List Byte) : TxnHead := ⟨beAt l 0 1, beAt l 1 1, beAt l 2 2, beAt l 4 4, beAt l 8 8⟩

/-- The request payload bytes that a header announces (R555). -/
def payloadLen (h : TxnHead) : Nat :=
  if h.type = 2 ∨ h.type = 5 then h.len else if h.type = 3 ∨ h.type = 4 then 4 else 0

/-- A transaction header with the fields given. -/
def headBytes (type flags tag len addr : Nat) : List Byte :=
  [BitVec.ofNat 8 type, BitVec.ofNat 8 flags] ++ beBytes 2 tag ++ beBytes 4 len ++ beBytes 8 addr

/-- A response (Table 2.1). -/
def responseBytes (h : TxnHead) (status : Nat) (payload : List Byte) : List Byte :=
  headBytes (h.type + 0x80) status h.tag payload.length h.addr ++ payload

/-- WALL = 1. -/
def TxnHead.wall (h : TxnHead) : Bool := bit h.flags 0

/-- R555: check 1. Table 2.2 gives STATUS an ADDRESS of 0, and FORMAT does not name an ADDRESS: a STATUS with another one
passes (DESIGN CHOICE, log entry 67). -/
def TxnHead.badFormat (h : TxnHead) : Bool :=
  let upper := if h.wall then 2 ^ 50 else 2 ^ 40
  let lengthOk := match h.type with
    | 1 | 2 => decide (4 ≤ h.len ∧ h.len ≤ 1024 ∧ h.len % 4 = 0 ∧ h.addr % 4 = 0)
    | 3 => decide (4 ≤ h.len ∧ h.len % 4 = 0 ∧ h.addr % 4 = 0) && (!h.wall || decide (h.len ≤ 67108860))
    | 4 => h.len == 4
    | 5 => if h.addr = 1 then h.len == 128 else if h.addr ≤ 3 then h.len == 0 else true
    | 6 => h.len == 0
    | _ => false
  decide (2 ≤ h.flags) || (h.wall && decide (3 < h.type)) || decide (upper ≤ h.addr) || !lengthOk

/-- The carrier of a host; the master sender has none. -/
def whoCarrier : Who → Option Carrier
  | .qspi => some .qspi
  | .channel .. => some .channel
  | .master => none

/-! ### Responses -/

/-- The HST record changed. -/
def State.modHst (s : State) (f : HstState → HstState) : State := { s with hst := f s.hst }

/-- R386: the mirror link can carry records to a partner in ROLE SHADOW. -/
def State.mirrors (s : State) : Bool := s.up 8 && s.on F.MIR_STAT_PARTNER && s.get F.MIR_STAT_PROLE == roleShadow

/-- The units of a HOSTREC (Table 15.1). -/
def State.recordUnits (s : State) (w : Who) (seq : Nat) (request response : List Byte) : List (BitVec 64) :=
  let body := bytesToUnits (request ++ response)
  headUnit 0x31 (3 + body.length) [(40, body.length), (0, seq)]
    :: unitOf [(48, s.get F.HST_LEASE_ID), (32, s.leaseRemain), (0, (seq + 1) % 2 ^ 32)]
    :: unitOf [(32, (Who.address w).1), (16, (Who.address w).2)] :: body

/-- A message of the host channel changed. -/
def State.modMsg (s : State) (q : Peer) (seq : Nat) (f : HostMsg → HostMsg) : State :=
  s.modHst fun h => { h with messages := h.messages.map fun m => if m.seq = seq ∧ m.peer = q then f m else m }

/-- A message whose transactions have all completed is answered, at once or when the partner has its records (R386); one
whose transactions were all dropped is not (R29). -/
def State.finishMessage (s : State) (q : Peer) (seq : Nat) : State :=
  match s.hst.messages.find? fun m => decide (m.seq = seq ∧ m.peer = q ∧ m.left = 0) with
  | none => s
  | some m =>
    let s := s.modHst fun h => { h with messages := h.messages.filter fun x => !(x.seq == seq && decide (x.peer = q)) }
    if m.responses.isEmpty then s else
    let (b, s) := s.responseMessages m.responses
    let hold (id : Nat) (frame : Option Nat) : State :=
      s.modHst fun h => { h with held := h.held ++ [⟨id, frame, .channel q.ip q.udp, some q, seq, b⟩] }
    match m.record with
    | none => s.sendResponse q seq b
    | some (id, none) => if s.up 8 then hold id none else s.sendResponse q seq b
    | some (id, some f) =>
      if s.up 8 && (s.port 8).kept.any (fun k => k.seq == f) then hold id (some f) else s.sendResponse q seq b

/-- R386: the record of a lease holder's transaction is queued on the mirror port under a number, or the response goes
alone. -/
def State.recordTxn (s : State) (x : HostTxn) (response : List Byte) : Option Nat × State :=
  if s.paired && s.role == roleLead && (x.held || s.isHolder x.who) then
    if s.mirrors then
      let id := s.hst.nextHeld
      let s := s.modHst fun h => { h with nextHeld := id + 1 }
      (some id, s.sendVc1 8 ⟨s.recordUnits x.who x.seq x.bytes response, none, false, some id⟩)
    else (none, s.set F.MIR_STAT_ALONE 1)
  else (none, s)

/-- A transaction of a host channel message has completed, or was dropped without response. -/
def State.channelDone (s : State) (q : Peer) (seq : Nat) (response : Option (List Byte)) : State :=
  (s.modMsg q seq fun m => { m with left := m.left - 1, responses := m.responses ++ response.toList }).finishMessage q seq

/-- The response of a host channel transaction: it joins its message, or without a message leaves as it is; a record holds
it until the partner has it (R386). -/
def State.respondChannel (s : State) (x : HostTxn) (r : List Byte) : State :=
  match x.peer with
  | some q =>
    let s := if s.isHolder x.who then s.modHst fun h => { h with holderPeer := some q } else s
    match s.recordTxn x r with
    | (some id, s) => (s.modMsg q x.seq fun m => { m with record := some (id, none) }).channelDone q x.seq (some r)
    | (none, s) => s.channelDone q x.seq (some r)
  | none => match s.recordTxn x r with
    | (some id, s) => s.modHst fun h => { h with held := h.held ++ [⟨id, none, x.who, none, x.seq, [r]⟩] }
    | (none, s) => s.emit (.response x.who r)

/-- The response of a transaction leaves on its carrier; the master's, which has none, is shown as it is. -/
def State.respond (s : State) (x : HostTxn) (r : List Byte) : State :=
  match x.who with
  | .qspi => s.modHst fun h => { h with responses := h.responses ++ [r] }
  | .channel .. => s.respondChannel x r
  | .master => s.emit (.response .master r)

/-- R29: a transaction dropped without response. -/
def State.dropHostTxn (s : State) (x : HostTxn) : State :=
  let s := s.dropTxn
  match x.peer with
  | some q => s.channelDone q x.seq none
  | none => s

/-! ### Checks -/

/-- R45: what the part accepts without a lease while it waits for a pushed image. -/
def bootAccepts (h : TxnHead) : Bool :=
  h.type == 6 || (h.type == 4 && h.addr == 0)
    || (h.type == 2 && !h.wall && decide (0xE100000000 ≤ h.addr ∧ h.addr + h.len ≤ 0xE100200000))

/-- After step 6 of Dusk the part accepts only STATUS (R487). -/
def State.quiescent (s : State) : Bool := s.stage == 7 && s.on F.BOT_DUSKSTAT_DONE

/-- R29, R38, R487, R559: the transaction is dropped. -/
def State.dropsTxn (s : State) (w : Who) (h : TxnHead) : Bool :=
  if s.quiescent && h.type != 6 then true
  else if s.retired then w != .qspi
  else if s.isTile then
    match w with
    | .qspi => !(h.type == 6 || (s.on F.HST_STAT_BOOTWAIT && bootAccepts h))
    | .channel .. => true
    | .master => !(s.isHolder w)
  else w == .master || s.dropsHost w

/-- R32: the transaction was accepted under a lease that its host held, and completes; after step 6 of Dusk and in RETIRED
other rules decide (R487, R559). -/
def State.accepted (s : State) (x : HostTxn) : Bool := x.held && !s.quiescent && !s.retired

/-- R30, R45, R559: check 2. -/
def State.needsLease (s : State) (w : Who) (h : TxnHead) : Bool :=
  if s.isHolder w then false
  else if s.retired then h.type != 5 && h.type != 6
  else if s.on F.HST_STAT_BOOTWAIT then !(bootAccepts h)
  else if s.isTile && w == .qspi then false
  else !(h.type == 6 || (h.type == 5 && h.addr != 2 && h.addr != 3))

/-- R559: in RETIRED only the NVJ window and the ASR block are read. -/
def State.retiredRefuses (s : State) (h : TxnHead) : Bool :=
  s.retired && decide (h.type ≤ 4) && !(h.type == 1 && !h.wall
    && (inNvjWindow h.addr h.len || decide (0xF000110000 ≤ h.addr ∧ h.addr + h.len ≤ 0xF000120000)))

/-! ### Effects -/

/-- R26, R45: a doorbell. -/
def State.doorbell (s : State) (n : Nat) (v : Word) : State :=
  let s := (s.wr (.HST_DBVAL n) v).raise (464 + n)
  if n = 0 then s.handOver else s

/-- A LEASE transaction by its subfunction. -/
def State.leaseTxn (s : State) (w : Who) (sub : Nat) (payload : List Byte) : LeaseAnswer :=
  match sub with
  | 0 => s.claim w
  | 1 => s.leaseResponse w payload
  | 2 => s.renew w
  | 3 => s.release w
  | _ => (stAddress, [], s)

/-- The effect of a transaction that is not relayed: its status, its response payload and the state after it. -/
def State.localTxn (s : State) (w : Who) (h : TxnHead) (payload : List Byte) : LeaseAnswer :=
  match h.type with
  | 1 => s.accessRead h.addr h.len
  | 2 =>
    let (st, s) := s.accessWrite h.addr (payload.take h.len) (resetPath (some w))
    (st, [], s)
  | 3 =>
    let (st, s) := s.accessFill h.addr h.len (payload.take 4)
    (st, [], s)
  | 4 => if 11 < h.addr then (stAddress, [], s)
    else (stOk, [], s.doorbell h.addr (BitVec.ofNat 32 (beNat (payload.take 4))))
  | 5 => s.leaseTxn w h.addr payload
  | _ => (stOk, s.statusPayload, s)

/-- R27, R181: a relayed transaction is refused at once with a status, or sent under a tag; none while no tag is free. -/
def State.relayTxn (s : State) (x : HostTxn) (c : Carrier) (h : TxnHead) (payload : List Byte) : Option State :=
  let chain := h.addr / 2 ^ 47
  let pos := h.addr / 2 ^ 40 % 128
  let refuse (st : Nat) : Option State := some (s.respond x (responseBytes h st []))
  if s.isTile || !(s.chainValid chain) then refuse stAddress
  else match s.wallRefusal chain pos with
    | some st => some ((s.txnEnded chain st).respond x (responseBytes h st []))
    | none =>
      let t := newTag chain pos (h.type - 1) (h.addr % 2 ^ 40) (h.len / 4) h.tag (.relay c)
      (s.sendRequest t (if h.type = 2 then payload else []) (BitVec.ofNat 32 (beNat (payload.take 4)))).map fun s =>
        s.modHst fun r => { r with inFlight := r.inFlight ++ [x] }

/-- One transaction executed (R555); none if it waits for a free tag. Whether R29 drops it is seen when it starts (DESIGN
CHOICE, log entry 68), but one received from the holder of the lease is neither dropped nor refused for the lease, which
may have ended since (R32). -/
def State.runTxn (s : State) (x : HostTxn) : Option State :=
  let h := txnHead x.bytes
  let x := { x with held := x.held || s.isHolder x.who }
  let payload := x.bytes.drop 16
  let answer (st : Nat) : Option State := some (s.respond x (responseBytes h st []))
  if s.dropsTxn x.who h && !(s.accepted x) then some (s.dropHostTxn x)
  else if h.badFormat then answer stFormat
  else if s.needsLease x.who h && !(s.accepted x) then answer stNoLease
  else if x.busy then answer stBusy
  else if s.retiredRefuses h then answer stAddress
  else match h.wall, whoCarrier x.who with
    | true, some c => s.relayTxn x c h payload
    | true, none => answer stAddress
    | false, _ =>
      let (st, l, s) := s.localTxn x.who h payload
      some (s.respond x (responseBytes h st l))

/-- R27: the completion of a relayed transaction goes to its host. -/
def State.relayDone (s : State) (c : Carrier) (hostTag status : Nat) (data : List Byte) : State :=
  match s.hst.inFlight.find? fun x => whoCarrier x.who == some c && (txnHead x.bytes).tag == hostTag with
  | none => s
  | some x =>
    (s.modHst fun h => { h with inFlight := h.inFlight.erase x }).respond x
      (responseBytes (txnHead x.bytes) status data)

/-- R398: a tag of the old lead's host completes to that host, if the part knows where it is. -/
def State.adoptedDone (s : State) (t : SendTag) (status : Nat) (data : List Byte) : State :=
  match s.hst.holderPeer with
  | none => s
  | some q =>
    let h : TxnHead := ⟨t.req + 1, 1, t.hostTag, 0, t.chain * 2 ^ 47 + t.position * 2 ^ 40 + t.addr⟩
    let (b, s) := s.newMessage 2 1 (padTxn (responseBytes h status data))
    s.sendToPeer q b

/-- R31: a RENEW that the holder sent waits to start. -/
def State.renewWaits (s : State) : Bool :=
  s.hst.waiting.any fun x =>
    let h := txnHead x.bytes
    s.isHolder x.who && h.type == 5 && h.addr == 2 && !h.badFormat && !x.busy

/-- LEASE_EXPIRY: the 1 ms tick at which expiry is evaluated: the lease ends once 1,250 ms have passed since the last grant
or renewal, unless a RENEW was received before (R31); a tile's lease does not expire (R28). -/
def execLeaseExpiry (s : State) : Host.Outcome State Fault Refusal :=
  .next (if s.leased && s.get F.HST_STAT_CARRIER != 3 && decide (s.hst.expiry ≤ s.tim.ticks) && !s.renewWaits then s.endLease
    else s)

end Sys2Proof.Machine
end

