-- ==== Sys2Proof/Machine/XferOps.lean ====
section
/-! DEFINITION. Transfers (R82, R83, R100 to R104, R528): what a descriptor starts, the pieces of a PUT or GET, and how a
transfer and a tag end (R183, R398). -/

namespace Sys2Proof.Machine

/-- A core's ticket changed. -/
def State.setTicket (s : State) (n : Fin 5) (i : Fin 16) (t : Ticket) : State :=
  s.setCore n { s.core n with tickets := (s.core n).tickets.set i t }

/-- The transfer in progress under a ticket. -/
def State.transfer (s : State) (n : Fin 5) (i : Fin 16) : Option Transfer := ((s.core n).tickets[i]).busy

/-- The transfer under a ticket changed. -/
def State.modTransfer (s : State) (n : Fin 5) (i : Fin 16) (f : Transfer → Transfer) : State :=
  let t := (s.core n).tickets[i]
  s.setTicket n i { t with busy := t.busy.map f }

/-- A range that a transfer may read: a memory, the NVJ window or the boot ROM (R15, R528). -/
def State.readable (s : State) (a n : Nat) : Bool := s.inMemory a n || inNvjWindow a n || inBootRom a n

/-- R102: the pieces of a PUT or GET: a boundary at every 1,024 bytes of the wall address. -/
def piecesFrom : Nat → Nat → Nat → Nat → List Piece
  | 0, _, _, _ => []
  | fuel + 1, wall, off, len =>
    if len ≤ off then []
    else
      let n := min (len - off) (1024 - (wall + off) % 1024)
      ⟨off, n, false, none⟩ :: piecesFrom fuel wall (off + n) len

/-- The one piece of a transfer that is refused as a whole. -/
def refusedPiece (status : Nat) : List Piece := [⟨0, 0, true, some status⟩]

/-- The pieces with which a transfer starts; a COPY or a FILL has none, and takes effect when it ends. -/
def State.startPieces (s : State) (kind len src dst : Nat) : List Piece :=
  if kind < 2 then []
  else if s.isTile then refusedPiece stAddress
  else if kind = 2 then (if s.readable src len then piecesFrom 16386 dst 0 len else refusedPiece stAddress)
  else if s.writable dst len then piecesFrom 16386 src 0 len
  else refusedPiece stAddress

/-- Piece `k` of a transfer has ended with a status. -/
def State.endPiece (s : State) (n : Fin 5) (i : Fin 16) (k status : Nat) : State :=
  s.modTransfer n i fun t => { t with pieces := modAt k (fun p => { p with sent := true, status := some status }) t.pieces }

/-- R102, R181: one piece: refused at once, or sent under a tag; none while no tag is free. -/
def State.sendPiece (s : State) (n : Fin 5) (i : Fin 16) (t : Transfer) (k : Nat) (p : Piece) : Option State :=
  let wall := ((if t.kind = 2 then t.dst else t.src) + p.off) % 2 ^ 50
  let chain := wall / 2 ^ 47
  let pos := wall / 2 ^ 40 % 128
  if !(s.chainValid chain) then some (s.endPiece n i k stAddress)
  else match s.wallRefusal chain pos with
    | some st => some ((s.txnEnded chain st).endPiece n i k st)
    | none =>
      let tag := newTag chain pos (if t.kind = 2 then 1 else 0) (wall % 2 ^ 40) (p.len / 4) 0 (.piece n i k)
      if (s.freeTag chain).isNone then none
      else
        let (data, s) : Option (List Byte) × State :=
          if t.kind = 2 then
            match s.load (t.src + p.off) p.len with
            | (.ok l, s) => (some l, s)
            | (_, s) => (none, s)
          else (some [], s)
        match data with
        | none => some (s.endPiece n i k stAddress)
        | some l => (s.sendRequest tag l 0).map fun s =>
            s.modTransfer n i fun t => { t with pieces := modAt k (fun p => { p with sent := true }) t.pieces }

/-- The pieces of a transfer not yet sent, in order, while tags are free. -/
def State.sendPieces (s : State) (n : Fin 5) (i : Fin 16) : State :=
  match s.transfer n i with
  | none => s
  | some t =>
    ((List.range t.pieces.length).foldl
      (fun (a : State × Bool) k =>
        match t.pieces[k]? with
        | some p => if a.2 && !p.sent then
            (match a.1.sendPiece n i t k p with
              | some s => (s, true)
              | none => (a.1, false))
          else a
        | none => a)
      (s, true)).1

/-- Every transfer that waits for a tag tries again. -/
def State.sendAllPieces (s : State) : State :=
  (List.finRange 5).foldl (fun s n => (List.finRange 16).foldl (fun s i => s.sendPieces n i) s) s

/-- The lowest ticket of a core with no transfer in progress (R82). -/
def Core.freeTicket (c : Core) : Option (Fin 16) := (List.finRange 16).find? fun i => (c.tickets[i]).busy.isNone

/-- A transfer starts under a ticket. -/
def State.startTransfer (s : State) (n : Fin 5) (i : Fin 16) (ctrl len src dst : Nat) : State :=
  let kind := ctrl % 4
  let t : Transfer := ⟨kind, bit ctrl 8, bits ctrl 12 4, len, src, dst, s.startPieces kind len src dst⟩
  (s.setTicket n i { (s.core n).tickets[i] with busy := some t }).sendPieces n i

/-- R103: the status of a PUT or GET: that of its lowest failing piece; none while a piece is under way. -/
def piecesStatus (l : List Piece) : Option Nat :=
  if l.all (·.status.isSome) then some ((l.findSome? fun p => match p.status with
    | some 0 => none
    | st => st).getD 0)
  else none

/-- The effect of a COPY at its end: its status and the state; after a failed read the destination bytes are free
(R98, R103). -/
def State.copyEnd (s : State) (t : Transfer) : Nat × State :=
  if !(s.readable t.src t.len && s.writable t.dst t.len) then (stAddress, s)
  else match s.load t.src t.len with
    | (.ok l, s) => (stOk, s.store t.dst l)
    | (_, s) =>
      let (l, s) := s.drawBytes t.len
      (stAddress, s.store t.dst l)

/-- The outcome of a transfer that can end now: its status and the state (R103). -/
def State.transferOutcome (s : State) (t : Transfer) : Option (Nat × State) :=
  if t.kind = 0 then some (s.copyEnd t)
  else if t.kind = 1 then some (s.accessFill t.dst t.len (leBytes 4 (t.src % 2 ^ 32)))
  else match piecesStatus t.pieces with
    | none => none
    | some 0 => some (0, s)
    | some st =>
      if t.kind = 3 && s.writable t.dst t.len && !s.isTile then
        let (l, s) := s.drawBytes t.len
        some (st, s.store t.dst l)
      else some (st, s)

/-- A transfer ends (R103, R104): its status is stored, its event becomes pending, and a core waiting for it resumes
(R83). -/
def State.endTransfer (s : State) (n : Fin 5) (i : Fin 16) (t : Transfer) (status : Nat) : State :=
  let s := s.setTicket n i ⟨none, status⟩
  let s := if t.even then s.raise (480 + t.evt) else s
  match s.coreState n == coreWaiting, (s.core n).wait with
  | true, some (.xwait gd k) => if k = i.val then s.wake n gd (BitVec.ofNat 32 status) else s
  | _, _ => s

/-- The data of a GET's piece go to their place (R102). -/
def State.pieceDone (s : State) (n : Fin 5) (i : Fin 16) (k status : Nat) (data : List Byte) : State :=
  match s.transfer n i with
  | none => s
  | some t =>
    let s := match t.kind == 3 && status == 0, t.pieces[k]? with
      | true, some p => if s.writable (t.dst + p.off) p.len then s.store (t.dst + p.off) (data.take p.len) else s
      | _, _ => s
    s.endPiece n i k status

/-- A core of a number. -/
def coreNo (n : Nat) : Fin 5 := ⟨n % 5, Nat.mod_lt _ (by decide)⟩

/-- A ticket of a number. -/
def ticketNo (i : Nat) : Fin 16 := ⟨i % 16, Nat.mod_lt _ (by decide)⟩

/-- R183: a tag completes with the status and the data that its tile gave, to the host relay, the transfer, or under
R398. -/
def State.completeTag (s : State) (t : SendTag) (status : Nat) (data : List Byte) : State :=
  let s := s.releaseTag t status
  let s := match t.owner with
    | .relay c => s.relayDone c t.hostTag status data
    | .piece n i k => s.pieceDone (coreNo n) (ticketNo i) k status data
    | .partner 0 => s.adoptedDone t status data
    | .partner _ => (s.count F.MIR_ORPHAN_COUNT 1).flag .MIR_EV 7
  s.sendAllPieces

end Sys2Proof.Machine
end

