-- ==== Sys2Proof/Machine/LinkRx.lean ====
section
/-! DEFINITION. What a part does with the cells, runs and markers that reach it (R167 to R192, Table 7.8): time and link
delay (R204, R205), positions and reports, announcements, show tokens, messages, wall-addressed requests and their
responses, and picture runs (R262 to R264); in a pair what R385, R391, R392 and R394 add. -/

namespace Sys2Proof.Machine

/-! ### Sides of a tile -/

/-- A tile's master side (R168); a tile without a master has none. -/
def State.onMaster (s : State) (p : Nat) : Bool := s.isTile && s.masterEpoch != 0 && p == s.masterPort

/-- The other port of a tile. -/
def otherPort (p : Nat) : Nat := 1 - p

/-- The tile holds this position (R172). -/
def State.ownPosition (s : State) (p : Nat) : Bool := s.on F.LNK_POS_VALID && s.get F.LNK_POS_POSITION == p

/-- R185: the announcement is higher than a master, first by epoch and then by the lower identity. -/
def higherThan (c : AnnounceCell) (epoch : BitVec 32) (id : BitVec 128) : Bool :=
  decide (epoch.toNat < c.epoch.toNat) || (c.epoch == epoch && c.epoch != 0 && decide (c.devid.toNat < id.toNat))

/-- R185: the announcement equals the tile's master. -/
def State.fromMaster (s : State) (c : AnnounceCell) : Bool :=
  s.masterEpoch != 0 && c.epoch == s.masterEpoch && c.devid == s.lnk.masterId

/-- R173, R185, Table 7.8: the tile sends this item on from its other port. -/
def State.forwards (s : State) (p : Nat) (c : Cell) : Bool :=
  let m := s.onMaster p
  s.isTile && decide (p < 2) && match c with
    | .announce a => higherThan a s.masterEpoch s.lnk.masterId || (m && s.fromMaster a)
    | .token _ | .retract _ => m
    | .msg c => if c.up then !m else m && !(s.ownPosition c.position.toNat && !c.all)
    | .request _ c => m && !(s.ownPosition c.position.toNat)
    | .gack _ | .response _ => !m
    | .report _ => true
    | _ => false

/-! ### Time and link delay -/

/-- The delay towards a port: the mean of R204 and the port's asymmetry. -/
def State.linkDelay (s : State) (p : Nat) : Int := (s.port p).ldMean + (s.rd (.TIM_ASYM p)).toInt

/-- R205: r, the local time at the receive balls of a port for a time-stamp that stands `age` before the present tick. -/
def State.rxTime (s : State) (p age : Nat) : Int := (s.now : Int) - age - s.portRxLat p

/-- R205: a TIME cell taken as a measurement. -/
def State.takeTime (s : State) (p : Nat) (c : TimeCell) (age : Nat) : State :=
  let o : Int := (wuOf c.sec.toNat c.ns.toNat c.frac.toNat : Nat) + c.corr.toInt + s.linkDelay p - s.rxTime p age
  let s := if s.isTile && s.tim.lastEpoch.isSome && s.tim.lastEpoch != some c.epoch then s.flag .TIM_EV 5 else s
  let s := { s with tim := { s.tim with lastEpoch := some c.epoch } }
  let s := s.set F.TIM_TCSTAT_HOPS c.hops.toNat
  let s := s.set F.TIM_TCSTAT_FROMB (b2n c.fromB)
  (s.set F.TIM_TCSTAT_SEQ c.seq.toNat).measure o

/-- R205: the TIME cell as it waits to be sent on; x − r is added to its CORRECTION while it is sent. -/
def State.timeForwarded (s : State) (p : Nat) (c : TimeCell) (age : Nat) : Vc0Item :=
  .forward { c with corr := BitVec.ofInt 64 (c.corr.toInt + s.linkDelay p), hops := c.hops + 1 } (s.rxTime p age)

/-- R186: LNK.EPOCH keeps the highest epoch seen on a chain. -/
def State.seeEpoch (s : State) (c : Nat) (e : BitVec 32) : State :=
  if (s.rd (.LNK_EPOCH c)).toNat < e.toNat then s.wr (.LNK_EPOCH c) e else s

/-- A TIME cell at any port (R203, R205, R385, Table 7.8). -/
def State.deliverTime (s : State) (p : Nat) (c : TimeCell) (age : Nat) : State :=
  if s.isTile then
    if !(s.onMaster p) then s.drop p
    else if !(s.on (F.TIM_LDELAY_VALID p)) then s
    else
      let out := s.timeForwarded p c age
      let s := if c.epoch = s.masterEpoch then s.takeTime p c age else s
      s.sendVc0 (otherPort p) out
  else if p = 8 then
    if s.get F.TIM_CFG_SRC = 3 ∧ s.role = roleShadow ∧ c.epoch = s.mir.partnerEpoch ∧ s.on (F.TIM_LDELAY_VALID 8) then
      s.takeTime 8 c age
    else s
  else if s.ringPort p then s.seeEpoch (s.chainOf p) c.epoch
  else s.drop p

/-- LDREQ: the answer carries the instant at which the request reached the receive balls (R204). -/
def State.takeLdreq (s : State) (p : Nat) (seq : BitVec 16) (age : Nat) : State :=
  s.sendVc0 p (.ldrsp seq (s.rxTime p age).toNat)

/-- The span of an LDRSP's T3 − T2, whose seconds are modulo 2^32. -/
def ldSpan (c : LdRsp) : Int :=
  let t (sec ns : BitVec 32) (frac : BitVec 16) : Int := (wuOf sec.toNat ns.toNat frac.toNat : Nat)
  let d := t c.t3sec c.t3ns c.t3frac - t c.t2sec c.t2ns c.t2frac
  if d < 0 then d + (wuOf (2 ^ 32) 0 0 : Nat) else d

/-- R204: a value kept: the mean, TIM.LDELAY and TIM.LDCNT. -/
def State.keepDelay (s : State) (p : Nat) (d : Int) : State :=
  let t := s.port p
  let mean := if t.ldKept = 0 then d else t.ldMean + fdiv (d - t.ldMean) 16
  let s := s.modPort p fun t => { t with ldMean := mean, ldKept := t.ldKept + 1 }
  let s := s.set (F.TIM_LDELAY_DELAY p) (fdiv mean 256).toNat
  let s := if 16 ≤ t.ldKept + 1 then s.set (F.TIM_LDELAY_VALID p) 1 else s
  s.count (F.TIM_LDCNT_COUNT p) 1

/-- R204: LDRSP: the link-delay value is kept or discarded. -/
def State.takeLdrsp (s : State) (p : Nat) (c : LdRsp) (age : Nat) : State :=
  match (s.port p).ldPending with
  | none => s
  | some (seq, t1) =>
    if seq ≠ c.seq then s
    else
      let s := s.modPort p fun t => { t with ldPending := none }
      let d := fdiv (s.rxTime p age - t1 - ldSpan c) 2
      if d < 0 ∨ 100000 * 65536 < d then s.flag .TIM_EV 10 else s.keepDelay p d

/-! ### Positions and announcements -/

/-- R120, R163: a port that is down, with both lanes ACTIVE, whose partner pairs now that the position has changed. -/
def State.recheckPos (s : State) (p : Nat) : State :=
  if !(s.up p) && decide (2 ≤ (s.activeLanes p).length) && s.pairsWith p (s.get (F.LNK_PSTAT_PKIND p)) then s.checkPort p
  else s

/-- R172, R173: POS at a tile's upstream port; the downstream port sends its own when that changes. With its position a
tile receives the lease of its master (R28, R120). -/
def State.takePos (s : State) (p : Nat) (value : Nat) (valid : Bool) : State :=
  if !s.isTile || p != 0 then s
  else
    let s := s.set F.LNK_POS_POSITION value
    let s := ((s.set F.LNK_POS_VALID (b2n valid)).refreshPos 1).recheckPos 1
    let s := if s.masterEpoch = 0 then s else s.masterLease s.lnk.masterId
    if valid && s.lastOfChain then s.reportOn 0 1 else s

/-- R185: an ANNOUNCE at a tile. -/
def State.tileAnnounce (s : State) (p : Nat) (c : AnnounceCell) : State :=
  if higherThan c s.masterEpoch s.lnk.masterId then
    ((s.wr .LNK_MASTER c.epoch).set F.LNK_POS_FEDB p).masterLease c.devid
  else if s.onMaster p && s.fromMaster c then s
  else s.drop p

/-- What follows when the feeding of a ring changes: due probes go out (R183), and READY follows the silent queues. -/
def State.refeed (s : State) : State := s.sendDueProbes.updateReady

/-- R401: the time of an armed handover has come. -/
def State.handoverRuns (s : State) : Bool :=
  match s.mir.handover with
  | some (th, _) => decide (th ≤ s.now)
  | none => false

/-- R186, R191, R382: an ANNOUNCE at a sender's chain port. -/
def State.senderAnnounce (s : State) (p : Nat) (c : AnnounceCell) : State :=
  let ch := s.chainOf p
  let own := s.rd (.LNK_EPOCH ch)
  let s := if s.isBEnd p && s.split ch && !c.fromB && decide (own.toNat ≤ c.epoch.toNat) then
      (s.set (F.LNK_RING_SPLIT ch) 0).refeed
    else s
  if higherThan c own s.devid then
    let s := (s.wr (.LNK_EPOCH ch) c.epoch).flagF (F.LNK_PSTAT_EVOUT p)
    let s := (s.set (F.LNK_PSTAT_OUTRANKED p) 1).modPort p fun t => { t with announcing := false }
    if s.paired && s.role == roleLead && !s.handoverRuns then s.depose else s
  else s

/-! ### Tokens and generations -/

/-- A show instant as a token carries it. -/
def tokenInstant (c : TokenCell) : Nat := wuOf c.sec.toNat c.ns.toNat c.frac.toNat

/-- R177: an accepted token with this show instant, which may have passed. -/
def State.tokenAt (s : State) (instant : Nat) : Option Token :=
  (s.lnk.tokens ++ s.lnk.shown).find? fun t => t.instant == instant

/-- R177: the token may be accepted. -/
def State.acceptsToken (s : State) (c : TokenCell) : Bool :=
  c.epoch == s.masterEpoch && decide (c.n.toNat ≤ 16 ∧ s.lnk.tokens.length < 4)
    && (match s.lnk.lastShow with
      | some t => decide (t < tokenInstant c)
      | none => true)

/-- R296: the commit window for a show instant has closed. -/
def State.windowClosed (s : State) (instant : Nat) : Bool :=
  (match s.cmp.closed with
    | some t => decide (instant ≤ t)
    | none => false) || decide (instant < s.now + s.period)

/-- R177, R264, R296: a token accepted; a late one counts, and only names its generations. -/
def State.acceptToken (s : State) (c : TokenCell) : State :=
  let t := tokenInstant c
  let late := s.windowClosed t
  let tok : Token := ⟨t, c.commit.toNat, c.layers, late⟩
  let s := { s with lnk := { s.lnk with tokens := s.lnk.tokens ++ [tok], lastShow := some t } }
  let s := c.layers.foldl State.nameGen (s.count F.LNK_TOKCNT_COUNT 1)
  if late then (s.count F.CMP_LATETOK_COUNT 1).flagF F.CMP_EV_EVLATE else s

/-- R177: a TOKEN on a tile's master side. -/
def State.tileToken (s : State) (p : Nat) (c : TokenCell) : State :=
  match s.tokenAt (tokenInstant c) with
  | some t =>
    if t.commit = c.commit.toNat ∧ t.layers = c.layers then s
    else s.drop p
  | none => if s.acceptsToken c then s.acceptToken c else s.drop p

/-- R176: an accepted token names a generation. -/
def State.tokenNames (s : State) (h g : Nat) : Bool :=
  (s.lnk.tokens ++ s.lnk.shown).any fun t => t.layers.any fun w => layerNames w h g

/-- R176: a RETRACT on a tile's master side; one that names a generation not pending or named by a token, or that carries
a wrong epoch, counts. -/
def State.tileRetract (s : State) (p : Nat) (c : RetractCell) : State :=
  if c.epoch = s.masterEpoch ∧ s.tokenNames c.handle.toNat c.gen.toNat = false then
    (s.retractGen c.handle.toNat c.gen.toNat true).getD (s.drop p)
  else s.drop p

/-- R262: a run or marker of a generation that is not opened is dropped and counted; one of a retracted generation counts
in LNK.DROP of its port too (Table 7.15). -/
def State.dropRun (s : State) (p : Nat) (x : Handle) (g : Nat) : State :=
  (if x.retracted = some g then s.drop p else s).count F.SRF_DROPCNT_COUNT 1

/-- R262, R176: a run of a generation begins at a port: the generation is held already, or is opened; otherwise the run is
dropped. A run of a later generation ends the record of a retracted one. -/
def State.startRun (s : State) (p h g : Nat) : State :=
  match s.handle h with
  | none => s
  | some x =>
    let x := match x.retracted with
      | some r => if genLater g r then { x with retracted := none } else x
      | none => x
    let s := s.setHandle h x
    match x.find g with
    | some j => if (x.slots.getD j Slot.empty).st = 5 then s.count F.SRF_DROPCNT_COUNT 1 else s
    | none =>
      if x.retracted == some g || x.stale g || x.noslot.contains g then s.dropRun p x g
      else match s.slotFor h x with
        | some j => s.openSlot h x j g
        | none => (((s.dropRun p x g).setHandle h { x with noslot := x.noslot ++ [g] }).count F.SRF_NOSLOT_COUNT 1).flag
            .SRF_EV 0

/-- R263, R264: one block of a run as it is kept. -/
def State.keepBlock (s : State) (h g raster : Nat) (l : List Byte) : State :=
  match (s.handle h).bind fun x => (x.find g).bind fun j => (x.windowIndex raster).map fun i => (x, j, i) with
  | none => s
  | some (x, j, i) =>
    let e := x.slots.getD j Slot.empty
    if e.st = 4 ∧ e.composed then (s.count F.SRF_LATECNT_COUNT 1).flag .SRF_EV 5
    else if (e.st ≠ 1 ∧ e.st ≠ 3 ∧ e.st ≠ 4) ∨ s.present x j i then s
    else if !(fmtRaw x.fmt) && !(compressedPasses x.fmt l) then (s.count F.SRF_RXCHK_COUNT 1).flag .SRF_EV 1
    else s.putBlock x j i l

/-- R174, R262, R264: a generation end at a tile: the count of missing blocks, all of them where the generation was not
opened. -/
def State.markGen (s : State) (p h g : Nat) : Nat × State :=
  match s.handle h with
  | none => (0, s)
  | some x =>
    match x.find g with
    | some j =>
      let e := x.slots.getD j Slot.empty
      if e.st = 5 then (x.blocks, s.count F.SRF_DROPCNT_COUNT 1)
      else
        let s := if e.st = 1 then (s.setHandle h (x.modSlot j fun e => { e with st := 3 })).reclaimTile h else s
        (s.missingBlocks x j, s)
    | none => (x.blocks, s.dropRun p x g)

/-- R174: the GACK of a tile. -/
def State.sendGack (s : State) (h g missing : Nat) : State :=
  s.sendCell s.masterPort (.gack ⟨BitVec.ofNat 7 (s.get F.LNK_POS_POSITION), s.masterEpoch, BitVec.ofNat 12 h,
    BitVec.ofNat 16 g, BitVec.ofNat 32 missing⟩)

/-- A generation end at a tile's master side (R174). -/
def State.tileGenEnd (s : State) (p h g : Nat) : State :=
  let (m, s) := s.markGen p h g
  s.sendGack h g m

/-- R175: the armed entries of a chain that a GACK matches. -/
def State.keyMatches (s : State) (c h g : Nat) : List Nat :=
  (List.range 16).filter fun e => s.on (F.LNK_GENKEY_ARM c e) && s.get (F.LNK_GENKEY_HANDLE c e) == h
    && s.get (F.LNK_GENKEY_GEN c e) == g

/-- R175: a GACK at port `p`, for chain `c`. -/
def State.takeGack (s : State) (p c : Nat) (x : GackCell) : State :=
  let l := s.keyMatches c x.handle.toNat x.gen.toNat
  let j := x.position.toNat / 32
  let b := x.position.toNat % 32
  let s := s.seeEpoch c x.epoch
  if l.isEmpty then s.drop p
  else l.foldl (fun s e =>
    let d := b2n (x.missing == 0)
    (s.set ⟨.LNK_GENDONE c e j, b, 1⟩ d).set ⟨.LNK_GENMISS c e j, b, 1⟩ (1 - d)) s

/-! ### Breaks and reports -/

/-- R188, R392: a REPORT of a break at the end that faces it. -/
def State.healRing (s : State) (p : Nat) (x : ReportCell) : State :=
  let c := s.chainOf p
  let announce (s : State) : State :=
    let e := max (s.rd (.LNK_EPOCH c)).toNat x.epoch.toNat + 1
    (s.wr (.LNK_EPOCH c) (BitVec.ofNat 32 e)).announceEnd p
  let split (s : State) (first : Nat) : State :=
    ((s.set (F.LNK_RING_BFIRST c) first).set (F.LNK_RING_SPLIT c) 1).refeed
  if !(s.ringPort p) || x.towardB != s.isBEnd p then s
  else if s.paired then
    let s := split s (x.position.toNat + b2n (!(s.isBEnd p)))
    if s.role = roleShadow ∧ s.on F.LNK_CFG_AUTOHEAL then announce s else s
  else if s.isBEnd p && s.on F.LNK_CFG_AUTOHEAL then split (announce s) x.position.toNat
  else s

/-- R173, R188: a REPORT at a sender port. -/
def State.takeReport (s : State) (p : Nat) (x : ReportCell) : State :=
  let s := (s.seeEpoch (s.chainOf p) x.epoch).flagF (F.LNK_PSTAT_EVBREAK p)
  if x.reason = 1 then
    if x.towardB then s else s.set (F.LNK_PSTAT_TILES (s.chainOf p)) (x.position.toNat + 1)
  else if x.reason = 0 then s.healRing p x
  else s

/-! ### Wall-addressed requests at a tile -/

/-- R182, R184: where the data of a READ under a tag is kept. -/
def State.replayAddr (s : State) (tag : Nat) : Nat := s.get F.LNK_RPLBASE_ADDR * 2 ^ 23 + tag * 1024

/-- A response of this tile towards its master side. -/
def State.sendResponseCell (s : State) (req : Nat) (c : RequestCell) (words status : Nat) (data : List Byte) : State :=
  s.sendCell s.masterPort (.response ⟨BitVec.ofNat 2 req, BitVec.ofNat 7 (s.get F.LNK_POS_POSITION), c.tag, c.tgen,
    BitVec.ofNat 16 words, BitVec.ofNat 8 status, data⟩)

/-- The effect of a request at this tile (R14 to R16, R182). -/
def State.runRequest (s : State) (req : Nat) (c : RequestCell) : LeaseAnswer :=
  let a := c.addr.toNat
  let n := 4 * c.words.toNat
  if a % 4 ≠ 0 then (stFormat, [], s)
  else match req with
    | 0 => s.accessRead a n
    | 1 =>
      let (st, s) := s.accessWrite a c.data .wall
      (st, [], s)
    | _ =>
      let (st, s) := s.accessFill a n (beBytes 4 c.pattern.toNat)
      (st, [], s)

/-- R184: the stored response again. -/
def State.replay (s : State) (c : RequestCell) (t : TileTag) : State :=
  if t.req ≠ 0 ∨ t.status ≠ 0 then s.sendResponseCell t.req c 0 t.status []
  else if t.keptData then
    match s.load (s.replayAddr t.tag) (4 * t.words) with
    | (.ok l, s) => s.sendResponseCell 0 c t.words 0 l
    | (_, s) => s.sendResponseCell 0 c 0 stAddress []
  else
    let (st, l, s) := s.accessRead t.addr (4 * t.words)
    s.sendResponseCell 0 c (if st = 0 then t.words else 0) st l

/-- R182: the record of a tag. -/
def State.tileTag (s : State) (tag tgen : Nat) : Option TileTag :=
  s.lnk.tileTags.find? fun t => t.tag == tag && t.tgen == tgen

/-- R182: a request at its tile: executed once, recorded and answered. -/
def State.takeRequest (s : State) (req : Nat) (c : RequestCell) : State :=
  let tag := c.tag.toNat
  let tgen := c.tgen.toNat
  match s.tileTag tag tgen with
  | some t => s.replay c t
  | none =>
    if s.lnk.refusedTags.contains (tag, tgen) || s.midnight then s
    else
      let (st, l, s) := s.runRequest req c
      let keep := req == 0 && st == 0 && s.on F.LNK_RPLBASE_EN
      let s := if keep && s.writable (s.replayAddr tag) l.length then s.store (s.replayAddr tag) l else s
      let rec' : TileTag := ⟨tag, tgen, req, c.addr.toNat, c.words.toNat, st, keep⟩
      let s := { s with lnk := { s.lnk with
        tileTags := rec' :: s.lnk.tileTags.filter fun t => t.tag != tag
        refusedTags := s.lnk.refusedTags.filter fun e => e.1 != tag } }
      s.sendResponseCell req c (if st = 0 ∧ req = 0 then c.words.toNat else 0) st l

/-- R184: a PROBE at its tile. -/
def State.takeProbe (s : State) (c : RequestCell) : State :=
  match s.tileTag c.tag.toNat c.tgen.toNat with
  | some t => s.replay c t
  | none =>
    let e := (c.tag.toNat, c.tgen.toNat)
    let s := { s with lnk := { s.lnk with refusedTags := e :: s.lnk.refusedTags.filter fun x => x.1 != e.1 } }
    s.sendResponseCell 3 c 0 stTimeout []

/-- R183: a response at the sender: it completes the tag it matches, or counts as stale. -/
def State.takeResponse (s : State) (p c : Nat) (x : ResponseCell) : State :=
  match s.lnk.tags.find? fun t => t.chain == c && t.tag == x.tag.toNat && t.tgen == x.tgen.toNat with
  | some t => s.completeTag t x.status.toNat x.data
  | none => s.stale p

/-! ### Delivery -/

/-- What a tile does itself with an item of VC1 or VC2 (Table 7.8). -/
def State.tileTake (s : State) (p : Nat) (c : Cell) : State :=
  let m := s.onMaster p
  match c with
  | .pos v valid => s.takePos p v.toNat valid
  | .announce a => s.tileAnnounce p a
  | .token t => if m then s.tileToken p t else s.drop p
  | .retract r => if m then s.tileRetract p r else s.drop p
  | .msg x =>
    if x.up then (if m then s.drop p else s)
    else if !m then s.drop p
    else if x.all || s.ownPosition x.position.toNat then s.takeMsg x.kind.toNat 0 false x.all p x.body
    else s
  | .request r x =>
    if !m then s.drop p
    else if s.ownPosition x.position.toNat then (if r = 3 then s.takeProbe x else s.takeRequest r x)
    else s
  | .gack _ | .response _ => if m then s.drop p else s
  | .report _ => s
  | _ => s.drop p

/-- R391: a cell passed to the partner. -/
def State.passOn (s : State) (chain : Nat) (toLead : Bool) (x : Cell) : State :=
  s.sendCell 8 (.pair (fwdUnits chain toLead x.units))

/-- What a sender does with a cell from the tiles that counts as arriving at its chain port `p` (R173, R175, R180,
R183). -/
def State.senderUp (s : State) (p : Nat) (x : Cell) : State :=
  let c := s.chainOf p
  match x with
  | .gack g => s.takeGack p c g
  | .report r => s.takeReport p r
  | .msg m => s.takeMsg m.kind.toNat m.position.toNat false m.all p m.body
  | .response r => s.takeResponse p c r
  | _ => s.drop p

/-- A cell of VC1 or VC2 at a sender's chain port. The far end of a ring consumes what its other end has sent, and
compares it while its queue is silent (R171, R394). -/
def State.senderTake (s : State) (p : Nat) (x : Cell) : State :=
  match x with
  | .announce a => s.senderAnnounce p a
  | .gack _ | .report _ | .response _ =>
    let shadow := s.paired && s.role == roleShadow
    let lead := s.paired && s.role == roleLead
    let s := s.senderUp p x
    match x with
    | .gack _ => if shadow then s.passOn p true x else if lead then s.passOn p false x else s
    | _ => if shadow then s.passOn p true x else s
  | .msg m =>
    if m.up then
      let s' := s.senderUp p x
      if s.paired && s.role == roleShadow then s'.passOn p true x else s'
    else if s.ringPort p then s
    else s.drop p
  | .token t =>
    if s.ringPort p then
      let s := s.seeEpoch (s.chainOf p) t.epoch
      if s.silent p then s.matchToken p t false else s
    else s.drop p
  | .retract r => if s.ringPort p then s.seeEpoch (s.chainOf p) r.epoch else s.drop p
  | .request .. => if s.ringPort p then s else s.drop p
  | _ => s.drop p

/-- R391: a FWD cell: the lead takes a tile's cell as at its own port; the shadow takes a GACK and sends a request or
message on. -/
def State.takeFwd (s : State) (chain : Nat) (toLead : Bool) (inner : List (BitVec 64)) : State :=
  if s.isTile || !s.paired then s
  else match Cell.decode inner with
    | none => s.drop 8
    | some x =>
      if toLead then (if s.role = roleLead then s.senderUp chain x else s)
      else if s.role ≠ roleShadow then s
      else match x with
        | .gack g => s.takeGack chain (s.chainOf chain) g
        | .request .. | .msg _ => s.sendCell chain x
        | _ => s.drop 8

/-- A pair cell (Table 15.1). -/
def State.takePair (s : State) (us : List (BitVec 64)) : State :=
  let u := fun i => us.getD i 0
  let u0 := u 0
  match uf u0 56 8 with
  | 0x30 => s.heartbeat (uf u0 46 2) (u0.getLsbD 45) (u0.getLsbD 44) ((u 0).extractLsb' 0 32) (uf (u 2) 32 32)
      (uf (u 2) 0 32)
  | 0x31 => s.hostRec us
  | 0x32 => s.takeJournal (u0.getLsbD 44) ⟨uf u0 45 3, uf u0 28 12, uf u0 24 4, uf u0 16 7, uf (u 1) 56 8,
      uf (u 1) 40 16, uf (u 1) 0 40, uf (u 2) 40 24, (u 2).getLsbD 39⟩
  | 0x33 => s.ckData (uf u0 32 16) (uf (u 1) 0 24) (us.drop 2)
  | 0x34 => s.ckDone (uf u0 32 16) (uf u0 0 13)
  | 0x35 => s.takeFwd (uf u0 45 3) (u0.getLsbD 44) (us.drop 1)
  | _ => s.drop 8

/-- A cell of VC1 or VC2 at the mirror port: pair cells and the partner's messages. -/
def State.mirrorTake (s : State) (x : Cell) : State :=
  match x with
  | .pair us => s.takePair us
  | .msg m => s.takeMsg m.kind.toNat 0 true m.all 8 m.body
  | _ => s.drop 8

/-- A cell of VC1 or VC2 that has arrived at a port: taken, and forwarded by a tile (R168); the credit it used is
returned when it has been consumed, or forwarded and sent (R165). -/
def State.deliver (s : State) (p : Nat) (c : Cell) : State :=
  let fwd := s.forwards p c
  let n := granules c.units.length
  let s := if s.isTile then s.tileTake p c else if p = 8 then s.mirrorTake c else s.senderTake p c
  if fwd && s.up (otherPort p) then
    let q : QCell := ⟨c.units, some p, false, none⟩
    if c.vc = 2 then s.sendVc2 (otherPort p) q else s.sendVc1 (otherPort p) q
  else s.giveCredit p c.vc n

/-- A cell of any channel that has arrived at a port, time-stamped `age` before the present tick. -/
def State.deliverAny (s : State) (p : Nat) (c : Cell) (age : Nat) : State :=
  match c with
  | .time t => s.deliverTime p t age
  | .ldreq seq => s.takeLdreq p seq age
  | .ldrsp r => s.takeLdrsp p r age
  | c => s.deliver p c

/-- One block of a run that has arrived whole: kept by a tile, or put into the cross-check of a silent queue (R394). -/
def State.deliverBlock (s : State) (p h g raster : Nat) (us : List (BitVec 64)) : State :=
  if s.isTile then s.keepBlock h g raster (unitsToBytes us)
  else if s.silent p then s.modRunCrc p h g false fun r => { r with crc := runCrcStep r.crc raster (unitsToBytes us) }
  else s

/-- R168, R394: a generation end that has arrived. -/
def State.deliverGenEnd (s : State) (p h g : Nat) : State :=
  if s.isTile then
    if !(s.onMaster p) then s.drop p
    else
      let s := s.tileGenEnd p h g
      if s.up (otherPort p) then
        s.modPort (otherPort p) fun t => { t with vc3 := t.vc3 ++ [.genEnd h g (some p) none] }
      else s
  else if s.silent p then s.endRun p h g false
  else if decide (p < 8) && s.ringPort p then s
  else s.drop p

/-- The units of a block of a handle; none where the part does not hold the handle. -/
def State.blockUnits (s : State) (h : Nat) : Option Nat := (s.handle h).map fun x => blockBytes x.fmt / 8

/-- Whole blocks taken from the units of a run. -/
def takeBlocks : Nat → State → Nat → RunRx → Nat → State × RunRx
  | 0, s, _, r, _ => (s, r)
  | fuel + 1, s, p, r, n =>
    if n = 0 ∨ r.units.length < n then (s, r)
    else
      takeBlocks fuel (s.deliverBlock p r.handle r.gen r.block (r.units.take n)) p
        { r with block := r.block + 1, units := r.units.drop n } n

/-- The units of a run segment (R157, R168); a tile sends the segment on whole. -/
def State.deliverRun (s : State) (p h g block : Nat) (cont : Bool) (us : List (BitVec 64)) : State :=
  let gran := granules us.length
  if s.isTile && !(s.onMaster p) then (if cont then s else s.drop p).giveCredit p 3 gran
  else
    let r : RunRx := if cont then ((s.port p).runRx.getD ⟨h, g, block, []⟩) else ⟨h, g, block, []⟩
    let s := if s.isTile && !cont then s.startRun p h g else s
    let r := { r with units := r.units ++ us }
    let (s, r) := match s.blockUnits r.handle with
      | some n => takeBlocks us.length s p r n
      | none => (s, { r with units := [] })
    let s := s.modPort p fun t => { t with runRx := some r }
    if s.isTile && s.up (otherPort p) then
      s.modPort (otherPort p) fun t => { t with vc3 := t.vc3 ++ [.run h g block us cont (some p) gran] }
    else if s.isTile || (decide (p < 8) && s.ringPort p) then s.giveCredit p 3 gran
    else (if cont then s else s.drop p).giveCredit p 3 gran

/-! ### Cells one by one -/

/-- TIME_CELL (R205). -/
def execTimeCell (p : Fin 9) (cell : TimeCell) (age : BitVec 24) (s : State) : Host.Outcome State Fault Refusal :=
  .next (s.deliverTime p cell age.toNat)

/-- LDREQ (R204), time-stamped at the present tick. -/
def execLdreq (p : Fin 9) (seq : BitVec 16) (s : State) : Host.Outcome State Fault Refusal := .next (s.takeLdreq p seq 0)

/-- LDRSP (R204), time-stamped at the present tick. -/
def execLdrsp (p : Fin 9) (cell : LdRsp) (s : State) : Host.Outcome State Fault Refusal := .next (s.takeLdrsp p cell 0)

/-- POS (R172). -/
def execPos (p : Fin 9) (value : BitVec 7) (valid : Bool) (s : State) : Host.Outcome State Fault Refusal :=
  .next (s.deliver p (.pos value valid))

/-- ANNOUNCE at a tile (R185). -/
def execAnnounce (p : Fin 9) (cell : AnnounceCell) (s : State) : Host.Outcome State Fault Refusal :=
  .next (if s.isTile then s.deliver p (.announce cell) else s)

/-- ANNOUNCE_AT_SENDER (R186, R191). -/
def execAnnounceAtSender (p : Fin 9) (cell : AnnounceCell) (s : State) : Host.Outcome State Fault Refusal :=
  .next (if s.isTile then s else s.deliver p (.announce cell))

/-- TOKEN (R177). -/
def execToken (p : Fin 9) (cell : TokenCell) (s : State) : Host.Outcome State Fault Refusal :=
  .next (s.deliver p (.token cell))

/-- RETRACT (R176). -/
def execRetract (p : Fin 9) (cell : RetractCell) (s : State) : Host.Outcome State Fault Refusal :=
  .next (s.deliver p (.retract cell))

/-- GACK (R175). -/
def execGack (p : Fin 9) (cell : GackCell) (s : State) : Host.Outcome State Fault Refusal :=
  .next (s.deliver p (.gack cell))

/-- REPORT (R173, R188). -/
def execReport (p : Fin 9) (cell : ReportCell) (s : State) : Host.Outcome State Fault Refusal :=
  .next (s.deliver p (.report cell))

/-- MSG_CELL (R180). -/
def execMsgCell (p : Fin 9) (cell : MsgCell) (s : State) : Host.Outcome State Fault Refusal :=
  .next (s.deliver p (.msg cell))

/-- WALL_READ (R182). -/
def execWallRead (p : Fin 9) (cell : RequestCell) (s : State) : Host.Outcome State Fault Refusal :=
  .next (s.deliver p (.request 0 cell))

/-- WALL_WRITE (R182). -/
def execWallWrite (p : Fin 9) (cell : RequestCell) (s : State) : Host.Outcome State Fault Refusal :=
  .next (s.deliver p (.request 1 cell))

/-- WALL_FILL (R182). -/
def execWallFill (p : Fin 9) (cell : RequestCell) (s : State) : Host.Outcome State Fault Refusal :=
  .next (s.deliver p (.request 2 cell))

/-- PROBE (R184). -/
def execProbe (p : Fin 9) (cell : RequestCell) (s : State) : Host.Outcome State Fault Refusal :=
  .next (s.deliver p (.request 3 cell))

/-- WALL_RESPONSE (R183). -/
def execWallResponse (p : Fin 9) (cell : ResponseCell) (s : State) : Host.Outcome State Fault Refusal :=
  .next (s.deliver p (.response cell))

/-- PICTURE_RUN: a run of whole blocks (R262 to R264). -/
def execPictureRun (p : Fin 9) (handle : BitVec 12) (gen : BitVec 16) (block : BitVec 19) (units : List (BitVec 64))
    (s : State) : Host.Outcome State Fault Refusal :=
  .next (s.deliverRun p handle.toNat gen.toNat block.toNat false units)

/-- GENERATION_END (R174). -/
def execGenerationEnd (p : Fin 9) (handle : BitVec 12) (gen : BitVec 16) (s : State) : Host.Outcome State Fault Refusal :=
  .next (s.deliverGenEnd p handle.toNat gen.toNat)

/-- FWD (R391). -/
def execFwd (chain : Fin 8) (toLead : Bool) (inner : List (BitVec 64)) (s : State) : Host.Outcome State Fault Refusal :=
  .next (s.takeFwd chain toLead inner)

end Sys2Proof.Machine
end

