-- ==== Sys2Proof/Machine/CoreXfer.lean ====
section
/-! DEFINITION. MSG, XFER and XWAIT, and the end of a transfer (R81 to R83, R100 to R104, R179, R391). -/

namespace Sys2Proof.Machine

/-- An address in core `n`'s local memory or in common memory, aligned (R81, R87, R88, R101). -/
def nearMemory (n : Fin 5) (a : BitVec 64) (k align : Nat) : Bool :=
  let x := a.toNat
  let own := 0xE000000000 + n.val * 0x40000
  decide (x % align = 0) && (decide (own ≤ x ∧ x + k ≤ own + 0x40000) || decide (0xE100000000 ≤ x ∧ x + k ≤ 0xE100200000))

/-! ### Messages -/

/-- Where a message goes: a port of this part, or the partner's port of a chain through the mirror port. -/
inductive MsgWay where
  | own (p : Nat)
  | partner (chain : Nat)
deriving DecidableEq, Repr

/-- The port whose queue a message needs. -/
def MsgWay.port : MsgWay → Nat
  | .own p => p
  | .partner _ => 8

/-- R179, R391: the ways of a message to a position, or to every tile of a chain, that are up. -/
def State.msgWays (s : State) (c pos : Nat) (all : Bool) : List MsgWay :=
  let own (p : Option Nat) : List MsgWay := match p with
    | some p => if s.up p then [.own p] else []
    | none => if s.partnerEnd c then [.partner c] else []
  if all && s.split c then
    if s.paired then own (s.aPort c) ++ own (s.bPort c) else own (some c) ++ own (some (c + 1))
  else own (s.feedPort c (if all then 0 else pos))

/-- A message put in the queue of one of its ways. -/
def State.sendMsg (s : State) (x : Cell) (w : MsgWay) : State :=
  match w with
  | .own p => s.sendVc1 p ⟨x.units, none, true, none⟩
  | .partner c => s.sendVc1 8 ⟨fwdUnits c false x.units, none, true, none⟩

/-- R81: a message on its ways: its status, and the state with it queued. -/
def State.queueMsg (s : State) (x : Cell) (ways : List MsgWay) : Nat × State :=
  if ways.any fun w => decide (32 ≤ s.msgsWaiting w.port) then (stBusy, s)
  else if ways.isEmpty then (stLinkDown, s)
  else (stOk, ways.foldl (fun s w => s.sendMsg x w) s)

/-- R81, Table 3.12: a message with its control and destination words. -/
def State.message (s : State) (ctl dst : Word) (body : List Byte) : Nat × State :=
  let kind := ctl.extractLsb' 16 8
  let cell (pos : BitVec 7) (all up : Bool) : Cell := .msg ⟨kind, pos, all, up, body⟩
  if s.isTile then
    s.queueMsg (cell (BitVec.ofNat 7 (s.get F.LNK_POS_POSITION)) false true)
      (if s.up s.masterPort then [.own s.masterPort] else [])
  else if dst.getLsbD 30 then s.queueMsg (cell 0 (dst.getLsbD 31) false) (if s.up 8 then [.own 8] else [])
  else
    let c := getBits dst 16 3
    if !(s.chainValid c) then (stAddress, s)
    else s.queueMsg (cell (dst.extractLsb' 0 7) (dst.getLsbD 31) false) (s.msgWays c (getBits dst 0 7) (dst.getLsbD 31))

/-- MSG: ga names the pair with the body's address, gb the pair with control and destination (R81). The bits of the pair
gb that Table 3.12 does not list are ignored (DESIGN CHOICE, log entry 70). -/
def execMsg (n : Fin 5) (gd ga gb : BitVec 5) (s : State) : Host.Outcome State Fault Refusal :=
  .next (s.runInstr n fun c =>
    let ctl := c.rg gb
    let dst := c.rg (gb + 1)
    let len := getBits ctl 0 9
    let a := c.pair ga
    if !(isPair ga) || !(isPair gb) then .trap trapIllegal 0
    else if len < 4 ∨ 256 < len ∨ len % 4 ≠ 0 ∨ (s.isTile ∧ dst ≠ 0) then .trap trapArgument 0
    else if !(nearMemory n a len 4 && s.inMemory a.toNat len) then resultIn s n gd (BitVec.ofNat 32 stAddress)
    else match s.load a.toNat len with
      | (.ok body, s) =>
        let (st, s) := s.message ctl dst body
        resultIn s n gd (BitVec.ofNat 32 st)
      | (_, s) => resultIn s n gd (BitVec.ofNat 32 stAddress))

/-! ### Transfers -/

/-- The fields of a descriptor (Table 4.2). -/
structure Descriptor where
  ctrl : Nat
  len : Nat
  src : Nat
  dst : Nat
  rest : Nat

/-- A descriptor of 32 bytes. -/
def descriptorOf (l : List Byte) : Descriptor := ⟨leAt l 0 4, leAt l 4 4, leAt l 8 8, leAt l 16 8, leAt l 24 8⟩

/-- R101: no reserved bit, LENGTH and alignment within Table 4.2, and a COPY whose ranges do not overlap. -/
def Descriptor.ok (d : Descriptor) : Bool :=
  let kind := d.ctrl % 4
  decide (d.ctrl = kind + b2n (bit d.ctrl 8) * 256 + bits d.ctrl 12 4 * 4096) && d.rest == 0
    && decide (4 ≤ d.len ∧ d.len ≤ 16777216 ∧ d.len % 4 = 0 ∧ d.dst % 4 = 0)
    && (match kind with
      | 0 => decide (d.src % 4 = 0) && !(meets d.src d.len d.dst d.len)
      | 1 => decide (d.src < 2 ^ 32)
      | 2 => decide (d.src % 4 = 0 ∧ d.dst < 2 ^ 50)
      | _ => decide (d.src % 4 = 0 ∧ d.src < 2 ^ 50))

/-- XFER (R82, R101); with every ticket in progress the core waits, and executes XFER again when one ends. -/
def State.xferInstr (s : State) (n : Fin 5) (gd ga : BitVec 5) (c : Core) : Ends :=
  let a := c.pair ga
  if !(isPair ga) then .trap trapIllegal 0
  else if !(nearMemory n a 32 8 && s.inMemory a.toNat 32) then .trap trapAccess 0
  else match s.load a.toNat 32 with
    | (.ok l, s) =>
      let d := descriptorOf l
      if !d.ok then .trap trapArgument 0
      else match c.freeTicket with
        | none => .waits s (.xfer gd ga)
        | some i => resultIn (s.startTransfer n i d.ctrl d.len d.src d.dst) n gd (BitVec.ofNat 32 i.val)
    | (.ecc, s) => .trapAfter s trapEcc
    | (.refused, _) => .trap trapAccess 0

/-- XFER (R82). -/
def execXfer (n : Fin 5) (gd ga : BitVec 5) (s : State) : Host.Outcome State Fault Refusal :=
  .next (s.runInstr n (s.xferInstr n gd ga))

/-- XWAIT: the status of the transfer last started under ticket ga, once it has ended (R83). -/
def execXwait (n : Fin 5) (gd ga : BitVec 5) (s : State) : Host.Outcome State Fault Refusal :=
  .next (s.runInstr n fun c =>
    let k := (c.rg ga).toNat
    if 15 < k then .trap trapArgument 0
    else
      let t := c.tickets[ticketNo k]
      if t.busy.isSome then .waits s (.xwait gd k) else resultIn s n gd (BitVec.ofNat 32 t.status))

/-- A core that waits for a free ticket executes its XFER again (R82). -/
def State.retryXfer (s : State) (n : Fin 5) : State :=
  match s.coreState n == coreWaiting, (s.core n).wait with
  | true, some (.xfer gd ga) =>
    let s := (s.setCore n { s.core n with wait := none }).set (F.HRC_STAT_STATE n) coreRunning
    s.runInstr n (s.xferInstr n gd ga)
  | _, _ => s

/-- TRANSFER_END: a transfer whose pieces have all ended, or a COPY or FILL, ends (R103, R104). After Midnight transfers
have stopped (Table 20.10). -/
def execTransferEnd (n : Fin 5) (ticket : Fin 16) (s : State) : Host.Outcome State Fault Refusal :=
  .next (match s.midnight, s.transfer n ticket with
    | false, some t =>
      match s.transferOutcome t with
      | some (st, s) => (s.endTransfer n ticket t st).retryXfer n
      | none => s
    | _, _ => s)

end Sys2Proof.Machine
end

