-- ==== Sys2Proof/Machine/CoreDev.lean ====
section
/-! DEFINITION. Stepping the time, display commits, the non-volatile journal, hashing, spares and the substitution of
Hour cores (R80, R84 to R89, R105 to R108, R200), and the tick of the time domain (R193, R355). -/

namespace Sys2Proof.Machine

/-! ### Time -/

/-- R200: on a tile the accepted tokens whose instants had not passed are discarded and counted, and bound acceptance no
longer. -/
def State.stepTokens (s : State) : State :=
  let gone := s.lnk.tokens.filter fun t => decide (s.now < t.instant)
  let p := s.masterPort
  let s := { s with
    lnk := { s.lnk with
      tokens := s.lnk.tokens.filter (fun t => decide (t.instant ≤ s.now)), shown := [], lastShow := none }
    cmp := { s.cmp with closed := none } }
  (gone.foldl (fun s _ => s.drop p) s).passFences

/-- R80, R200, R201: the held step is applied: 0, or 1 where none is held. -/
def State.tstep (s : State) : Nat × State :=
  if !(s.on F.TIM_STAT_STEPPEND) then (1, s)
  else
    if s.isTile then (0, s.stepTokens.applyStep.stepDark.rebaseGrid) else (0, s.applyStep)

/-- TSTEP (R80). -/
def execTstep (n : Fin 5) (gd : BitVec 5) (s : State) : Host.Outcome State Fault Refusal :=
  .next (s.runInstr n fun c => guarded s c true false
    (let (v, s) := s.tstep
    resultIn s n gd (BitVec.ofNat 32 v)))

/-- R355: microseconds of darkness after `count` more ticks. -/
def State.countDark (s : State) (count : Nat) : State :=
  if s.isTile && s.on F.SCN_STAT_DARK then
    let s := s.modScn fun c => { c with darkTicks := c.darkTicks + count }
    s.wr .SCN_DARKUS (BitVec.ofNat 32 (s.scn.darkTicks * 4 / 625))
  else s

/-- TIME_TICK: `count` ticks of the 156.25 MHz domain (R193); the dark time counts (R355), a codec command may end (R258),
and a gate waiting for its block to be idle may close (R456, R457). -/
def execTimeTick (count : Nat) (s : State) : Host.Outcome State Fault Refusal :=
  .next ((({ s with tim := s.tim.advance s.rate count }.countDark count).codecTick).tryGates)

/-! ### Display commits -/

/-- R84: COMMIT of an id on a slot: 0 bound, unbound or unchanged, 1 refused. -/
def State.commit (s : State) (id : Word) (k : Nat) : Nat × State :=
  let inUse := s.get F.CMP_STAT_SLOT
  let bound := s.rd (.CMP_BIND k)
  if inUse = k then (1, s)
  else if id = 0 then (0, s.wr (.CMP_BIND k) 0)
  else if bound = id then (0, s)
  else if bound ≠ 0 ∨ s.rd (.CMP_BIND (1 - k)) = id ∨ (inUse ≠ 2 ∧ s.rd .CMP_CID = id) then (1, s)
  else (0, s.wr (.CMP_BIND k) id)

/-- COMMIT (R84). -/
def execCommit (n : Fin 5) (gd ga gb : BitVec 5) (s : State) : Host.Outcome State Fault Refusal :=
  .next (s.runInstr n fun c => guarded s c true true
    (if 1 < (c.rg gb).toNat then .trap trapArgument 0
    else
      let (v, s) := s.commit (c.rg ga) (c.rg gb).toNat
      resultIn s n gd (BitVec.ofNat 32 v)))

/-- R85: SCANSW for the groups of a mask: 0 armed or cancelled, 1 refused. -/
def State.armScan (s : State) (mask : Nat) (id : Word) : Nat × State :=
  let gs := (List.range 16).filter fun g => bit mask g
  if id = 0 then (0, gs.foldl (fun s g =>
    ((s.set (F.SCN_GSTAT_ARMED g) 0).wr (.SCN_GARM g) 0).modScn fun c =>
      { c with switches := c.switches.filter fun e => e.2 != g }) s)
  else if gs.any fun g => s.on (F.SCN_GSTAT_ARMED g) && s.rd (.SCN_GARM g) != id then (1, s)
  else (0, gs.foldl (fun s g => (s.set (F.SCN_GSTAT_ARMED g) 1).wr (.SCN_GARM g) id) s)

/-- SCANSW (R85). -/
def execScansw (n : Fin 5) (gd ga gb : BitVec 5) (s : State) : Host.Outcome State Fault Refusal :=
  .next (s.runInstr n fun c => guarded s c true true
    (if 65535 < (c.rg ga).toNat then .trap trapArgument 0
    else
      let (v, s) := s.armScan (c.rg ga).toNat (c.rg gb)
      resultIn s n gd (BitVec.ofNat 32 v)))

/-! ### The non-volatile journal -/

/-- The page state that NVRD returns (R86). -/
def State.pageState (s : State) (page : Nat) : Word := BitVec.ofNat 32 (s.nvCount page + 65536 * b2n (s.nvSpare page))

/-- NVRD (R86). -/
def execNvrd (n : Fin 5) (gd ga : BitVec 5) (s : State) : Host.Outcome State Fault Refusal :=
  .next (s.runInstr n fun c => guarded s c true false
    (if 127 < (c.rg ga).toNat then .trap trapArgument 0 else resultIn s n gd (s.pageState (c.rg ga).toNat)))

/-- R497, Table 21.1: NVWR may write the page in the current life-cycle state. -/
def State.pageOpen (s : State) (page : Nat) : Bool := decide (page ≤ 15 ∧ s.lifeCycle ≠ 2 ∧ s.lifeCycle ≠ 4)

/-- R498, Table 3.13: how NVWR begins: 0 for a write that goes on, else the result of its refusal. -/
def State.nvwrCheck (s : State) (page : Nat) : Nat := if s.pageOpen page then s.nvCheck 1 else 3

/-- NVWR: the 32 bytes at the address in pair gb go to page ga; a refused write ends at once, and the core waits for any
other (R87, R498). -/
def execNvwr (n : Fin 5) (gd ga gb : BitVec 5) (s : State) : Host.Outcome State Fault Refusal :=
  .next (s.runInstr n fun c =>
    if !(isPair gb) then .trap trapIllegal 0
    else guarded s c true false (
      let page := (c.rg ga).toNat
      let a := c.pair gb
      if 127 < page then .trap trapArgument 0
      else if !(nearMemory n a 32 32 && s.inMemory a.toNat 32) then .trap trapAccess 0
      else match s.load a.toNat 32 with
        | (.ok l, s) =>
          match s.nvwrCheck page with
          | 0 => .waits ((s.nvPay 1).nvQueue ⟨.core n gd, [(page, l)], false⟩) (.nvwr gd page l)
          | r => resultIn (s.nvRefused r) n gd (BitVec.ofNat 32 r)
        | (.ecc, s) => .trapAfter s trapEcc
        | (.refused, _) => .trap trapAccess 0))

/-- NVWR_COMPLETE: the page of a core's NVWR in hand has been programmed and verified, or not; the core resumes with 0
or 4 (R87, R500). -/
def execNvwrComplete (n : Fin 5) (verified : Bool) (s : State) : Host.Outcome State Fault Refusal :=
  .next (match s.asr.jobs with
    | ⟨.core m gd, (page, l) :: _, _⟩ :: _ =>
      if m ≠ n then s
      else
        let (ok, s) := s.nvEndPage page l verified
        let r := if ok then 0 else 4
        let s := (s.set F.ASR_NVSTAT_LASTRES r).nvPop
        (if (s.core n).holdsHalt then s.wake n gd (BitVec.ofNat 32 r) else s).midnightEnd
    | _ => s)

/-! ### Hashing -/

/-- The first `k` words of `w` bits from bytes. -/
def shaWords (w k : Nat) (l : List Byte) : List (BitVec w) :=
  (chunks (w / 8) k l).map fun c => BitVec.ofNat w (beNat c)

/-- One HASH call of one algorithm: the chaining value, the data, the bytes hashed before, and FINAL: the new chaining
value. -/
def shaCall {w : Nat} (p : Sha w) (init : List (BitVec w)) (st data : List Byte) (total : Nat) (final : Bool) : List Byte :=
  let v := if total = 0 then init else shaWords w 8 st
  let n := total + data.length
  shaBytes (shaBlocks p v (if final then data ++ shaPad w n (data.length % (2 * w)) else data))

/-- What HASH makes of a context and its data: bytes 16 to 95 of the context. The chaining value lies in big-endian words;
after a FINAL SHA-384 the last 16 bytes of STATE are free (log entry 25). -/
def State.hashed (s : State) (ctx data : List Byte) : List Byte × State :=
  let alg := leAt ctx 0 4 % 4
  let final := bit (leAt ctx 0 4) 8
  let total := leAt ctx 16 8
  let st := slice ctx 32 64
  let mid := leBytes 8 (total + data.length) ++ slice ctx 24 8
  if alg = 1 then (mid ++ shaCall sha256P sha256Init (st.take 32) data total final ++ st.drop 32, s)
  else
    let v := shaCall sha384P sha384Init st data total final
    if final then
      let (l, s) := s.drawBytes 16
      (mid ++ v.take 48 ++ l, s)
    else (mid ++ v, s)

/-- R88: the data of HASH lies in core local memory, common memory or DRAM. With LENGTH 0 no address is looked at (DESIGN
CHOICE, log entry 70). -/
def State.hashData (s : State) (a n : Nat) : Option (List Byte) × State :=
  if n = 0 then (some [], s)
  else if s.inMemory a n && decide (a < 0xE200000000) then
    match s.load a n with
    | (.ok l, s) => (some l, s)
    | (_, s) => (none, s)
  else (none, s)

/-- R88, Table 3.15: CTRL and LENGTH lie in their ranges. -/
def hashArgsOk (ctx : List Byte) : Bool :=
  let ctrl := leAt ctx 0 4
  let len := leAt ctx 4 4
  let alg := ctrl % 4
  decide (ctrl = alg + b2n (bit ctrl 8) * 256) && decide (alg = 1 ∨ alg = 2) && decide (len ≤ 16777216)
    && (bit ctrl 8 || len % (if alg = 1 then 64 else 128) == 0)

/-- HASH (R88). A context that is misaligned or outside own local and common memory takes the ACCESS trap, as R82 has it
for XFER's descriptor (DESIGN CHOICE, log entry 70). -/
def execHash (n : Fin 5) (gd ga : BitVec 5) (s : State) : Host.Outcome State Fault Refusal :=
  .next (s.runInstr n fun c =>
    if !(isPair ga) then .trap trapIllegal 0
    else guarded s c true false (
      let a := c.pair ga
      if !(nearMemory n a 128 64 && s.inMemory a.toNat 128) then .trap trapAccess 0
      else match s.load a.toNat 128 with
        | (.ok ctx, s) =>
          if !(hashArgsOk ctx) then .trap trapArgument 0
          else match s.hashData (leAt ctx 8 8) (leAt ctx 4 4) with
            | (some data, s) =>
              let (l, s) := s.hashed ctx data
              resultIn (s.store (a.toNat + 16) l) n gd 0
            | (none, s) => resultIn s n gd 1
        | (.ecc, s) => .trapAfter s trapEcc
        | (.refused, _) => .trap trapAccess 0))

/-! ### Spares -/

/-- Table 3.14: the class is listed and the index lies in its range. -/
def spareIndexOk (cls idx : Nat) : Bool :=
  match cls with
  | 1 => decide (idx < 128 ∧ idx % 16 ≤ 8)
  | 2 => decide (idx ≤ 127)
  | 3 => decide (idx ≤ 4)
  | 4 | 5 | 6 => decide (idx ≤ 7)
  | 7 => sramCodeOk idx
  | _ => false

/-- R105: SPARE class 0x03: 0 armed, 2 the spare is used, retired or spoken for. -/
def State.spareCore (s : State) (idx : Nat) : Nat × State :=
  if s.on F.HRC_MAP_SPAREUSED || (s.armedIn 3).isSome then (2, s) else (0, s.arm 3 idx)

/-- R89: SPARE by class: the result and the state. -/
def State.spare (s : State) (cls idx : Nat) : Nat × State :=
  match cls with
  | 1 => s.spareLane idx
  | 2 => if s.isTile then s.spareCell idx else (3, s)
  | 3 => s.spareCore idx
  | 4 | 5 => if s.isTile then s.spareEngineLane cls idx else (3, s)
  | 6 => s.spareSensor idx
  | _ => s.spareRow idx

/-- SPARE (R89). -/
def execSpare (n : Fin 5) (gd ga gb : BitVec 5) (s : State) : Host.Outcome State Fault Refusal :=
  .next (s.runInstr n fun c => guarded s c true false
    (if !(spareIndexOk (c.rg ga).toNat (c.rg gb).toNat) then .trap trapArgument 0
    else
      let (v, s) := s.spare (c.rg ga).toNat (c.rg gb).toNat
      resultIn s n gd (BitVec.ofNat 32 v)))

/-- A core's local memory holds only zeros. -/
def State.clearLocal (s : State) (n : Nat) : State :=
  let a := 0xE000000000 + n * 0x40000
  let out (x : Nat) : Bool := decide (x < a ∨ a + 0x40000 ≤ x)
  { s with mem := s.mem.filter (fun c => out c.1), poison := s.poison.filter (fun e => out e.1), soft := s.soft.filter out }

/-- R106, R107: logical HC4 is absent, and the spare is used. -/
def State.retireSpare (s : State) : State :=
  let s := (s.clearLocal 4).setCore 4 { s.core 4 with wait := none, haltReq := false }
  let s := (s.set F.HRC_MAP_PHYS (s.get F.HRC_MAP_PHYS % 4096 + 7 * 4096)).set F.HRC_MAP_SPAREUSED 1
  (s.set (F.HRC_STAT_STATE 4) coreRetired).set (F.HRC_STAT_HCAUSE 4) 4

/-- R106, R554: logical core `n` runs on HC4's physical core; its transfers go on (R90). -/
def State.substituteCore (s : State) (n : Fin 5) : State :=
  let w := s.get F.HRC_MAP_PHYS
  let phys := bits w 12 3
  let s := s.set F.HRC_MAP_PHYS (w - bits w (3 * n.val) 3 * 2 ^ (3 * n.val) + phys * 2 ^ (3 * n.val))
  let s := (s.clearLocal n.val).setCore n { Core.reset with tickets := (s.core n).tickets }
  let s := (s.set (F.HRC_STAT_STATE n) coreHalted).set (F.HRC_STAT_HCAUSE n) 0
  let s := (s.wr (.HRC_PCLO n) (Reg.HRC_PCLO n).resetValue).wr (.HRC_PCHI n) (Reg.HRC_PCHI n).resetValue
  s.retireSpare

/-- CORE_SUBSTITUTION: the safe point of R106: logical core `n` and HC4 are both halted. -/
def execCoreSubstitution (n : Fin 5) (s : State) : Host.Outcome State Fault Refusal :=
  .next (if s.armedIn 3 = some n.val ∧ n.val ≤ 3 ∧ s.coreState n = coreHalted ∧ s.coreState 4 = coreHalted then
      ((s.disarm 3 n.val).substituteCore n).substituted fun m => { m with core := n.val }
    else s)

/-- SPARE_CORE_RETIREMENT: the safe point of R107: HC4 is halted. -/
def execSpareCoreRetirement (s : State) : Host.Outcome State Fault Refusal :=
  .next (if s.armedIn 3 = some 4 ∧ s.coreState 4 = coreHalted then
      ((s.disarm 3 4).retireSpare).substituted fun m => { m with core := 4 }
    else s)

end Sys2Proof.Machine
end

