-- ==== Sys2Proof/Machine/CoreInt.lean ====
section
/-! DEFINITION. The integer instructions of the Hour cores (R55, R56, Table 3.3). -/

namespace Sys2Proof.Machine

/-- A three-register instruction of Table 3.3. -/
def alu (op : AluOp) (n : Fin 5) (gd ga gb : BitVec 5) (s : State) : State :=
  s.runInstr n fun c => resultIn s n gd (op.apply (c.rg ga) (c.rg gb))

/-- An instruction of Table 3.3 with an immediate, already extended. -/
def aluImm (op : AluOp) (n : Fin 5) (gd ga : BitVec 5) (imm : Word) (s : State) : State :=
  s.runInstr n fun c => resultIn s n gd (op.apply (c.rg ga) imm)

/-- A division of Table 3.3: a divisor of zero causes the DIVIDE trap (R56). -/
def divide (f : Word → Word → Word) (n : Fin 5) (gd ga gb : BitVec 5) (s : State) : State :=
  s.runInstr n fun c => if c.rg gb = 0 then .trap trapDivide 0 else resultIn s n gd (f (c.rg ga) (c.rg gb))

/-- ADD: gd = ga + gb (R55). -/
def execAdd (n : Fin 5) (gd ga gb : BitVec 5) (s : State) : Host.Outcome State Fault Refusal :=
  .next (alu .add n gd ga gb s)

/-- SUB: gd = ga − gb (R55). -/
def execSub (n : Fin 5) (gd ga gb : BitVec 5) (s : State) : Host.Outcome State Fault Refusal :=
  .next (alu .sub n gd ga gb s)

/-- AND (R55). -/
def execAnd (n : Fin 5) (gd ga gb : BitVec 5) (s : State) : Host.Outcome State Fault Refusal :=
  .next (alu .and n gd ga gb s)

/-- OR (R55). -/
def execOr (n : Fin 5) (gd ga gb : BitVec 5) (s : State) : Host.Outcome State Fault Refusal :=
  .next (alu .or n gd ga gb s)

/-- XOR (R55). -/
def execXor (n : Fin 5) (gd ga gb : BitVec 5) (s : State) : Host.Outcome State Fault Refusal :=
  .next (alu .xor n gd ga gb s)

/-- SHL: left shift by gb [4:0] (R55). -/
def execShl (n : Fin 5) (gd ga gb : BitVec 5) (s : State) : Host.Outcome State Fault Refusal :=
  .next (alu .shl n gd ga gb s)

/-- SHR: logical right shift by gb [4:0] (R55). -/
def execShr (n : Fin 5) (gd ga gb : BitVec 5) (s : State) : Host.Outcome State Fault Refusal :=
  .next (alu .shr n gd ga gb s)

/-- SRA: arithmetic right shift by gb [4:0] (R55). -/
def execSra (n : Fin 5) (gd ga gb : BitVec 5) (s : State) : Host.Outcome State Fault Refusal :=
  .next (alu .sra n gd ga gb s)

/-- SLT: 1 if ga < gb as signed (R55). -/
def execSlt (n : Fin 5) (gd ga gb : BitVec 5) (s : State) : Host.Outcome State Fault Refusal :=
  .next (alu .slt n gd ga gb s)

/-- SLTU: 1 if ga < gb as unsigned (R55). -/
def execSltu (n : Fin 5) (gd ga gb : BitVec 5) (s : State) : Host.Outcome State Fault Refusal :=
  .next (alu .sltu n gd ga gb s)

/-- MIN: signed minimum (R55). -/
def execMin (n : Fin 5) (gd ga gb : BitVec 5) (s : State) : Host.Outcome State Fault Refusal :=
  .next (alu .min n gd ga gb s)

/-- MAX: signed maximum (R55). -/
def execMax (n : Fin 5) (gd ga gb : BitVec 5) (s : State) : Host.Outcome State Fault Refusal :=
  .next (alu .max n gd ga gb s)

/-- MUL: low 32 bits of the product (R55). -/
def execMul (n : Fin 5) (gd ga gb : BitVec 5) (s : State) : Host.Outcome State Fault Refusal :=
  .next (alu .mul n gd ga gb s)

/-- MULH: high 32 bits of the signed product (R55). -/
def execMulh (n : Fin 5) (gd ga gb : BitVec 5) (s : State) : Host.Outcome State Fault Refusal :=
  .next (alu .mulh n gd ga gb s)

/-- DIV (R56). -/
def execDiv (n : Fin 5) (gd ga gb : BitVec 5) (s : State) : Host.Outcome State Fault Refusal :=
  .next (divide signedQuotient n gd ga gb s)

/-- DIVU (R56). -/
def execDivu (n : Fin 5) (gd ga gb : BitVec 5) (s : State) : Host.Outcome State Fault Refusal :=
  .next (divide unsignedQuotient n gd ga gb s)

/-- REM (R56). -/
def execRem (n : Fin 5) (gd ga gb : BitVec 5) (s : State) : Host.Outcome State Fault Refusal :=
  .next (divide signedRemainder n gd ga gb s)

/-- ADDI: gd = ga + sign-extended imm16 (R55). -/
def execAddi (n : Fin 5) (gd ga : BitVec 5) (imm : BitVec 16) (s : State) : Host.Outcome State Fault Refusal :=
  .next (aluImm .add n gd ga (imm.signExtend 32) s)

/-- ANDI: zero-extended imm16 (R55). -/
def execAndi (n : Fin 5) (gd ga : BitVec 5) (imm : BitVec 16) (s : State) : Host.Outcome State Fault Refusal :=
  .next (aluImm .and n gd ga (imm.setWidth 32) s)

/-- ORI: zero-extended imm16 (R55). -/
def execOri (n : Fin 5) (gd ga : BitVec 5) (imm : BitVec 16) (s : State) : Host.Outcome State Fault Refusal :=
  .next (aluImm .or n gd ga (imm.setWidth 32) s)

/-- XORI: zero-extended imm16 (R55). -/
def execXori (n : Fin 5) (gd ga : BitVec 5) (imm : BitVec 16) (s : State) : Host.Outcome State Fault Refusal :=
  .next (aluImm .xor n gd ga (imm.setWidth 32) s)

/-- SLTI: 1 if ga < sign-extended imm16 as signed (R55). -/
def execSlti (n : Fin 5) (gd ga : BitVec 5) (imm : BitVec 16) (s : State) : Host.Outcome State Fault Refusal :=
  .next (aluImm .slt n gd ga (imm.signExtend 32) s)

/-- SHLI: shift by the immediate amount (R55). -/
def execShli (n : Fin 5) (gd ga amount : BitVec 5) (s : State) : Host.Outcome State Fault Refusal :=
  .next (aluImm .shl n gd ga (amount.setWidth 32) s)

/-- SHRI: shift by the immediate amount (R55). -/
def execShri (n : Fin 5) (gd ga amount : BitVec 5) (s : State) : Host.Outcome State Fault Refusal :=
  .next (aluImm .shr n gd ga (amount.setWidth 32) s)

/-- SRAI: shift by the immediate amount (R55). -/
def execSrai (n : Fin 5) (gd ga amount : BitVec 5) (s : State) : Host.Outcome State Fault Refusal :=
  .next (aluImm .sra n gd ga (amount.setWidth 32) s)

/-- LUI: gd = imm16 × 65,536 (R55). -/
def execLui (n : Fin 5) (gd : BitVec 5) (imm : BitVec 16) (s : State) : Host.Outcome State Fault Refusal :=
  .next (s.runInstr n fun _ => resultIn s n gd (imm.setWidth 32 <<< 16))

end Sys2Proof.Machine
end

