-- ==== Sys2Proof/WellFormed.lean ====
section
/-! DEFINITION. Which commands a sender can form: the operands whose types admit more than the spec's formats do. -/

namespace Sys2Proof

/-- Cells at rising addresses, none of them 0. -/
def risingCells : List Host.Cell → Bool
  | [] => true
  | [c] => decide (c.2 ≠ 0)
  | c :: d :: r => decide (c.2 ≠ 0 ∧ c.1 < d.1) && risingCells (d :: r)

/-- The layer words of a token are as many as its N says (Table 7.7). -/
def TokenCell.wellFormed (c : TokenCell) : Bool := c.layers.length == c.n.toNat

/-- A message body is 1 to 64 words (Tables 7.6, 7.7). -/
def MsgCell.wellFormed (c : MsgCell) : Bool := decide (4 ≤ c.body.length ∧ c.body.length ≤ 256 ∧ c.body.length % 4 = 0)

/-- A READ carries 1 to 256 words and no data (Table 7.7). -/
def RequestCell.readForm (c : RequestCell) : Bool :=
  decide (1 ≤ c.words.toNat ∧ c.words.toNat ≤ 256) && c.data.isEmpty

/-- A WRITE carries 1 to 256 words of data (Table 7.7). -/
def RequestCell.writeForm (c : RequestCell) : Bool :=
  decide (1 ≤ c.words.toNat ∧ c.words.toNat ≤ 256 ∧ c.data.length = 4 * c.words.toNat)

/-- A FILL names at least one word and carries a pattern only (Table 7.7). -/
def RequestCell.fillForm (c : RequestCell) : Bool := decide (1 ≤ c.words.toNat) && c.data.isEmpty

/-- A PROBE carries no address, words or data (Table 7.7). -/
def RequestCell.probeForm (c : RequestCell) : Bool := c.words == 0 && c.addr == 0 && c.data.isEmpty

/-- A response carries data only for a READ with STATUS 0 (Table 7.7). -/
def ResponseCell.wellFormed (c : ResponseCell) : Bool :=
  if c.req = 0 ∧ c.status = 0 then c.data.length == 4 * c.words.toNat else c.words == 0 && c.data.isEmpty

/-- A card's sectors of 512 bytes hold its bytes (R494). -/
def SdCard.wellFormed (c : SdCard) : Bool := risingCells c.data && c.data.all fun e => decide (e.1 < 512 * c.sectors)

/-- The command bytes of Table 2.5. -/
def qspiCommands : List Byte := [0x02, 0x32, 0x0B, 0x6B, 0x05, 0x99]

/-- The command can be sent. The commands that no line names have operands of fixed width, and every one can be. -/
def Instr.wellFormed : Instr → Bool
  | .qspiUnknownCommand byte => !(qspiCommands.contains byte)
  | .hostRead _ _ _ len addr => decide (len < 2 ^ 32 ∧ addr < 2 ^ 64)
  | .hostWrite _ _ _ addr data => decide (data.length < 2 ^ 32 ∧ addr < 2 ^ 64)
  | .hostFill _ _ _ len addr _ => decide (len < 2 ^ 32 ∧ addr < 2 ^ 64)
  | .doorbell _ _ number _ => decide (number < 2 ^ 64)
  | .leaseResponse _ _ payload => decide (payload.length < 2 ^ 32)
  | .token _ cell => cell.wellFormed
  | .msgCell _ cell => cell.wellFormed
  | .wallRead _ cell => cell.readForm
  | .wallWrite _ cell => cell.writeForm
  | .wallFill _ cell => cell.fillForm
  | .probe _ cell => cell.probeForm
  | .wallResponse _ cell => cell.wellFormed
  | .pictureRun _ _ _ _ units => decide (1 ≤ units.length ∧ units.length ≤ 117)
  | .hostrec units => decide (3 ≤ units.length ∧ units.length ≤ 255)
  | .ckdata _ _ data => decide (1 ≤ data.length ∧ data.length ≤ 253)
  | .fwd _ _ inner => decide (1 ≤ inner.length ∧ inner.length ≤ 254)
  | .senseSample codes _ => codes.length == 16
  | .slowRound codes sensors => codes.length == 32 && sensors.length == 10
  | .colourSensorStop reads => reads.length == 8
  | .sdCardDetect (some card) => card.wellFormed
  | _ => true

end Sys2Proof
end

