-- ==== Sys2Proof/Machine/Host.lean ====
section
/-! DEFINITION. The carriers of host transactions: the QSPI target (R36, R37), the start of waiting transactions (R25,
R555, R556), transactions one by one, and the messages of the host channel (R39 to R41). -/

namespace Sys2Proof.Machine

/-! ### Waiting transactions -/

/-- The transactions of a carrier in progress. -/
def State.inProgress (s : State) (c : Carrier) : Nat :=
  (s.hst.waiting ++ s.hst.inFlight).countP fun x => whoCarrier x.who == some c

/-- R555: a request arrives; with 64 of its carrier in progress it answers BUSY. -/
def State.arrive (s : State) (w : Who) (bytes : List Byte) (peer : Option Peer) (seq : Nat) : State :=
  let busy := match whoCarrier w with
    | some c => decide (64 ≤ s.inProgress c)
    | none => false
  s.modHst fun h => { h with waiting := h.waiting ++ [⟨w, bytes, busy, peer, seq, s.isHolder w, s.tim.ticks⟩] }

/-- The bytes of unread QSPI responses. -/
def State.responseBytesHeld (s : State) : Nat := (s.hst.responses.map (·.length)).foldl (· + ·) 0

/-- R37: the bytes of unread responses once a transaction has run from `s` to `t`, with room kept for the response of one
that is relayed and still to complete. -/
def State.responseNeed (s t : State) (x : HostTxn) : Nat :=
  let h := txnHead x.bytes
  if t.hst.inFlight.length = s.hst.inFlight.length then t.responseBytesHeld
  else s.responseBytesHeld + 16 + (if h.type = 1 then h.len else 0)

/-- R37: a QSPI transaction that would run to `t` starts only when its whole response fits. -/
def State.responseFits (s t : State) (x : HostTxn) : Bool := x.who != .qspi || decide (s.responseNeed t x ≤ 4096)

/-- A transaction is a CLAIM. -/
def isClaim (l : List Byte) : Bool := (txnHead l).type == 5 && (txnHead l).addr == 0

/-- R35: the order of receipt of two CLAIMs; on one edge the one from QSPI comes first. -/
def HostTxn.before (y x : HostTxn) : Bool :=
  isClaim y.bytes && (decide (y.tick < x.tick) || (y.tick == x.tick && y.who == .qspi && x.who != .qspi))

/-- R35: while no lease is held a CLAIM waits for one of another carrier that was received before it. -/
def State.claimWaits (s : State) (x : HostTxn) : Bool :=
  isClaim x.bytes && !s.leased
    && s.hst.waiting.any fun y => whoCarrier y.who != whoCarrier x.who && y.before x

/-- R25, R556: the next transaction of a carrier starts once the earlier ones have completed; after Midnight none does
(R441). -/
def State.startNext (s : State) (c : Carrier) : State :=
  if s.midnight || s.hst.inFlight.any (fun x => whoCarrier x.who == some c) then s
  else match s.hst.waiting.find? fun x => whoCarrier x.who == some c with
    | none => s
    | some x =>
      match (s.modHst fun h => { h with waiting := h.waiting.erase x }).runTxn x with
      | some t => if s.claimWaits x || !(s.responseFits t x) then s else t
      | none => s

/-- TRANSACTION_START (R556). -/
def execTransactionStart (carrier : Carrier) (s : State) : Host.Outcome State Fault Refusal := .next (s.startNext carrier)

/-- R36: the QSPI target answers from step 3 of Table 20.7 onward. -/
def State.qspiOpen (s : State) : Bool := s.aon.phase == 6 && !s.aon.resetLow

/-- Bytes of the request buffer in use (R37). -/
def State.requestBytesHeld (s : State) : Nat :=
  ((s.hst.waiting.filter fun x => x.who == .qspi).map fun x => x.bytes.length).foldl (· + ·) 0

/-- HST.SEQERR counts. -/
def State.seqErr (s : State) : State := s.count F.HST_SEQERR_COUNT 1

/-! ### Transactions one by one -/

/-- A transaction arrives and starts at once if nothing of its carrier is before it (R25). On QSPI it is ignored before the
target answers (R36), and discarded and counted where the request buffer has no room (R37). -/
def State.direct (s : State) (w : Who) (bytes : List Byte) : State :=
  match whoCarrier w with
  | some c =>
    let first := s.inProgress c == 0
    if w = .qspi ∧ s.qspiOpen = false then s
    else if w = .qspi ∧ 4096 < s.requestBytesHeld + bytes.length then s.seqErr
    else
      let s := s.arrive w bytes none 0
      if first then s.startNext c else s
  | none => if s.midnight then s else (s.runTxn ⟨w, bytes, false, none, 0, s.isHolder w, s.tim.ticks⟩).getD s

/-- HOST_READ (R24, R27, R529). -/
def execHostRead (who : Who) (tag : BitVec 16) (wall : Bool) (len addr : Nat) (s : State) :
    Host.Outcome State Fault Refusal :=
  .next (s.direct who (headBytes 1 (b2n wall) tag.toNat len addr))

/-- HOST_WRITE (R24, R27, R529). -/
def execHostWrite (who : Who) (tag : BitVec 16) (wall : Bool) (addr : Nat) (data : List Byte) (s : State) :
    Host.Outcome State Fault Refusal :=
  .next (s.direct who (headBytes 2 (b2n wall) tag.toNat data.length addr ++ data))

/-- HOST_FILL (R24, R27). -/
def execHostFill (who : Who) (tag : BitVec 16) (wall : Bool) (len addr : Nat) (pattern : Word) (s : State) :
    Host.Outcome State Fault Refusal :=
  .next (s.direct who (headBytes 3 (b2n wall) tag.toNat len addr ++ beBytes 4 pattern.toNat))

/-- DOORBELL (R26, R45). -/
def execDoorbell (who : Who) (tag : BitVec 16) (number : Nat) (value : Word) (s : State) :
    Host.Outcome State Fault Refusal :=
  .next (s.direct who (headBytes 4 0 tag.toNat 4 number ++ beBytes 4 value.toNat))

/-- CLAIM (R33, R34). -/
def execClaim (who : Who) (tag : BitVec 16) (s : State) : Host.Outcome State Fault Refusal :=
  .next (s.direct who (headBytes 5 0 tag.toNat 0 0))

/-- LEASE_RESPONSE (R33, R34). -/
def execLeaseResponse (who : Who) (tag : BitVec 16) (payload : List Byte) (s : State) :
    Host.Outcome State Fault Refusal :=
  .next (s.direct who (headBytes 5 0 tag.toNat payload.length 1 ++ payload))

/-- RENEW (R31). -/
def execRenew (who : Who) (tag : BitVec 16) (s : State) : Host.Outcome State Fault Refusal :=
  .next (s.direct who (headBytes 5 0 tag.toNat 0 2))

/-- RELEASE (R31). -/
def execRelease (who : Who) (tag : BitVec 16) (s : State) : Host.Outcome State Fault Refusal :=
  .next (s.direct who (headBytes 5 0 tag.toNat 0 3))

/-- STATUS (R22). -/
def execStatus (who : Who) (tag : BitVec 16) (s : State) : Host.Outcome State Fault Refusal :=
  .next (s.direct who (headBytes 6 0 tag.toNat 0 0))

/-! ### The QSPI target -/

/-- R37: one PUT frame; bytes past those announced are ignored. -/
def State.qspiPut (s : State) (bytes : List Byte) : State :=
  if !s.qspiOpen then s
  else
    let n := 16 + payloadLen (txnHead bytes)
    if bytes.length < 16 ∨ bytes.length < n ∨ 4096 < s.requestBytesHeld + n then s.seqErr
    else s.arrive .qspi (bytes.take n) none 0

/-- R560: a GET of `clocked` bytes ends a response: of those that a reset waits for, its own counts once all 16 bytes of its
header have been clocked out. -/
def State.resetClocked (s : State) (clocked : Nat) : State :=
  if s.hst.responses.isEmpty then s
  else { s with bot := { s.bot with resetAfter := match s.bot.resetAfter with
    | some (k + 2) => some (k + 1)
    | some 1 => if 16 ≤ clocked then some 0 else none
    | x => x } }

/-- R37: one GET frame of `clocked` bytes: the oldest response, then zeros; it ends that response. -/
def State.qspiGet (s : State) (clocked : Nat) : State :=
  if !s.qspiOpen then s
  else
    ((s.resetClocked clocked).modHst fun h => { h with responses := h.responses.drop 1 }).emit
      (.qspi (padTo clocked (s.hst.responses.headD [])))

/-- PUT (R37). -/
def execPut (bytes : List Byte) (s : State) : Host.Outcome State Fault Refusal := .next (s.qspiPut bytes)

/-- PUT4 (R36, R37). -/
def execPut4 (bytes : List Byte) (s : State) : Host.Outcome State Fault Refusal := .next (s.qspiPut bytes)

/-- GET (R37). -/
def execGet (clocked : Nat) (s : State) : Host.Outcome State Fault Refusal := .next (s.qspiGet clocked)

/-- GET4 (R36, R37). -/
def execGet4 (clocked : Nat) (s : State) : Host.Outcome State Fault Refusal := .next (s.qspiGet clocked)

/-- The byte that POLL returns (Table 2.5). -/
def State.pollByte (s : State) : Byte :=
  BitVec.ofNat 8 (b2n (!s.hst.responses.isEmpty) + 2 * b2n (decide (4096 < s.requestBytesHeld + 1040))
    + 4 * b2n s.alert + 8 * s.get F.HST_STAT_BOOTWAIT)

/-- POLL (Table 2.5). -/
def execPoll (s : State) : Host.Outcome State Fault Refusal :=
  .next (if s.qspiOpen then s.emit (.qspi [s.pollByte]) else s)

/-- FLUSH (Table 2.5). -/
def execFlush (s : State) : Host.Outcome State Fault Refusal :=
  .next (if s.qspiOpen then
      let s := s.modHst fun h => { h with responses := [] }
      { s with bot := { s.bot with resetAfter := if s.bot.resetAfter = some 0 then some 0 else none } }
    else s)

/-- QSPI_UNKNOWN_COMMAND (R37); a byte that Table 2.5 lists is no such frame. -/
def execQspiUnknownCommand (byte : Byte) (s : State) : Host.Outcome State Fault Refusal :=
  if qspiCommands.contains byte then .fault (.malformed "QSPI_UNKNOWN_COMMAND")
  else .next (if s.qspiOpen then s.seqErr else s)

/-! ### The host channel -/

/-- The transactions of a message, each padded to a multiple of 4 bytes (Table 2.6); none if they do not fit. -/
def splitTxns : Nat → List Byte → Option (List (List Byte))
  | 0, _ => some []
  | k + 1, l =>
    let n := 16 + payloadLen (txnHead l)
    if l.length < n then none else (splitTxns k (l.drop ((n + 3) / 4 * 4))).map fun r => l.take n :: r

/-- R39: the message has a good MAGIC, VERSION and CRC. -/
def hostMessageGood (l : List Byte) : Bool :=
  decide (20 ≤ l.length ∧ l.length ≤ 1472) && l.take 3 == [0x56, 0x4C, 0x01]
    && beAt l (l.length - 4) 4 == (crc32 (l.take (l.length - 4))).toNat

/-- R40: the transactions of a request that is executed wait in order. -/
def State.takeRequestMessage (s : State) (q : Peer) (seq : Nat) (txns : List (List Byte)) : State :=
  let s := s.modHst fun h => { h with expected := some ((seq + 1) % 2 ^ 32) }
  if txns.isEmpty then
    let (b, s) := s.newMessage 2 0 []
    s.sendResponse q seq [b]
  else
    let s := s.modHst fun h => { h with messages := h.messages ++ [⟨seq, q, txns.length, [], none⟩] }
    txns.foldl (fun s t => s.arrive (.channel q.ip q.udp) t (some q) seq) s

/-- R29, R40, R41: a request message. A CLAIM counts as executed whatever its SEQ, and takes what was sent before it as
acknowledged; the other order rules hold for the lease holder (DEDUCED). -/
def State.requestMessage (s : State) (q : Peer) (seq : Nat) (txns : List (List Byte)) : State :=
  let w : Who := .channel q.ip q.udp
  if s.dropsHost w then txns.foldl (fun s _ => s.dropTxn) s
  else match s.hst.stored.find? fun e => e.1 == w && e.2.1 == seq with
    | some (_, _, ms) => ms.foldl (fun s m => s.sendToPeer q m) s
    | none =>
      if s.hst.messages.any (fun m => m.seq == seq && decide (m.peer = q)) then s.seqErr
      else if txns.any isClaim then
        (s.modHst fun h => { h with hostAck := h.ownSeq - 1 }).takeRequestMessage q seq txns
      else if s.isHolder w && (decide (s.hst.expected ≠ some seq) || decide (s.hst.hostAck + 16 < s.hst.ownSeq)) then
        s.seqErr
      else s.takeRequestMessage q seq txns

/-- A UDP payload for the host channel (R39 to R41). -/
def State.hostDatagram (s : State) (q : Peer) (l : List Byte) : State :=
  let kind := beAt l 3 1
  let count := beAt l 12 2
  if !(hostMessageGood l) then s.seqErr
  else
    let mine := s.isHolder (.channel q.ip q.udp)
    let s := if mine then s.modHst fun h => { h with hostAck := max h.hostAck (beAt l 8 4) } else s
    if kind = 3 then s
    else if kind ≠ 1 ∨ 64 < count then s.seqErr
    else match splitTxns count ((l.drop 16).take (l.length - 20)) with
      | some txns => s.requestMessage q (beAt l 4 4) txns
      | none => s.seqErr

end Sys2Proof.Machine
end

