-- ==== Sys2Proof/Machine/IngRx.lean ====
section
/-! DEFINITION. Frames received on a source port: acceptance of Ethernet frames and IPv4 packets, ARP, IGMP queries, the
classification of datagrams (R220 to R224), and the boot push over the network (R44). -/

namespace Sys2Proof.Machine

/-- ING.PDROP[i] counts. -/
def State.portDrop (s : State) (i : Nat) : State := s.count (F.ING_PDROP_COUNT i) 1

/-- An Ethernet frame without its FCS and its 802.1Q tag (R220). -/
structure EtherFrame where
  dst : BitVec 48
  src : BitVec 48
  type : Nat
  payload : List Byte

/-- R220: a frame of 64 to 9,022 bytes with a good FCS and at most one 802.1Q tag. -/
def parseEther (l : List Byte) : Option EtherFrame :=
  let body := l.take (l.length - 4)
  if l.length < 64 ∨ 9022 < l.length ∨ leAt l (l.length - 4) 4 ≠ (crc32 body).toNat then none
  else
    let tagged := beAt body 12 2 == 0x8100
    let at' := if tagged then 16 else 12
    if tagged && beAt body 16 2 == 0x8100 then none
    else some ⟨BitVec.ofNat 48 (beAt body 0 6), BitVec.ofNat 48 (beAt body 6 6), beAt body at' 2, body.drop (at' + 2)⟩

/-- An IPv4 packet that R222 accepts, protocol apart. -/
structure IpPacket where
  proto : Nat
  src : BitVec 32
  dst : BitVec 32
  payload : List Byte

/-- R222: a header of 20 bytes with a good checksum, no fragment, and the bytes it announces. -/
def parseIp (l : List Byte) : Option IpPacket :=
  let total := beAt l 2 2
  if l.length < 20 ∨ beAt l 0 1 ≠ 0x45 ∨ inetSum (l.take 20) ≠ 0 ∨ beAt l 6 2 % 0x4000 ≠ 0 ∨ total < 20 ∨ l.length < total then
    none
  else some ⟨beAt l 9 1, BitVec.ofNat 32 (beAt l 12 4), BitVec.ofNat 32 (beAt l 16 4), (l.take total).drop 20⟩

/-- A UDP datagram: its ports and its data. -/
structure Datagram where
  sport : Nat
  dport : Nat
  data : List Byte

/-- R222: a datagram whose checksum is 0 or good. -/
def parseUdp (p : IpPacket) : Option Datagram :=
  let l := p.payload
  let n := beAt l 4 2
  let pseudo := beBytes 4 p.src.toNat ++ beBytes 4 p.dst.toNat ++ [0, 17] ++ beBytes 2 n
  if p.proto ≠ 17 ∨ n < 8 ∨ l.length < n then none
  else if beAt l 6 2 ≠ 0 ∧ inetSum (pseudo ++ l.take n) ≠ 0 then none
  else some ⟨beAt l 0 2, beAt l 2 2, (l.take n).drop 8⟩

/-- R220: the destination address is one that the port takes. -/
def State.macAccepted (s : State) (i : Nat) (f : EtherFrame) : Bool :=
  f.dst == s.portMac i || (f.dst == 0xFFFFFFFFFFFF && f.type == 0x0806)
    || f.dst == groupMac 0xE0000001 || ptpGroups.any (fun g => f.dst == groupMac g)
    || (s.groups i).any fun g => f.dst == groupMac g

/-- R221, R387: the reply to an ARP request for the port's address. -/
def State.takeArp (s : State) (i : Nat) (f : EtherFrame) : State :=
  let l := f.payload
  let ours := s.hostPort i || !(s.on F.HST_HCCFG_EN && s.get F.HST_HCCFG_PORT == i)
  if beAt l 0 8 = 0x0001080006040001 ∧ BitVec.ofNat 32 (beAt l 24 4) = s.portIp i ∧ s.maySend i ∧ ours then
    s.sendEther i (etherFrame (BitVec.ofNat 48 (beAt l 8 6)) (s.portMac i) 0x0806
      ([0, 1, 8, 0, 6, 4, 0, 2] ++ beBytes 6 (s.portMac i).toNat ++ beBytes 4 (s.portIp i).toNat ++ slice l 8 10))
  else s

/-- R222, R224: an IGMP packet; a query's version is remembered. -/
def State.takeIgmp (s : State) (i : Nat) (p : IpPacket) : State :=
  if !((s.groups i).contains p.dst || p.dst == 0xE0000001) || inetSum p.payload != 0 then s.portDrop i
  else if beAt p.payload 0 1 = 0x11 then
    let rest := s.ing.igmpV2.filter (· != i)
    { s with ing := { s.ing with igmpV2 := if p.payload.length < 12 then i :: rest else rest } }
  else s

/-- R223: a flow of a stream takes the datagram. -/
def State.flowTakes (s : State) (i k : Nat) (b : Bool) (dst : BitVec 32) (udp : Nat) : Bool :=
  s.streamOn k &&
    if b then s.on (F.ING_SPORTB_EN k) && s.get (F.ING_SPORTB_SRCPORT k) == i && s.rd (.ING_SDSTB k) == dst
      && s.get (F.ING_SPORTB_UDP k) == udp
    else s.on (F.ING_SPORTA_EN k) && s.get (F.ING_SPORTA_SRCPORT k) == i && s.rd (.ING_SDSTA k) == dst
      && s.get (F.ING_SPORTA_UDP k) == udp

/-- R223: the lowest-numbered enabled stream with a flow that takes the datagram, and whether it is path B. -/
def State.flowOf (s : State) (i : Nat) (dst : BitVec 32) (udp : Nat) : Option (Nat × Bool) :=
  (List.range 16).findSome? fun k =>
    if s.flowTakes i k false dst udp then some (k, false)
    else if s.flowTakes i k true dst udp then some (k, true)
    else none

/-- R223: a datagram goes to the host channel, to PTP or to a stream, or is dropped. -/
def State.takeDatagram (s : State) (i : Nat) (f : EtherFrame) (p : IpPacket) (d : Datagram) : State :=
  if s.hostPort i && p.dst == s.rd .HST_IPADDR && d.dport == s.get F.HST_HCPORT_PORT then
    s.hostDatagram ⟨i, f.src, p.src, BitVec.ofNat 16 d.sport, p.dst, s.portMac i⟩ d.data
  else if s.ptpPort i && (d.dport == 319 || d.dport == 320) then s.ptpMessage i (s.sourceRx i) d.data
  else match s.flowOf i p.dst d.dport with
    | some (k, b) => s.flowPacket k b s.now d.data
    | none => s.portDrop i

/-- R44: while the boot ROM waits on the network, port 0 takes UDP messages to port 30,720 at any address; of the other
frames to the boot or the broadcast MAC address none has a taker (R223). -/
def State.takeBootFrame (s : State) (i : Nat) (f : EtherFrame) : State :=
  match (parseIp f.payload).bind fun p => (parseUdp p).map fun d => (p, d) with
  | some (p, d) =>
    if i = 0 ∧ f.type = 0x0800 ∧ d.dport = 30720 then
      s.hostDatagram ⟨i, f.src, p.src, BitVec.ofNat 16 d.sport, if p.dst = 0xFFFFFFFF then 0 else p.dst, s.bootMac⟩ d.data
    else s.portDrop i
  | none => s.portDrop i

/-- R220 to R223: a frame received on a source port. -/
def State.takeEther (s : State) (i : Nat) (l : List Byte) : State :=
  match parseEther l with
  | none => s.portDrop i
  | some f =>
    if s.bootNet then s.takeBootFrame i f
    else if !(s.macAccepted i f) then s.portDrop i
    else if f.type = 0x0806 then s.takeArp i f
    else if f.type ≠ 0x0800 then s.portDrop i
    else match parseIp f.payload with
      | none => s.portDrop i
      | some p =>
        if p.proto = 2 then s.takeIgmp i p
        else match parseUdp p with
          | some d => s.takeDatagram i f p d
          | none => s.portDrop i

/-- R219: codewords of a 100GBASE-R quad that its FEC cannot correct count in ING.QFEC. -/
def State.countFec (s : State) (q n : Nat) : State :=
  if s.get (F.ING_QCFG_MODE q) = 1 then s.count (F.ING_QFEC_COUNT q) n else s

/-- ETHERNET_FRAME (R220): a port that its quad's mode does not have receives nothing (R218). A frame that
a codeword which Clause 91 could not correct touched arrives with a bad FCS (R219). -/
def execEthernetFrame (i : Fin 8) (frame : Reception) (s : State) : Host.Outcome State Fault Refusal :=
  .next (if s.sourcePort i && !s.isTile then (s.countFec (i / 4) frame.lost).takeEther i frame.bytes else s)

end Sys2Proof.Machine
end

