-- ==== Sys2Proof/Machine/LinkFrame.lean ====
section
/-! DEFINITION. Receiving a link frame (R155 to R161, R169, R170): its checks, acknowledgements and credits, the content
it delivers, and what a tile sends on for it. -/

namespace Sys2Proof.Machine

/-- A segment of the cell area (Table 7.3). -/
structure Segment where
  kind : Nat
  start : Nat
  len : Nat
  handle : Nat
  gen : Nat
  block : Nat

/-- The segments of a frame in descriptor order; descriptors of kind 0 are ignored (R156). -/
def segments (f : LinkFrame) : List Segment :=
  (f.desc.toList.map fun d =>
    (⟨uf d 61 3, uf d 54 7, uf d 47 7, uf d 35 12, uf d 19 16, uf d 0 19⟩ : Segment)).filter fun g => g.kind != 0

/-- R156: the segments stand in order, do not overlap and lie inside the cell area. -/
def segmentsFit : Nat → List Segment → Bool
  | _, [] => true
  | pos, g :: r =>
    decide (g.kind ≤ 4 ∧ g.start ≤ 116 ∧ pos ≤ g.start ∧ g.start + g.len ≤ 117)
      && (if g.kind = 4 then g.len == 0 else decide (1 ≤ g.len)) && segmentsFit (g.start + g.len) r

/-- R157: no run starts and no generation ends while a block is cut. `n` is the units of a block of the run, none where
the part does not hold the handle, whose blocks it cannot count (log entry 58), and `cut` the units of the cut block. -/
def State.runsWhole (s : State) : Option Nat → Nat → List Segment → Bool
  | _, _, [] => true
  | n, cut, g :: r =>
    let after (n : Option Nat) (k : Nat) : Nat := match n with
      | some m => k % m
      | none => 0
    match g.kind with
    | 2 => cut == 0 && s.runsWhole (s.blockUnits g.handle) (after (s.blockUnits g.handle) g.len) r
    | 3 => s.runsWhole n (after n (cut + g.len)) r
    | 4 => cut == 0 && s.runsWhole n cut r
    | _ => s.runsWhole n cut r

/-- R155 to R157: the frame is well formed beside its CRC and its header. -/
def State.frameFits (s : State) (p : Nat) (f : LinkFrame) : Bool :=
  let run := (s.port p).runRx
  decide (1 ≤ f.gap ∧ f.gap ≤ 3) && segmentsFit 0 (segments f)
    && s.runsWhole (run.bind fun r => s.blockUnits r.handle) ((run.map fun r => r.units.length).getD 0) (segments f)

/-! ### Acknowledgements -/

/-- R161: frames through `seq` are acknowledged; on the mirror port the responses whose records they carry go out. -/
def State.ackThrough (s : State) (p seq : Nat) : State :=
  match (s.port p).kept.findIdx? fun k => k.seq == seq with
  | none => s
  | some i =>
    let gone := ((s.port p).kept.take (i + 1)).map (·.seq)
    let s := s.modPort p fun t =>
      { t with kept := t.kept.drop (i + 1), resend := t.resend.filter (fun k => !(gone.contains k.seq)), rounds := 0 }
    if p = 8 then s.releaseHeld gone.contains else s

/-- R160: the ACKSEQ and ACKTYPE of a header. -/
def State.useAck (s : State) (p : Nat) (h : BitVec 56) : State :=
  let type := bits h.toNat 30 2
  if type = 0 then s
  else
    let s := s.ackThrough p (bits h.toNat 32 12)
    if type = 2 then s.startResend p (s.port p).kept else s

/-- R165: the credits of an accepted frame; a counter does not pass its full value. -/
def State.addCredits (s : State) (p : Nat) (low : BitVec 32) : State :=
  s.modPort p fun t =>
    { t with
      credit1 := min 256 (t.credit1 + bits low.toNat 24 8)
      credit2 := min 512 (t.credit2 + bits low.toNat 16 8)
      credit3 := min 1024 (t.credit3 + bits low.toNat 8 8) }

/-- R160, R161: a frame discarded: counted, and the first after an accepted frame asks for a resend. -/
def State.discardFrame (s : State) (p : Nat) : State :=
  let s := s.count (F.LNK_CRCERR_COUNT p) 1
  if (s.port p).nakOpen then s else s.modPort p fun t => { t with nakDue := true, nakOpen := true }

/-! ### Content -/

/-- R165: the credit that a dropped cell of a known type used goes back. -/
def State.returnCell (s : State) (p type n : Nat) : State :=
  match typeVc type with
  | some (vc + 1) => s.giveCredit p (vc + 1) (granules n)
  | _ => s

/-- The whole cells at the front of the units received (R157, R167); a cell of unknown type or length is dropped and
counted. -/
def takeCells (age : Nat) : Nat → State → Nat → State
  | 0, s, _ => s
  | fuel + 1, s, p =>
    match (s.port p).cellRx with
    | [] => s
    | u :: r =>
      let n := max 1 (uf u 48 8)
      if (u :: r).length < n then s
      else
        let s := s.modPort p fun t => { t with cellRx := t.cellRx.drop n }
        let s := match (if uf u 48 8 = 0 then none else Cell.decode ((u :: r).take n)) with
          | some c => s.deliverAny p c age
          | none => (s.drop p).returnCell p (uf u 56 8) n
        takeCells age fuel s p

/-- One segment of an accepted frame delivered. -/
def State.deliverSegment (s : State) (p : Nat) (f : LinkFrame) (age : Nat) (g : Segment) : State :=
  let us := (f.area.toList.drop g.start).take g.len
  match g.kind with
  | 1 =>
    let s := s.modPort p fun t => { t with cellRx := t.cellRx ++ us }
    takeCells age (s.port p).cellRx.length s p
  | 4 => s.deliverGenEnd p g.handle g.gen
  | k => s.deliverRun p g.handle g.gen g.block (k == 3) us

/-- R159: an accepted frame: its acknowledgement, its credits and its content. -/
def State.acceptFrame (s : State) (p : Nat) (f : LinkFrame) (age : Nat) : State :=
  let s := s.modPort p fun t => { t with rxNext := (t.rxNext + 1) % 4096, nakOpen := false }
  let s := (s.useAck p f.header).addCredits p (f.trailer.extractLsb' 0 32)
  (segments f).foldl (fun s g => s.deliverSegment p f age g) s

/-! ### Forwarding -/

/-- R170: the void copy of a frame that failed its check: its content with the inverse of its CRC, without using a
SEQ. -/
def State.sendVoid (s : State) (q : Nat) (f : LinkFrame) : State :=
  if !(s.up q) then s
  else if !(s.port q).resend.isEmpty || decide (64 ≤ (s.port q).kept.length) then s.sendFrame q
  else
    let (a, s) := s.ackType q
    let h := headerOf (s.port q).txSeq (s.ackSeq q) a false false
    s.putFrame q ⟨h, f.desc, f.area, ~~~(frameCrc h f.desc f.area 0) ++ 0#32, f.gap⟩

/-- Nothing waits on a port. -/
def Port.idle (t : Port) : Bool := t.vc0.isEmpty && t.vc1.isEmpty && t.vc2.isEmpty && t.vc3.isEmpty && t.cut.isEmpty

/-- All cells that wait on a port are forwarded ones. -/
def Port.onlyForwards (t : Port) : Bool :=
  t.vc0.all Vc0Item.passing && t.vc1.all (·.via.isSome) && t.vc2.all (·.via.isSome)

/-- The types of the cells at the front of units. -/
def cellTypes : Nat → List (BitVec 64) → List Nat
  | 0, _ => []
  | _ + 1, [] => []
  | fuel + 1, u :: r => uf u 56 8 :: cellTypes fuel (r.drop (max 1 (uf u 48 8) - 1))

/-- R169: the cell area of a frame with its TIME cells replaced by the updated ones, and the descriptor that holds them;
none where TIME cells share a segment with others or stand in several segments. -/
def updatedArea (f : LinkFrame) (times : List (List (BitVec 64))) : Option (List (BitVec 64) × Option Nat) :=
  (List.range 4).foldl
    (fun a i => a.bind fun (area, vc0) =>
      let d := f.desc.toList.getD i 0
      let b := uf d 54 7
      let n := uf d 47 7
      let types := cellTypes n ((area.drop b).take n)
      if uf d 61 3 ≠ 1 || types.all (· != 1) then some (area, vc0)
      else if types.all (· == 1) && vc0.isNone && times.flatten.length == n then
        some (area.take b ++ times.flatten ++ area.drop (b + n), some i)
      else none)
    (some (f.area.toList, none))

/-- R169: the frame that a tile sends for one it forwards. Where everything of the received frame goes on and nothing else
does, it has the same descriptors and cell area; where items were taken, waited or are the tile's own, the content is
packed anew (DESIGN CHOICE, log entry 74). -/
def State.sendForward (s : State) (q : Nat) (f : LinkFrame) (idle : Bool) : State :=
  let t := s.port q
  if !(s.up q) || !idle || !t.onlyForwards || !t.resend.isEmpty || decide (64 ≤ t.kept.length) then s.sendFrame q
  else
    let at' := s.now + s.portTxLat q
    let (s, g) := s.fillFrame q
    let ends (l : List (BitVec 64)) : Nat := l.countP fun d => uf d 61 3 == 4
    let whole := (s.port q).idle && g.units.length == ((segments f).map (·.len)).sum && ends g.descs == ends f.desc.toList
    match whole, updatedArea f (t.vc0.map (Vc0Item.units at')) with
    | true, some (area, vc0) =>
      let (low, s) := s.takeCredits q
      s.sendNew q f.desc (vectorOf 117 area) low vc0 f.gap
    | _, _ => s.sendFilled q g

/-- A frame received on a port that is up (R159 to R161); a tile sends one frame on for each frame that arrives on its
master side with NULL = 0 and the expected SEQ (R169). -/
def State.takeFrame (s : State) (p : Nat) (f : LinkFrame) (age : Nat) : State :=
  let crc := frameCrc f.header f.desc f.area (f.trailer.extractLsb' 0 32)
  let field := f.trailer.extractLsb' 32 32
  let null := f.header.getLsbD 28
  let inOrder := !null && bits f.header.toNat 44 12 == (s.port p).rxNext
  let forwards := inOrder && s.onMaster p
  let fits := field == crc && bits f.header.toNat 30 2 != 3 && s.frameFits p f
  if fits && inOrder then
    let idle := (s.port (otherPort p)).idle
    let s := s.acceptFrame p f age
    if forwards then s.sendForward (otherPort p) f idle else s
  else
    let s := if field = ~~~crc then s else if field == crc && null then s.useAck p f.header else s.discardFrame p
    if forwards then s.sendVoid (otherPort p) f else s

/-- LINK_FRAME: a frame arrives on a port; a port that is down takes nothing (R162). -/
def execLinkFrame (p : Fin 9) (frame : LinkFrame) (age : BitVec 24) (s : State) : Host.Outcome State Fault Refusal :=
  .next (if s.up p then s.takeFrame p frame age.toNat else s)

end Sys2Proof.Machine
end

