-- ==== Sys2Proof/Machine/Tap.lean ====
section
/-! DEFINITION. The test access port (R552). The instructions' registers are those of IEEE 1149.1-2013 (log entry 12). -/

namespace Sys2Proof.Machine

/-- An instruction of the test access port is in force; what the balls follow, and the bits that the selected register
shifts out. -/
def State.tapDo (s : State) (i : TapInstr) (cells : List Bool) (drive : PinDrive) (out : List Bool) : State :=
  { s with tap := ⟨i, cells, drive⟩ }.emit (.tdo out)

/-- A register of captured bits shifted by as many bits as go in: the captured bits come out first. -/
def shiftOut (captured tdi : List Bool) : List Bool := (captured ++ tdi).take tdi.length

/-- BYPASS: the one-bit bypass register, which captures 0; the balls have their functions. -/
def State.tapBypass (s : State) (tdi : List Bool) : State :=
  s.tapDo .bypass s.tap.cells .functions (shiftOut [false] tdi)

/-- EXTEST, CLAMP and HIGHZ act only in BLANK, MANUFACTURE and SERVICE (R552). -/
def State.tapAllowed (s : State) : Bool := s.lifeCycle == 0 || s.lifeCycle == 1 || s.lifeCycle == 3

/-- The IDCODE of R552. -/
def idcode : Nat := 0x29128367

/-- The boundary register captures the pins and takes what is shifted in, one bit for each of its cells. -/
def State.tapBoundary (s : State) (i : TapInstr) (drive : List Bool → PinDrive) (pins tdi : List Bool) : State :=
  let cells := (tdi.take pins.length) ++ pins.take (pins.length - tdi.length)
  s.tapDo i cells (drive cells) (pins.take tdi.length)

/-- BYPASS (R552). -/
def execBypass (tdi : List Bool) (s : State) : Host.Outcome State Fault Refusal := .next (s.tapBypass tdi)

/-- IDCODE: the 32 bits come out, least significant first (R552). -/
def execIdcode (s : State) : Host.Outcome State Fault Refusal :=
  .next (s.tapDo .idcode s.tap.cells .functions ((List.range 32).map fun i => bit idcode i))

/-- SAMPLE/PRELOAD: the boundary register samples the pins and is preloaded; the balls have their functions (R552). -/
def execSamplePreload (pins tdi : List Bool) (s : State) : Host.Outcome State Fault Refusal :=
  .next (s.tapBoundary .sample (fun _ => .functions) pins tdi)

/-- EXTEST: the balls follow the boundary register (R552). -/
def execExtest (pins tdi : List Bool) (s : State) : Host.Outcome State Fault Refusal :=
  .next (if s.tapAllowed then s.tapBoundary .extest .boundary pins tdi else s.tapBypass tdi)

/-- CLAMP: the balls hold what the boundary register holds, and the bypass register is selected (R552). -/
def execClamp (tdi : List Bool) (s : State) : Host.Outcome State Fault Refusal :=
  .next (if s.tapAllowed then s.tapDo .clamp s.tap.cells (.boundary s.tap.cells) (shiftOut [false] tdi) else s.tapBypass tdi)

/-- HIGHZ: the outputs float, and the bypass register is selected (R552). -/
def execHighz (tdi : List Bool) (s : State) : Host.Outcome State Fault Refusal :=
  .next (if s.tapAllowed then s.tapDo .highz s.tap.cells .floating (shiftOut [false] tdi) else s.tapBypass tdi)

/-- TAP_RESET: TRST_N low or five TCK cycles with TMS high (R552). -/
def execTapReset (s : State) : Host.Outcome State Fault Refusal :=
  .next { s with tap := ⟨.idcode, s.tap.cells, .functions⟩ }

end Sys2Proof.Machine
end

