-- ==== Sys2Proof/Machine/Dispatch.lean ====
section
/-! DEFINITION. The one map from commands to their meanings. -/

namespace Sys2Proof.Machine

/-- The effect of a command on everything but the queue. -/
def exec (i : Instr) (s : State) : Host.Outcome State Fault Refusal :=
  match i with
  | .aonSupplyUp oscdly => Sys2Proof.Machine.execAonSupplyUp oscdly s
  | .startDelayExpiry => Sys2Proof.Machine.execStartDelayExpiry s
  | .startCheck count => Sys2Proof.Machine.execStartCheck count s
  | .startCheckRetry => Sys2Proof.Machine.execStartCheckRetry s
  | .rootPllLock => Sys2Proof.Machine.execRootPllLock s
  | .coreSoftStartDone => Sys2Proof.Machine.execCoreSoftStartDone s
  | .resetNRise role bootsel => Sys2Proof.Machine.execResetNRise role bootsel s
  | .resetNLow => Sys2Proof.Machine.execResetNLow s
  | .vddAonLow => Sys2Proof.Machine.execVddAonLow s
  | .coreUndervoltageReset => Sys2Proof.Machine.execCoreUndervoltageReset s
  | .coreSag => Sys2Proof.Machine.execCoreSag s
  | .refclkLoss => Sys2Proof.Machine.execRefclkLoss s
  | .refclkReturn => Sys2Proof.Machine.execRefclkReturn s
  | .clockSwitch d => Sys2Proof.Machine.execClockSwitch d s
  | .clockSwitchForced d => Sys2Proof.Machine.execClockSwitchForced d s
  | .gateClose d => Sys2Proof.Machine.execGateClose d s
  | .gateCloseTimeout d => Sys2Proof.Machine.execGateCloseTimeout d s
  | .gateOpen d => Sys2Proof.Machine.execGateOpen d s
  | .gatedAccess d => Sys2Proof.Machine.execGatedAccess d s
  | .lanePllLock q => Sys2Proof.Machine.execLanePllLock q s
  | .lanePllLockLoss q => Sys2Proof.Machine.execLanePllLockLoss q s
  | .put bytes => Sys2Proof.Machine.execPut bytes s
  | .put4 bytes => Sys2Proof.Machine.execPut4 bytes s
  | .get clocked => Sys2Proof.Machine.execGet clocked s
  | .get4 clocked => Sys2Proof.Machine.execGet4 clocked s
  | .poll => Sys2Proof.Machine.execPoll s
  | .flush => Sys2Proof.Machine.execFlush s
  | .qspiUnknownCommand byte => Sys2Proof.Machine.execQspiUnknownCommand byte s
  | .transactionStart carrier => Sys2Proof.Machine.execTransactionStart carrier s
  | .hostRead who tag wall len addr => Sys2Proof.Machine.execHostRead who tag wall len addr s
  | .hostWrite who tag wall addr data => Sys2Proof.Machine.execHostWrite who tag wall addr data s
  | .hostFill who tag wall len addr pattern => Sys2Proof.Machine.execHostFill who tag wall len addr pattern s
  | .doorbell who tag number value => Sys2Proof.Machine.execDoorbell who tag number value s
  | .claim who tag => Sys2Proof.Machine.execClaim who tag s
  | .leaseResponse who tag payload => Sys2Proof.Machine.execLeaseResponse who tag payload s
  | .renew who tag => Sys2Proof.Machine.execRenew who tag s
  | .release who tag => Sys2Proof.Machine.execRelease who tag s
  | .status who tag => Sys2Proof.Machine.execStatus who tag s
  | .leaseExpiry => Sys2Proof.Machine.execLeaseExpiry s
  | .challengeTimeout => Sys2Proof.Machine.execChallengeTimeout s
  | .lockoutEnd => Sys2Proof.Machine.execLockoutEnd s
  | .revoke => Sys2Proof.Machine.execRevoke s
  | .alertMessage => Sys2Proof.Machine.execAlertMessage s
  | .add n gd ga gb => Sys2Proof.Machine.execAdd n gd ga gb s
  | .sub n gd ga gb => Sys2Proof.Machine.execSub n gd ga gb s
  | .and n gd ga gb => Sys2Proof.Machine.execAnd n gd ga gb s
  | .or n gd ga gb => Sys2Proof.Machine.execOr n gd ga gb s
  | .xor n gd ga gb => Sys2Proof.Machine.execXor n gd ga gb s
  | .shl n gd ga gb => Sys2Proof.Machine.execShl n gd ga gb s
  | .shr n gd ga gb => Sys2Proof.Machine.execShr n gd ga gb s
  | .sra n gd ga gb => Sys2Proof.Machine.execSra n gd ga gb s
  | .slt n gd ga gb => Sys2Proof.Machine.execSlt n gd ga gb s
  | .sltu n gd ga gb => Sys2Proof.Machine.execSltu n gd ga gb s
  | .min n gd ga gb => Sys2Proof.Machine.execMin n gd ga gb s
  | .max n gd ga gb => Sys2Proof.Machine.execMax n gd ga gb s
  | .mul n gd ga gb => Sys2Proof.Machine.execMul n gd ga gb s
  | .mulh n gd ga gb => Sys2Proof.Machine.execMulh n gd ga gb s
  | .div n gd ga gb => Sys2Proof.Machine.execDiv n gd ga gb s
  | .divu n gd ga gb => Sys2Proof.Machine.execDivu n gd ga gb s
  | .rem n gd ga gb => Sys2Proof.Machine.execRem n gd ga gb s
  | .addi n gd ga imm => Sys2Proof.Machine.execAddi n gd ga imm s
  | .andi n gd ga imm => Sys2Proof.Machine.execAndi n gd ga imm s
  | .ori n gd ga imm => Sys2Proof.Machine.execOri n gd ga imm s
  | .xori n gd ga imm => Sys2Proof.Machine.execXori n gd ga imm s
  | .shli n gd ga amount => Sys2Proof.Machine.execShli n gd ga amount s
  | .shri n gd ga amount => Sys2Proof.Machine.execShri n gd ga amount s
  | .srai n gd ga amount => Sys2Proof.Machine.execSrai n gd ga amount s
  | .slti n gd ga imm => Sys2Proof.Machine.execSlti n gd ga imm s
  | .lui n gd imm => Sys2Proof.Machine.execLui n gd imm s
  | .lb n gd ga offset => Sys2Proof.Machine.execLb n gd ga offset s
  | .lbu n gd ga offset => Sys2Proof.Machine.execLbu n gd ga offset s
  | .lh n gd ga offset => Sys2Proof.Machine.execLh n gd ga offset s
  | .lhu n gd ga offset => Sys2Proof.Machine.execLhu n gd ga offset s
  | .lw n gd ga offset => Sys2Proof.Machine.execLw n gd ga offset s
  | .ld n gd ga offset => Sys2Proof.Machine.execLd n gd ga offset s
  | .sb n gd ga offset => Sys2Proof.Machine.execSb n gd ga offset s
  | .sh n gd ga offset => Sys2Proof.Machine.execSh n gd ga offset s
  | .sw n gd ga offset => Sys2Proof.Machine.execSw n gd ga offset s
  | .sd n gd ga offset => Sys2Proof.Machine.execSd n gd ga offset s
  | .atadd n gd ga gb => Sys2Proof.Machine.execAtadd n gd ga gb s
  | .atxch n gd ga gb => Sys2Proof.Machine.execAtxch n gd ga gb s
  | .atcas n gd ga gb => Sys2Proof.Machine.execAtcas n gd ga gb s
  | .breq n ga gb offset => Sys2Proof.Machine.execBreq n ga gb offset s
  | .brne n ga gb offset => Sys2Proof.Machine.execBrne n ga gb offset s
  | .brlts n ga gb offset => Sys2Proof.Machine.execBrlts n ga gb offset s
  | .brges n ga gb offset => Sys2Proof.Machine.execBrges n ga gb offset s
  | .brltu n ga gb offset => Sys2Proof.Machine.execBrltu n ga gb offset s
  | .brgeu n ga gb offset => Sys2Proof.Machine.execBrgeu n ga gb offset s
  | .jal n offset => Sys2Proof.Machine.execJal n offset s
  | .jalr n gd ga imm => Sys2Proof.Machine.execJalr n gd ga imm s
  | .trap n code => Sys2Proof.Machine.execTrap n code s
  | .eret n => Sys2Proof.Machine.execEret n s
  | .halt n => Sys2Proof.Machine.execHalt n s
  | .fence n => Sys2Proof.Machine.execFence n s
  | .fenceT n => Sys2Proof.Machine.execFenceT n s
  | .cwr n gd word => Sys2Proof.Machine.execCwr n gd word s
  | .cww n word ga => Sys2Proof.Machine.execCww n word ga s
  | .await n gd ga => Sys2Proof.Machine.execAwait n gd ga s
  | .awaitWake n timeout => Sys2Proof.Machine.execAwaitWake n timeout s
  | .signal n ga => Sys2Proof.Machine.execSignal n ga s
  | .waitt n gd ga => Sys2Proof.Machine.execWaitt n gd ga s
  | .waittWake n => Sys2Proof.Machine.execWaittWake n s
  | .time n gd => Sys2Proof.Machine.execTime n gd s
  | .tstep n gd => Sys2Proof.Machine.execTstep n gd s
  | .msg n gd ga gb => Sys2Proof.Machine.execMsg n gd ga gb s
  | .xfer n gd ga => Sys2Proof.Machine.execXfer n gd ga s
  | .xwait n gd ga => Sys2Proof.Machine.execXwait n gd ga s
  | .transferEnd n ticket => Sys2Proof.Machine.execTransferEnd n ticket s
  | .commit n gd ga gb => Sys2Proof.Machine.execCommit n gd ga gb s
  | .scansw n gd ga gb => Sys2Proof.Machine.execScansw n gd ga gb s
  | .nvrd n gd ga => Sys2Proof.Machine.execNvrd n gd ga s
  | .nvwr n gd ga gb => Sys2Proof.Machine.execNvwr n gd ga gb s
  | .nvwrComplete n verified => Sys2Proof.Machine.execNvwrComplete n verified s
  | .hash n gd ga => Sys2Proof.Machine.execHash n gd ga s
  | .spare n gd ga gb => Sys2Proof.Machine.execSpare n gd ga gb s
  | .coreStart n => Sys2Proof.Machine.execCoreStart n s
  | .coreHaltRequest n => Sys2Proof.Machine.execCoreHaltRequest n s
  | .coreHalt n => Sys2Proof.Machine.execCoreHalt n s
  | .coreSubstitution n => Sys2Proof.Machine.execCoreSubstitution n s
  | .spareCoreRetirement => Sys2Proof.Machine.execSpareCoreRetirement s
  | .evtForce event => Sys2Proof.Machine.execEvtForce event s
  | .evtPendClear j mask => Sys2Proof.Machine.execEvtPendClear j mask s
  | .evtRouteWrite k target => Sys2Proof.Machine.execEvtRouteWrite k target s
  | .laneEnable n => Sys2Proof.Machine.execLaneEnable n s
  | .laneDisable n => Sys2Proof.Machine.execLaneDisable n s
  | .receiverDetectPulse n detected => Sys2Proof.Machine.execReceiverDetectPulse n detected s
  | .trainWindowEnd n locked inverted ctle dfe1 => Sys2Proof.Machine.execTrainWindowEnd n locked inverted ctle dfe1 s
  | .blockLock n rxalign invalid => Sys2Proof.Machine.execBlockLock n rxalign invalid s
  | .blocklockTimeout n invalid => Sys2Proof.Machine.execBlocklockTimeout n invalid s
  | .capabilityBlock n payload invalid => Sys2Proof.Machine.execCapabilityBlock n payload invalid s
  | .exchangeTimeout n invalid => Sys2Proof.Machine.execExchangeTimeout n invalid s
  | .capabilityBlockSend n => Sys2Proof.Machine.execCapabilityBlockSend n s
  | .backoffExpiry n => Sys2Proof.Machine.execBackoffExpiry n s
  | .blockLockLoss n invalid => Sys2Proof.Machine.execBlockLockLoss n invalid s
  | .sourceLaneLock n rxalign => Sys2Proof.Machine.execSourceLaneLock n rxalign s
  | .txeqWrite n value => Sys2Proof.Machine.execTxeqWrite n value s
  | .surveyRequest n => Sys2Proof.Machine.execSurveyRequest n s
  | .surveyPeriodic => Sys2Proof.Machine.execSurveyPeriodic s
  | .surveyComplete n width height => Sys2Proof.Machine.execSurveyComplete n width height s
  | .swapBlocks n rxalign => Sys2Proof.Machine.execSwapBlocks n rxalign s
  | .substitutionTimeout p => Sys2Proof.Machine.execSubstitutionTimeout p s
  | .linkFrame p frame age => Sys2Proof.Machine.execLinkFrame p frame age s
  | .resendTimeout p => Sys2Proof.Machine.execResendTimeout p s
  | .nakRepeat p => Sys2Proof.Machine.execNakRepeat p s
  | .portEnable p => Sys2Proof.Machine.execPortEnable p s
  | .portDisable p => Sys2Proof.Machine.execPortDisable p s
  | .timeCell p cell age => Sys2Proof.Machine.execTimeCell p cell age s
  | .ldreq p seq => Sys2Proof.Machine.execLdreq p seq s
  | .ldrsp p cell => Sys2Proof.Machine.execLdrsp p cell s
  | .pos p value valid => Sys2Proof.Machine.execPos p value valid s
  | .announce p cell => Sys2Proof.Machine.execAnnounce p cell s
  | .announceAtSender p cell => Sys2Proof.Machine.execAnnounceAtSender p cell s
  | .token p cell => Sys2Proof.Machine.execToken p cell s
  | .retract p cell => Sys2Proof.Machine.execRetract p cell s
  | .gack p cell => Sys2Proof.Machine.execGack p cell s
  | .report p cell => Sys2Proof.Machine.execReport p cell s
  | .msgCell p cell => Sys2Proof.Machine.execMsgCell p cell s
  | .wallRead p cell => Sys2Proof.Machine.execWallRead p cell s
  | .wallWrite p cell => Sys2Proof.Machine.execWallWrite p cell s
  | .wallFill p cell => Sys2Proof.Machine.execWallFill p cell s
  | .probe p cell => Sys2Proof.Machine.execProbe p cell s
  | .wallResponse p cell => Sys2Proof.Machine.execWallResponse p cell s
  | .txTimeout chain tag => Sys2Proof.Machine.execTxTimeout chain tag s
  | .probeRepeat chain tag => Sys2Proof.Machine.execProbeRepeat chain tag s
  | .pictureRun p handle gen block units => Sys2Proof.Machine.execPictureRun p handle gen block units s
  | .generationEnd p handle gen => Sys2Proof.Machine.execGenerationEnd p handle gen s
  | .timeCellSend p => Sys2Proof.Machine.execTimeCellSend p s
  | .ldreqSend p => Sys2Proof.Machine.execLdreqSend p s
  | .announceAend c => Sys2Proof.Machine.execAnnounceAend c s
  | .announceBend c => Sys2Proof.Machine.execAnnounceBend c s
  | .announceRepeat p => Sys2Proof.Machine.execAnnounceRepeat p s
  | .epochWrite c value => Sys2Proof.Machine.execEpochWrite c value s
  | .genkeyWrite c e value => Sys2Proof.Machine.execGenkeyWrite c e value s
  | .lnkCfgWrite value => Sys2Proof.Machine.execLnkCfgWrite value s
  | .holdOnset => Sys2Proof.Machine.execHoldOnset s
  | .holdmaxExpiry => Sys2Proof.Machine.execHoldmaxExpiry s
  | .timSrcWrite src => Sys2Proof.Machine.execTimSrcWrite src s
  | .timFree => Sys2Proof.Machine.execTimFree s
  | .lqPush p value => Sys2Proof.Machine.execLqPush p value s
  | .launchEntryStart p => Sys2Proof.Machine.execLaunchEntryStart p s
  | .launchFlush p => Sys2Proof.Machine.execLaunchFlush p s
  | .fpercidWrite value => Sys2Proof.Machine.execFpercidWrite value s
  | .captureEdge idx edge => Sys2Proof.Machine.execCaptureEdge idx edge s
  | .pulseEdge idx => Sys2Proof.Machine.execPulseEdge idx s
  | .snap => Sys2Proof.Machine.execSnap s
  | .composeStart instant => Sys2Proof.Machine.execComposeStart instant s
  | .composeRestart => Sys2Proof.Machine.execComposeRestart s
  | .layer l => Sys2Proof.Machine.execLayer l s
  | .place place => Sys2Proof.Machine.execPlace place s
  | .scale fh fv sx sy phx phy => Sys2Proof.Machine.execScale fh fv sx sy phx phy s
  | .crop cx cy cw ch => Sys2Proof.Machine.execCrop cx cy cw ch s
  | .blend mode alpha usea => Sys2Proof.Machine.execBlend mode alpha usea s
  | .prelut en set => Sys2Proof.Machine.execPrelut en set s
  | .postlut en3d cube en1d set => Sys2Proof.Machine.execPostlut en3d cube en1d set s
  | .policy pol => Sys2Proof.Machine.execPolicy pol s
  | .fill fill => Sys2Proof.Machine.execFill fill s
  | .stand mode l silent => Sys2Proof.Machine.execStand mode l silent s
  | .endf => Sys2Proof.Machine.execEndf s
  | .halfComplete composed => Sys2Proof.Machine.execHalfComplete composed s
  | .corArmcidWrite value => Sys2Proof.Machine.execCorArmcidWrite value s
  | .loopWindowEnd => Sys2Proof.Machine.execLoopWindowEnd s
  | .showInstant instant => Sys2Proof.Machine.execShowInstant instant s
  | .refreshBoundary index padFails => Sys2Proof.Machine.execRefreshBoundary index padFails s
  | .line g usei l ready => Sys2Proof.Machine.execLine g usei l ready s
  | .plane g j low => Sys2Proof.Machine.execPlane g j low s
  | .slot g j sp => Sys2Proof.Machine.execSlot g j sp s
  | .blank g d => Sys2Proof.Machine.execBlank g d s
  | .prechg g => Sys2Proof.Machine.execPrechg g s
  | .diag g d => Sys2Proof.Machine.execDiag g d s
  | .gain g col value => Sys2Proof.Machine.execGain g col value s
  | .rowsel g => Sys2Proof.Machine.execRowsel g s
  | .loop g n len => Sys2Proof.Machine.execLoop g n len s
  | .sync g n lines t0 => Sys2Proof.Machine.execSync g n lines t0 s
  | .readbk g headroom present bits => Sys2Proof.Machine.execReadbk g headroom present bits s
  | .endScan g => Sys2Proof.Machine.execEndScan g s
  | .groupStart g slot => Sys2Proof.Machine.execGroupStart g slot s
  | .groupStop g => Sys2Proof.Machine.execGroupStop g s
  | .darkWrite dark => Sys2Proof.Machine.execDarkWrite dark s
  | .tripRelease => Sys2Proof.Machine.execTripRelease s
  | .fadeGo target frames shape => Sys2Proof.Machine.execFadeGo target frames shape s
  | .mapClear => Sys2Proof.Machine.execMapClear s
  | .mapClearDone => Sys2Proof.Machine.execMapClearDone s
  | .lpdCellSubstitution p => Sys2Proof.Machine.execLpdCellSubstitution p s
  | .compositorLaneSubstitution => Sys2Proof.Machine.execCompositorLaneSubstitution s
  | .correctionLaneSubstitution => Sys2Proof.Machine.execCorrectionLaneSubstitution s
  | .sramRowSubstitution code => Sys2Proof.Machine.execSramRowSubstitution code s
  | .ethernetFrame idx frame => Sys2Proof.Machine.execEthernetFrame idx frame s
  | .igmpReport idx => Sys2Proof.Machine.execIgmpReport idx s
  | .frameCloseSkew idx => Sys2Proof.Machine.execFrameCloseSkew idx s
  | .blockRowHandoff idx gen row => Sys2Proof.Machine.execBlockRowHandoff idx gen row s
  | .generationComplete idx gen => Sys2Proof.Machine.execGenerationComplete idx gen s
  | .streamLoss idx => Sys2Proof.Machine.execStreamLoss idx s
  | .pathSilence idx pathB => Sys2Proof.Machine.execPathSilence idx pathB s
  | .streamEnable idx => Sys2Proof.Machine.execStreamEnable idx s
  | .streamDisable idx => Sys2Proof.Machine.execStreamDisable idx s
  | .qcfgWrite q value => Sys2Proof.Machine.execQcfgWrite q value s
  | .slastRead idx => Sys2Proof.Machine.execSlastRead idx s
  | .delayReqSend => Sys2Proof.Machine.execDelayReqSend s
  | .ptpAnnounceTimeout => Sys2Proof.Machine.execPtpAnnounceTimeout s
  | .create h => Sys2Proof.Machine.execCreate h s
  | .destroy h => Sys2Proof.Machine.execDestroy h s
  | .openGen h gen => Sys2Proof.Machine.execOpenGen h gen s
  | .seal h gen => Sys2Proof.Machine.execSeal h gen s
  | .sealComplete h gen => Sys2Proof.Machine.execSealComplete h gen s
  | .freeGen h gen => Sys2Proof.Machine.execFreeGen h gen s
  | .query h => Sys2Proof.Machine.execQuery h s
  | .forget h => Sys2Proof.Machine.execForget h s
  | .codecBadop value => Sys2Proof.Machine.execCodecBadop value s
  | .releaseFence h gen => Sys2Proof.Machine.execReleaseFence h gen s
  | .becomeLead => Sys2Proof.Machine.execBecomeLead s
  | .becomeShadow => Sys2Proof.Machine.execBecomeShadow s
  | .handover => Sys2Proof.Machine.execHandover s
  | .handoverAtTh => Sys2Proof.Machine.execHandoverAtTh s
  | .ckgo => Sys2Proof.Machine.execCkgo s
  | .heartbeat role ready handover epoch seq sec ns => Sys2Proof.Machine.execHeartbeat role ready handover epoch seq sec ns s
  | .heartbeatSend => Sys2Proof.Machine.execHeartbeatSend s
  | .heartbeatMiss => Sys2Proof.Machine.execHeartbeatMiss s
  | .hostrec units => Sys2Proof.Machine.execHostrec units s
  | .journal out chain tag tgen position reqType hostTag addr words xfer => Sys2Proof.Machine.execJournal out chain tag tgen position reqType hostTag addr words xfer s
  | .ckdata seq off data => Sys2Proof.Machine.execCkdata seq off data s
  | .ckdone seq pages => Sys2Proof.Machine.execCkdone seq pages s
  | .fwd chain toLead inner => Sys2Proof.Machine.execFwd chain toLead inner s
  | .takeover ring => Sys2Proof.Machine.execTakeover ring s
  | .silentTokenTimeout ring => Sys2Proof.Machine.execSilentTokenTimeout ring s
  | .train => Sys2Proof.Machine.execTrain s
  | .trainingComplete ch width dens ranks meets fault => Sys2Proof.Machine.execTrainingComplete ch width dens ranks meets fault s
  | .zqcs => Sys2Proof.Machine.execZqcs s
  | .dramRefresh ch rank urgent => Sys2Proof.Machine.execDramRefresh ch rank urgent s
  | .parityAlert ch replay => Sys2Proof.Machine.execParityAlert ch replay s
  | .neighbourRefresh ch rank bg bank row => Sys2Proof.Machine.execNeighbourRefresh ch rank bg bank row s
  | .patrolScrub ch beat => Sys2Proof.Machine.execPatrolScrub ch beat s
  | .ppr ch value => Sys2Proof.Machine.execPpr ch value s
  | .pprComplete ch done => Sys2Proof.Machine.execPprComplete ch done s
  | .remap ch entry => Sys2Proof.Machine.execRemap ch entry s
  | .remapComplete ch => Sys2Proof.Machine.execRemapComplete ch s
  | .srEnter => Sys2Proof.Machine.execSrEnter s
  | .srIdleEntry => Sys2Proof.Machine.execSrIdleEntry s
  | .srCommit => Sys2Proof.Machine.execSrCommit s
  | .srExit => Sys2Proof.Machine.execSrExit s
  | .pwmUpdate k measured => Sys2Proof.Machine.execPwmUpdate k measured s
  | .senseSample codes vin => Sys2Proof.Machine.execSenseSample codes vin s
  | .phaseCurrentLimit idx => Sys2Proof.Machine.execPhaseCurrentLimit idx s
  | .railFault r => Sys2Proof.Machine.execRailFault r s
  | .speedMeasure speed => Sys2Proof.Machine.execSpeedMeasure speed s
  | .senderAvsWindow slack miss => Sys2Proof.Machine.execSenderAvsWindow slack miss s
  | .avspcidWrite value => Sys2Proof.Machine.execAvspcidWrite value s
  | .ledRailEnable r => Sys2Proof.Machine.execLedRailEnable r s
  | .ledRailDisable r => Sys2Proof.Machine.execLedRailDisable r s
  | .ledSetpointCommand r index => Sys2Proof.Machine.execLedSetpointCommand r index s
  | .pfailDetect => Sys2Proof.Machine.execPfailDetect s
  | .vinFailDetect => Sys2Proof.Machine.execVinFailDetect s
  | .powerReturn => Sys2Proof.Machine.execPowerReturn s
  | .slowRound codes sensors => Sys2Proof.Machine.execSlowRound codes sensors s
  | .tripclr => Sys2Proof.Machine.execTripclr s
  | .colourSensorStart => Sys2Proof.Machine.execColourSensorStart s
  | .colourSensorStop reads => Sys2Proof.Machine.execColourSensorStop reads s
  | .i2cCommand value => Sys2Proof.Machine.execI2cCommand value s
  | .i2cCommandEnd ack data => Sys2Proof.Machine.execI2cCommandEnd ack data s
  | .i2cBusStuck => Sys2Proof.Machine.execI2cBusStuck s
  | .idread => Sys2Proof.Machine.execIdread s
  | .idreadEnd bytes => Sys2Proof.Machine.execIdreadEnd bytes s
  | .bootCheck readError => Sys2Proof.Machine.execBootCheck readError s
  | .pushgo => Sys2Proof.Machine.execPushgo s
  | .sealDecision => Sys2Proof.Machine.execSealDecision s
  | .dawndone => Sys2Proof.Machine.execDawndone s
  | .dawnLimitExpiry => Sys2Proof.Machine.execDawnLimitExpiry s
  | .dusk => Sys2Proof.Machine.execDusk s
  | .floorup => Sys2Proof.Machine.execFloorup s
  | .botReset value who => Sys2Proof.Machine.execBotReset value who s
  | .softReset => Sys2Proof.Machine.execSoftReset s
  | .mchk value => Sys2Proof.Machine.execMchk value s
  | .provision addr key => Sys2Proof.Machine.execProvision addr key s
  | .ship key => Sys2Proof.Machine.execShip key s
  | .service addr key => Sys2Proof.Machine.execService addr key s
  | .retire key => Sys2Proof.Machine.execRetire key s
  | .sdInit => Sys2Proof.Machine.execSdInit s
  | .sdInitEnd result => Sys2Proof.Machine.execSdInitEnd result s
  | .sdGo => Sys2Proof.Machine.execSdGo s
  | .sdTransferEnd done result retries => Sys2Proof.Machine.execSdTransferEnd done result retries s
  | .sdCardDetect card => Sys2Proof.Machine.execSdCardDetect card s
  | .nvjCreditRefill => Sys2Proof.Machine.execNvjCreditRefill s
  | .trimcommit => Sys2Proof.Machine.execTrimcommit s
  | .trimSafePoint cls => Sys2Proof.Machine.execTrimSafePoint cls s
  | .calsave => Sys2Proof.Machine.execCalsave s
  | .sliceRequest value => Sys2Proof.Machine.execSliceRequest value s
  | .testSlice => Sys2Proof.Machine.execTestSlice s
  | .testSliceSkip => Sys2Proof.Machine.execTestSliceSkip s
  | .proofEnable en => Sys2Proof.Machine.execProofEnable en s
  | .dswWrite addr value => Sys2Proof.Machine.execDswWrite addr value s
  | .bypass tdi => Sys2Proof.Machine.execBypass tdi s
  | .idcode => Sys2Proof.Machine.execIdcode s
  | .samplePreload pins tdi => Sys2Proof.Machine.execSamplePreload pins tdi s
  | .extest pins tdi => Sys2Proof.Machine.execExtest pins tdi s
  | .clamp tdi => Sys2Proof.Machine.execClamp tdi s
  | .highz tdi => Sys2Proof.Machine.execHighz tdi s
  | .tapReset => Sys2Proof.Machine.execTapReset s
  | .illegalInstruction n word => Sys2Proof.Machine.execIllegalInstruction n word s
  | .fetchFault n => Sys2Proof.Machine.execFetchFault n s
  | .linkFrameSend p => Sys2Proof.Machine.execLinkFrameSend p s
  | .timeTick count => Sys2Proof.Machine.execTimeTick count s
  | .parityAlertEnd ch => Sys2Proof.Machine.execParityAlertEnd ch s
  | .nvjWriteComplete verified => Sys2Proof.Machine.execNvjWriteComplete verified s
  | .testSliceEnd units failed row micros => Sys2Proof.Machine.execTestSliceEnd units failed row micros s
  | .manifestCheckEnd => Sys2Proof.Machine.execManifestCheckEnd s
  | .lcsTransitionEnd => Sys2Proof.Machine.execLcsTransitionEnd s

end Sys2Proof.Machine
end

