-- ==== Sys2Proof/Safety.lean ====
section
/-! DEFINITION. What a sound state is, and a safe run: the forms that every step keeps. -/

namespace Sys2Proof.Machine

/-- The register file lists words at rising addresses, none at its reset value. -/
def regsWf : List (Reg × Word) → Bool
  | [] => true
  | [e] => decide (e.2 ≠ e.1.resetValue)
  | e :: f :: l => decide (e.2 ≠ e.1.resetValue) && decide (e.1.addr < f.1.addr) && regsWf (f :: l)

/-- The forms of a sound state: the memories and the journal in their canonical form, and every lease, queue and buffer
within what the spec gives it. -/
def State.memSound (s : State) : Bool := Memory.wf s.mem && Memory.wf s.nvj.data

/-- Every waiting command can be sent. -/
def State.queueSound (s : State) : Bool := s.pending.all Instr.wellFormed

/-- A step stops nowhere: it answers a next state. -/
def State.steps (s : State) : Prop := ∃ t, step s = .next t

/-- R92, R95, R487: core `n` runs, no halt is asked of it, and the part executes core instructions. -/
def State.runs (s : State) (n : Fin 5) : Prop :=
  s.coreState n = 1 ∧ s.coresLive = true ∧ (s.core n).haltReq = false

/-! ### What a command answers, and what it leaves unchanged -/

/-- The command answers a next state, and that state has a property. -/
def Answers (c : Instr) (s : State) (P : State → Prop) : Prop := ∃ t, exec c s = .next t ∧ P t

/-- A whole word as a field. -/
def Reg.whole (r : Reg) : Fld := ⟨r, 0, 32⟩

/-- A bit of a word lies in one of the fields. -/
def inFields (fs : List Fld) (r : Reg) (i : Nat) : Prop := ∃ f ∈ fs, f.reg = r ∧ f.lo ≤ i ∧ i < f.lo + f.n

/-- The frame of a change of device state words: nothing outside the words differs, no bit of a word differs but those
of the fields listed, and the pending events are those that were pending and, of the events listed, those whose source
lives. -/
structure Changes (fs : List Fld) (ks : List Nat) (s t : State) : Prop where
  rest : t = { s with regs := t.regs }
  words : ∀ r i, (∀ j, r ≠ .EVT_PEND j) → ¬ inFields fs r i → (t.rd r).getLsbD i = (s.rd r).getLsbD i
  events : ∀ k, t.isPending k = (s.isPending k || (decide (k ∈ ks) && s.eventLive k))

/-- The fields listed take the values beside them, the events listed become pending, and nothing else changes. -/
def Sets (fvs : List (Fld × Nat)) (ks : List Nat) (s t : State) : Prop :=
  Changes (fvs.map Prod.fst) ks s t ∧ ∀ e ∈ fvs, t.get e.1 = e.2

/-- No word outside the word blocks `us` changes (R528; block 0x0C holds the pending events). -/
def WordsKept (us : List Nat) (s t : State) : Prop := ∀ r : Reg, r.unit ∉ us → t.rd r = s.rd r

/-- A saturating counter counts `k` occurrences (R526). -/
def Counted (f : Fld) (k : Nat) (s t : State) : Prop := t.get f = min (2 ^ f.n - 1) (s.get f + k)

/-- The ports of the wall link but those listed are as they were. -/
def PortsKept (ps : List Nat) (s t : State) : Prop := ∀ q, q ∉ ps → t.port q = s.port q

/-- R165, R168: a VC1 or VC2 cell that arrived on port `p` of a tile is sent on from the other port where `yes` holds and
that port is up; otherwise its credit goes back at once. -/
def CellPassed (p : Nat) (c : Cell) (yes : Prop) (s t : State) : Prop :=
  let q := 1 - p
  let n := granules c.units.length
  let cell : QCell := ⟨c.units, some p, false, none⟩
  let sent (vc : Port → List QCell) (ret : Port → Nat) : Prop :=
    (yes → s.up q = true → vc (t.port q) = vc (s.port q) ++ [cell] ∧ ret (t.port p) = ret (s.port p))
    ∧ ((¬ yes ∨ s.up q = false) → vc (t.port q) = vc (s.port q) ∧ ret (t.port p) = ret (s.port p) + n)
  if c.vc = 2 then sent Port.vc2 Port.return2 else sent Port.vc1 Port.return1

/-- The cell is dropped and counted in LNK.DROP[p], with EVTXN, and nothing changes beside its credit. -/
def CellDropped (p : Nat) (s t : State) : Prop :=
  Changes [F.LNK_DROP_COUNT p, F.LNK_PSTAT_EVTXN p] [if p = 8 then 205 else 181 + 2 * p] { s with lnk := t.lnk } t
  ∧ Counted (F.LNK_DROP_COUNT p) 1 s t ∧ t.on (F.LNK_PSTAT_EVTXN p) = true
  ∧ PortsKept [p, if s.isTile then 1 - p else p] s t ∧ t.lnk = { s.lnk with ports := t.lnk.ports }

/-- The words whose fields straps, fuses and the start check give after a full reset (Table 22.24). -/
def startWord : Reg → Bool
  | .BOT_STAT | .BOT_LCS | .BOT_NONCE | .CLK_STAT | .CLK_START | .TIM_CFG | .HKP_SDSTAT => true
  | .ASR_DEVID _ | .ASR_HKHASH _ | .ASR_MKHASH _ | .ASR_DEVPUB _ => true
  | _ => false

/-- R2, R531, Tables 22.23, 22.24: a full reset, with what the always-on domain then holds: every word but those of Table
22.24 at its reset value, every memory lost, every unit and core at its reset state; the journal, but for a page that was
being programmed, and the fuses, but for a transition under way, are kept. -/
structure FullyReset (a : AonState) (s t : State) : Prop where
  words : ∀ r, startWord r = false → t.rd r = r.resetValue
  role : t.isTile = a.role
  lifeCycle : t.get F.BOT_LCS_STATE = t.fuse.lifeCycle % 8
  rest : t = { State.reset with
    regs := t.regs, nvj := t.nvj, fuse := t.fuse, aon := { a with phase := min 5 a.phase }, sd := ⟨s.sd.card, none⟩,
    tap := s.tap, sent := s.sent, freeCtr := t.freeCtr, pending := s.pending }
  journal : s.asr.jobs = [] → t.nvj = s.nvj
  fuses : s.bot.lcs = none → t.fuse = s.fuse

/-- The frame of a core instruction that completes: only core `n` differs, its program counter moves on to the next
instruction, its instruction count grows by one, and of its general registers only those that `v` names get a value; g0
stays 0. -/
structure CoreWrites (n : Fin 5) (v : BitVec 5 → Option Word) (s t : State) : Prop where
  rest : t = { s with cores := t.cores }
  others : ∀ m, m ≠ n → t.core m = s.core m
  core : t.core n =
    { s.core n with g := (t.core n).g, pc := (s.core n).pc + 4, instret := (s.core n).instret + 1 }
  regs : ∀ r, (t.core n).rg r = if r = 0 then 0 else (v r).getD ((s.core n).rg r)

/-- R71: the entry into a trap of a core that is in no trap: EPC, CAUSE, PSUP, SUP and INTRAP are written and execution
goes on at TVEC; nothing else changes. -/
structure TrapEntered (n : Fin 5) (code detail : Nat) (s t : State) : Prop where
  rest : t = { s with cores := t.cores, regs := t.regs }
  words : ∀ r, t.rd r = s.rd r
  others : ∀ m, m ≠ n → t.core m = s.core m
  core : t.core n = { s.core n with
    epc := (s.core n).pc, causeCode := BitVec.ofNat 8 code, causeDetail := BitVec.ofNat 8 detail,
    psup := (s.core n).sup, sup := true, inTrap := true, pc := (s.core n).tvec, wait := none }

/-- R73, R96, Table 4.1: a trap of a core that is in a trap: it halts with HCAUSE 3 and DTCODE, the resume address is that
of the instruction, and the halt notice is given if HEVEN is 1; EPC and CAUSE keep the first trap. -/
structure DoubleTrap (n : Fin 5) (code : Nat) (s t : State) : Prop where
  frame : Changes
    [F.HRC_STAT_STATE n, F.HRC_STAT_HCAUSE n, F.HRC_STAT_DTCODE n, (Reg.HRC_PCLO n).whole, (Reg.HRC_PCHI n).whole]
    (if s.on (F.HRC_CFG_HEVEN n) then [480 + s.get (F.HRC_CFG_HEVT n)] else []) { s with cores := t.cores } t
  state : t.get (F.HRC_STAT_STATE n) = 0
  cause : t.get (F.HRC_STAT_HCAUSE n) = 3
  code : t.get (F.HRC_STAT_DTCODE n) = code
  low : t.rd (.HRC_PCLO n) = (s.core n).pc.extractLsb' 0 32
  high : t.rd (.HRC_PCHI n) = ((s.core n).pc.extractLsb' 32 8).setWidth 32
  others : ∀ m, m ≠ n → t.core m = s.core m
  core : t.core n = { s.core n with wait := none, haltReq := false }

/-- R95, R96, Table 4.1: a core halts with a cause and a resume address; the halt notice is given unless the halt was
requested; nothing else changes. -/
structure CoreHalts (n : Fin 5) (cause : Nat) (resume : BitVec 40) (s t : State) : Prop where
  frame : Changes
    [F.HRC_STAT_STATE n, F.HRC_STAT_HCAUSE n, (Reg.HRC_PCLO n).whole, (Reg.HRC_PCHI n).whole]
    (if cause ≠ 2 ∧ s.on (F.HRC_CFG_HEVEN n) then [480 + s.get (F.HRC_CFG_HEVT n)] else []) { s with cores := t.cores } t
  state : t.get (F.HRC_STAT_STATE n) = 0
  cause : t.get (F.HRC_STAT_HCAUSE n) = cause
  low : t.rd (.HRC_PCLO n) = resume.extractLsb' 0 32
  high : t.rd (.HRC_PCHI n) = (resume.extractLsb' 32 8).setWidth 32
  others : ∀ m, m ≠ n → t.core m = s.core m
  core : t.core n = { s.core n with wait := none, haltReq := false }

/-- The frame of an instruction that changes its core only: the core becomes `c`. -/
structure CoreBecomes (n : Fin 5) (c : Core) (s t : State) : Prop where
  rest : t = { s with cores := t.cores }
  others : ∀ m, m ≠ n → t.core m = s.core m
  core : t.core n = c

/-- A core waits with a wait kept: STATE reads waiting, and nothing else changes. -/
structure CoreWaits (n : Fin 5) (w : Wait) (s t : State) : Prop where
  frame : Changes [F.HRC_STAT_STATE n] [] { s with cores := t.cores } t
  state : t.get (F.HRC_STAT_STATE n) = 2
  others : ∀ m, m ≠ n → t.core m = s.core m
  core : t.core n = { s.core n with wait := some w }

/-- A waiting core resumes with a result in `gd` and goes on at the next instruction. -/
structure CoreWakes (n : Fin 5) (gd : BitVec 5) (v : Word) (s t : State) : Prop where
  frame : Changes [F.HRC_STAT_STATE n] [] { s with cores := t.cores } t
  state : t.get (F.HRC_STAT_STATE n) = 1
  others : ∀ m, m ≠ n → t.core m = s.core m
  core : t.core n = { s.core n with
    g := (t.core n).g, wait := none, pc := (s.core n).pc + 4, instret := (s.core n).instret + 1 }
  regs : ∀ r, (t.core n).rg r = if r = 0 then 0 else if r = gd then v else (s.core n).rg r

/-- A trap is taken, outside a trap or inside one. -/
def TrapTaken (n : Fin 5) (code detail : Nat) (s t : State) : Prop :=
  if (s.core n).inTrap then DoubleTrap n code s t else TrapEntered n code detail s t

/-- The frame of a core instruction that goes on elsewhere: as CoreWrites, with the program counter at `pc`. -/
structure CoreJumps (n : Fin 5) (pc : BitVec 40) (v : BitVec 5 → Option Word) (s t : State) : Prop where
  rest : t = { s with cores := t.cores }
  others : ∀ m, m ≠ n → t.core m = s.core m
  core : t.core n = { s.core n with g := (t.core n).g, pc := pc, instret := (s.core n).instret + 1 }
  regs : ∀ r, (t.core n).rg r = if r = 0 then 0 else (v r).getD ((s.core n).rg r)

/-- No general register gets a value. -/
def noReg : BitVec 5 → Option Word := fun _ => none

/-- A pair gets a 64-bit value (R52). -/
def onePair (gd : BitVec 5) (v : BitVec 64) : BitVec 5 → Option Word := fun r =>
  if r = gd then some (v.extractLsb' 0 32) else if r = gd + 1 then some (v.extractLsb' 32 32) else none

/-- One general register gets a value. -/
def oneReg (gd : BitVec 5) (v : Word) : BitVec 5 → Option Word := fun r => if r = gd then some v else none

/-! ### Host transactions and word writes -/

/-- The host and the request bytes of a transaction command (Tables 2.1, 2.4). -/
def hostBytes : Instr → Option (Who × List Byte)
  | .hostRead who tag wall len addr => some (who, headBytes 1 (b2n wall) tag.toNat len addr)
  | .hostWrite who tag wall addr data => some (who, headBytes 2 (b2n wall) tag.toNat data.length addr ++ data)
  | .hostFill who tag wall len addr pattern =>
    some (who, headBytes 3 (b2n wall) tag.toNat len addr ++ beBytes 4 pattern.toNat)
  | .doorbell who tag number value => some (who, headBytes 4 0 tag.toNat 4 number ++ beBytes 4 value.toNat)
  | .claim who tag => some (who, headBytes 5 0 tag.toNat 0 0)
  | .leaseResponse who tag payload => some (who, headBytes 5 0 tag.toNat payload.length 1 ++ payload)
  | .renew who tag => some (who, headBytes 5 0 tag.toNat 0 2)
  | .release who tag => some (who, headBytes 5 0 tag.toNat 0 3)
  | .status who tag => some (who, headBytes 6 0 tag.toNat 0 0)
  | _ => none

/-- A transaction that arrives now, without a message. -/
def State.arriving (s : State) (w : Who) (bytes : List Byte) (busy : Bool) : HostTxn :=
  ⟨w, bytes, busy, none, 0, s.isHolder w, s.tim.ticks⟩

/-- R37, R386: the state with the response of a transaction without a message on its way: queued for the QSPI host, sent to
another; the lead of a pair first records the transaction of its lease holder. -/
def State.answered (s : State) (x : HostTxn) (r : List Byte) : State :=
  match x.who with
  | .qspi => { s with hst := { s.hst with responses := s.hst.responses ++ [r] } }
  | .master => { s with sent := s.sent ++ [.response .master r] }
  | .channel _ _ => if s.paired && s.role == 1 && (x.held || s.isHolder x.who) then s.respond x r
      else { s with sent := s.sent ++ [.response x.who r] }

/-- R36, R37: the part takes a transaction: the QSPI target answers and has room for the request. -/
def State.takes (s : State) (w : Who) (bytes : List Byte) : Prop :=
  w = .qspi → s.qspiOpen = true ∧ s.requestBytesHeld + bytes.length ≤ 4096

/-- R37: a response of `n` payload bytes fits. -/
def State.fits (s : State) (w : Who) (n : Nat) : Prop := w = .qspi → s.responseBytesHeld + 16 + n ≤ 4096

/-- R25, R35, R36, R441, R556: a transaction that arrives may start at once: the part takes it, nothing of its carrier is in
progress, no earlier CLAIM waits, and Midnight has not come. -/
def State.starts (s : State) (w : Who) (bytes : List Byte) : Prop :=
  s.on F.PWR_STAT_MIDNIGHT = false ∧ s.takes w bytes
  ∧ ∀ k, whoCarrier w = some k → s.inProgress k = 0 ∧ s.claimWaits (s.arriving w bytes false) = false

/-- R29, R32: a transaction that starts is dropped. -/
def State.drops (s : State) (x : HostTxn) : Prop := s.dropsTxn x.who (txnHead x.bytes) = true ∧ s.accepted x = false

/-- R29, R30, R38, R45, R555, R559: a transaction starts, passes every check and is not relayed, and its response of `n`
payload bytes fits. -/
def State.serves (s : State) (w : Who) (bytes : List Byte) (n : Nat) : Prop :=
  s.starts w bytes ∧ s.fits w n ∧ ¬ s.drops (s.arriving w bytes false) ∧ (txnHead bytes).badFormat = false
  ∧ s.needsLease w (txnHead bytes) = false ∧ s.retiredRefuses (txnHead bytes) = false ∧ (txnHead bytes).wall = false

/-- The words of which a write does more, or less, than Table 0.4 says of their fields. -/
def Reg.actsOnWrite : Reg → Bool
  | .LAN_CTL _ | .LAN_TXEQ _ | .LNK_PCTL _ | .LNK_CFG | .LNK_EPOCH _ | .LNK_ANNOUNCE _ | .LNK_GENKEY _ _ | .LNK_RING _ => true
  | .TIM_CFG | .TIM_LOCKLIM | .TIM_SNAP | .TIM_LQPUSH _ | .TIM_LQCTL _ | .TIM_FPER | .TIM_FPERFR | .TIM_FPERCID | .CLK_GATE => true
  | .ING_QCFG _ | .ING_PTPCFG | .ING_SCTL _ | .ING_SFMT _ | .ING_SSIZE _ | .ING_SRATE _ | .ING_SHANDLE _ => true
  | .ING_SSTAGE _ | .ING_SDSTA _ | .ING_SPORTA _ | .ING_SDSTB _ | .ING_SPORTB _ | .SRF_CMD | .CMP_CTL | .COR_CFG => true
  | .COR_CTXBASE | .COR_ARMCID | .COR_LEDBASE | .COR_LOOP _ | .SCN_CTL | .SCN_GEOM | .SCN_FADECTL | .SCN_GCTL _ => true
  | .LMP_CFG | .LMP_STBASE | .HRC_CTL _ | .HRC_PCLO _ | .HRC_PCHI _ | .EVT_PEND _ | .EVT_FORCE | .EVT_ROUTE _ => true
  | .HST_LEASECTL | .MEM_CFG | .MEM_SRCTL | .MEM_PPR _ | .MEM_RMCTL _ | .MEM_REMAP _ _ | .PWR_AVSPCID | .PWR_LEDMAP _ => true
  | .HKP_CTL | .HKP_I2CCMD | .HKP_SDCTL | .ASR_CTL | .ASR_TRIM _ | .ASR_SLICECTL | .ASR_PROOFCFG | .MIR_CTL => true
  | .MIR_STAT | .BOT_CTL | .BOT_DAWNCFG | .BOT_RESET | .BOT_LCTL | .BOT_MCHK => true
  | _ => false

/-- R525, Table 0.4: the bit of a word after a write: a field that takes writes has the value written, a flag is cleared
by 1, and every other bit keeps its value. -/
def writtenBit (s : State) (r : Reg) (v : Word) (i : Nat) : Bool :=
  let takes := bit r.info.rw i || (bit r.info.lk i && !s.bot.dawned)
  (if takes then v.getLsbD i else (s.rd r).getLsbD i) && !(bit r.info.w1c i && v.getLsbD i)

/-- R336: the sum of the refresh values of consecutive visits of a lamp, and the residual they leave. -/
def refreshSum (k code : Nat) : Nat → Nat → Nat × Nat
  | residual, 0 => (0, residual)
  | residual, visits + 1 =>
    let v := refreshValue k code residual
    let rest := refreshSum k code v.2 visits
    (v.1 + rest.1, rest.2)

end Sys2Proof.Machine
end

