-- ==== Sys2Proof/Certificates/Slice0/Obligations.lean ====
section
/-! DEFINITION. The statements about the model. -/

open Sys2Proof Sys2Proof.Machine

/-! ### Hour cores -/

/-- R51, R55, R56, Table 3.3: a running core that executes an arithmetic or logic instruction writes the result of Table 3.3
to gd, goes on at the next instruction, counts it, and changes nothing else; a result for g0 is discarded. Results wrap;
ADDI and SLTI sign-extend their immediate, ANDI, ORI and XORI zero-extend it; a shift takes the low five bits of its
amount. DIV, DIVU and REM give quotient and remainder; a divisor of zero takes the DIVIDE trap; the most negative number
by −1 gives itself, with remainder 0. -/
def Obligations.ArithmeticInstructionsWriteTheirResults : Prop :=
  (∀ (s : State) (n : Fin 5) (gd ga gb : BitVec 5) (imm : BitVec 16) (amount : BitVec 5),
    s.runs n →
    let a := (s.core n).rg ga
    let b := (s.core n).rg gb
    Answers (.add n gd ga gb) s (CoreWrites n (oneReg gd (a + b)) s)
    ∧ Answers (.sub n gd ga gb) s (CoreWrites n (oneReg gd (a - b)) s)
    ∧ Answers (.and n gd ga gb) s (CoreWrites n (oneReg gd (a &&& b)) s)
    ∧ Answers (.or n gd ga gb) s (CoreWrites n (oneReg gd (a ||| b)) s)
    ∧ Answers (.xor n gd ga gb) s (CoreWrites n (oneReg gd (a ^^^ b)) s)
    ∧ Answers (.shl n gd ga gb) s (CoreWrites n (oneReg gd (a <<< (b.toNat % 32))) s)
    ∧ Answers (.shr n gd ga gb) s (CoreWrites n (oneReg gd (a >>> (b.toNat % 32))) s)
    ∧ Answers (.sra n gd ga gb) s (CoreWrites n (oneReg gd (a.sshiftRight (b.toNat % 32))) s)
    ∧ Answers (.slt n gd ga gb) s (CoreWrites n (oneReg gd (if a.toInt < b.toInt then 1 else 0)) s)
    ∧ Answers (.sltu n gd ga gb) s (CoreWrites n (oneReg gd (if a.toNat < b.toNat then 1 else 0)) s)
    ∧ Answers (.min n gd ga gb) s (CoreWrites n (oneReg gd (if a.toInt < b.toInt then a else b)) s)
    ∧ Answers (.max n gd ga gb) s (CoreWrites n (oneReg gd (if a.toInt < b.toInt then b else a)) s)
    ∧ Answers (.mul n gd ga gb) s (CoreWrites n (oneReg gd (a * b)) s)
    ∧ Answers (.mulh n gd ga gb) s
        (CoreWrites n (oneReg gd ((a.signExtend 64 * b.signExtend 64).extractLsb' 32 32)) s)
    ∧ Answers (.addi n gd ga imm) s (CoreWrites n (oneReg gd (a + imm.signExtend 32)) s)
    ∧ Answers (.andi n gd ga imm) s (CoreWrites n (oneReg gd (a &&& imm.setWidth 32)) s)
    ∧ Answers (.ori n gd ga imm) s (CoreWrites n (oneReg gd (a ||| imm.setWidth 32)) s)
    ∧ Answers (.xori n gd ga imm) s (CoreWrites n (oneReg gd (a ^^^ imm.setWidth 32)) s)
    ∧ Answers (.slti n gd ga imm) s (CoreWrites n (oneReg gd (if a.toInt < imm.toInt then 1 else 0)) s)
    ∧ Answers (.shli n gd ga amount) s (CoreWrites n (oneReg gd (a <<< amount.toNat)) s)
    ∧ Answers (.shri n gd ga amount) s (CoreWrites n (oneReg gd (a >>> amount.toNat)) s)
    ∧ Answers (.srai n gd ga amount) s (CoreWrites n (oneReg gd (a.sshiftRight amount.toNat)) s)
    ∧ Answers (.lui n gd imm) s (CoreWrites n (oneReg gd (BitVec.ofNat 32 (imm.toNat * 65536))) s))
  ∧ (∀ (s : State) (n : Fin 5) (gd ga gb : BitVec 5), s.runs n →
    let a := (s.core n).rg ga
    let b := (s.core n).rg gb
    (b ≠ 0 →
      Answers (.div n gd ga gb) s (CoreWrites n (oneReg gd (BitVec.ofInt 32 (a.toInt.tdiv b.toInt))) s)
      ∧ Answers (.divu n gd ga gb) s (CoreWrites n (oneReg gd (BitVec.ofNat 32 (a.toNat / b.toNat))) s)
      ∧ Answers (.rem n gd ga gb) s (CoreWrites n (oneReg gd (BitVec.ofInt 32 (a.toInt.tmod b.toInt))) s))
    ∧ (a = 0x80000000 → b = 0xFFFFFFFF →
      Answers (.div n gd ga gb) s (CoreWrites n (oneReg gd 0x80000000) s)
      ∧ Answers (.rem n gd ga gb) s (CoreWrites n (oneReg gd 0) s))
    ∧ (b = 0 →
      Answers (.div n gd ga gb) s (TrapTaken n 6 0 s)
      ∧ Answers (.divu n gd ga gb) s (TrapTaken n 6 0 s)
      ∧ Answers (.rem n gd ga gb) s (TrapTaken n 6 0 s)))

/-- R63, R54, Table 3.5: a branch that is taken, and JAL, go on at the target, counted in words from their own address;
one that is not taken goes on at the next instruction; JAL gives pair g30 the next address; JALR goes on at the pair ga
plus its offset in words and gives pair gd the next address, which gd = 0 discards. A target outside 40 bits, or a JALR
target that is not word aligned, takes the FETCH trap and writes no register. -/
def Obligations.BranchesAndJumpsReachTheirTargets : Prop :=
  ∀ (s : State) (n : Fin 5) (gd ga gb : BitVec 5) (off : BitVec 13) (far : BitVec 26) (imm : BitVec 16),
    s.runs n →
    let a := (s.core n).rg ga
    let b := (s.core n).rg gb
    let pc : Int := (s.core n).pc.toNat
    let sum : Int := (if ga = 0 then 0 else (s.core n).rg (ga + 1) ++ (s.core n).rg ga : BitVec 64).toNat + 4 * imm.toInt
    let goes (c : Instr) (taken : Prop) : Prop :=
      (¬ taken → Answers c s (CoreWrites n noReg s))
      ∧ (taken → 0 ≤ pc + 4 * off.toInt → pc + 4 * off.toInt < 2 ^ 40 →
          Answers c s (CoreJumps n (BitVec.ofInt 40 (pc + 4 * off.toInt)) noReg s))
      ∧ (taken → (pc + 4 * off.toInt < 0 ∨ 2 ^ 40 ≤ pc + 4 * off.toInt) → Answers c s (TrapTaken n 3 0 s))
    goes (.breq n ga gb off) (a = b)
    ∧ goes (.brne n ga gb off) (a ≠ b)
    ∧ goes (.brlts n ga gb off) (a.toInt < b.toInt)
    ∧ goes (.brges n ga gb off) (b.toInt ≤ a.toInt)
    ∧ goes (.brltu n ga gb off) (a.toNat < b.toNat)
    ∧ goes (.brgeu n ga gb off) (b.toNat ≤ a.toNat)
    ∧ (0 ≤ pc + 4 * far.toInt → pc + 4 * far.toInt < 2 ^ 40 →
        Answers (.jal n far) s (CoreJumps n (BitVec.ofInt 40 (pc + 4 * far.toInt))
          (onePair 30 (((s.core n).pc + 4).setWidth 64)) s))
    ∧ ((pc + 4 * far.toInt < 0 ∨ 2 ^ 40 ≤ pc + 4 * far.toInt) → Answers (.jal n far) s (TrapTaken n 3 0 s))
    ∧ (ga.toNat % 2 = 0 → gd.toNat % 2 = 0 → 0 ≤ sum → sum < 2 ^ 40 → sum % 4 = 0 →
        Answers (.jalr n gd ga imm) s (CoreJumps n (BitVec.ofInt 40 sum)
          (if gd = 0 then noReg else onePair gd (((s.core n).pc + 4).setWidth 64)) s))
    ∧ (ga.toNat % 2 = 0 → gd.toNat % 2 = 0 → (sum < 0 ∨ 2 ^ 40 ≤ sum ∨ sum % 4 ≠ 0) →
        Answers (.jalr n gd ga imm) s (TrapTaken n 3 0 s))
    ∧ ((ga.toNat % 2 = 1 ∨ gd.toNat % 2 = 1) → Answers (.jalr n gd ga imm) s (TrapTaken n 1 0 s))

/-- Table 3.4, R57, R98: a load of memory that is not refused, is aligned and meets no uncorrectable data gives gd its
bytes as a little-endian number, extended as Table 3.4 says; it changes no memory, and device state words only where the
access wakes the DRAM or corrects an error; a load of a device state word gives the word. A store writes the low bytes of
its register or pair, least significant first, and no other byte; a store to a device state word writes the word. -/
def Obligations.LoadsAndStoresMoveLittleEndianBytes : Prop :=
  (∀ (s : State) (n : Fin 5) (gd ga : BitVec 5) (off : BitVec 13) (a : Nat),
    s.runs n → ga.toNat % 2 = 0 → (s.core n).dataAddr ga off = some a →
    let data (k : Nat) : Nat :=
      leNat (if s.inMemory a k then s.bytes a k else (List.range k).map fun i => s.romByte (a + i))
    let loads (c : Instr) (k : Nat) (v : BitVec 5 → Option Word) : Prop :=
      s.loadAllowed n (s.core n) a k → a % k = 0 → touchesWords a k = false →
      (s.inMemory a k = true → s.badRange a k = false) →
      Answers c s fun t =>
        CoreWrites n v { s with regs := t.regs } t ∧ (inDram a = false → s.soft = [] → t.regs = s.regs)
    loads (.lb n gd ga off) 1 (oneReg gd (((BitVec.ofNat 8 (data 1))).signExtend 32))
    ∧ loads (.lbu n gd ga off) 1 (oneReg gd (BitVec.ofNat 32 (data 1)))
    ∧ loads (.lh n gd ga off) 2 (oneReg gd (((BitVec.ofNat 16 (data 2))).signExtend 32))
    ∧ loads (.lhu n gd ga off) 2 (oneReg gd (BitVec.ofNat 32 (data 2)))
    ∧ loads (.lw n gd ga off) 4 (oneReg gd (BitVec.ofNat 32 (data 4)))
    ∧ (gd.toNat % 2 = 0 → gd ≠ 0 → loads (.ld n gd ga off) 8 (onePair gd (BitVec.ofNat 64 (data 8))))
    ∧ (s.loadAllowed n (s.core n) a 4 → a % 4 = 0 → touchesWords a 4 = true →
        Answers (.lw n gd ga off) s (CoreWrites n (oneReg gd (s.wordRead a).1) (s.wordRead a).2)))
  ∧ (∀ (s : State) (n : Fin 5) (gd ga : BitVec 5) (off : BitVec 13) (a : Nat),
    s.runs n → ga.toNat % 2 = 0 → (s.core n).dataAddr ga off = some a → Memory.wf s.mem →
    let stores (c : Instr) (k v : Nat) : Prop :=
      s.storeAllowed n (s.core n) a k → a % k = 0 → touchesWords a k = false → s.bad (a / 8 * 8) = false →
      Answers c s fun t =>
        CoreWrites n noReg { s with regs := t.regs, mem := t.mem, poison := t.poison, soft := t.soft } t
        ∧ (∀ x, t.byte x = if a ≤ x ∧ x < a + k then BitVec.ofNat 8 (v / 256 ^ (x - a)) else s.byte x)
        ∧ (inDram a = false → a / 8 * 8 ∉ s.soft → t.regs = s.regs)
    stores (.sb n gd ga off) 1 ((s.core n).rg gd).toNat
    ∧ stores (.sh n gd ga off) 2 ((s.core n).rg gd).toNat
    ∧ stores (.sw n gd ga off) 4 ((s.core n).rg gd).toNat
    ∧ (gd.toNat % 2 = 0 → gd ≠ 0 → stores (.sd n gd ga off) 8 ((s.core n).pair gd).toNat)
    ∧ (s.storeAllowed n (s.core n) a 4 → a % 4 = 0 → touchesWords a 4 = true →
        let u := s.wordStore a ((s.core n).rg gd) .core
        u.coreState n = 1 →
        ((u.core n).haltReq = false → Answers (.sw n gd ga off) s (CoreWrites n noReg u))
        ∧ ((u.core n).haltReq = true → (u.core n).holdsHalt = false → Answers (.sw n gd ga off) s
            (CoreHalts n 2 ((u.core n).pc + 4)
              (u.setCore n { u.core n with pc := (u.core n).pc + 4, instret := (u.core n).instret + 1 })))))

/-- R59: gd receives the old word; memory receives the old word plus gb (ATADD), gb (ATXCH), or the odd register of pair
gb if the old word equals the even one (ATCAS); no other byte changes. -/
def Obligations.AtomicsReturnTheOldWord : Prop :=
  ∀ (s : State) (n : Fin 5) (gd ga gb : BitVec 5) (a : Nat),
    s.runs n → ga.toNat % 2 = 0 → (s.core n).dataAddr ga 0 = some a → Memory.wf s.mem →
    s.atomicAllowed n (s.core n) a → a % 4 = 0 → s.bad (a / 8 * 8) = false → s.badRange a 4 = false →
    let old := BitVec.ofNat 32 (leNat (s.bytes a 4))
    let atomic (c : Instr) (v : Word) : Prop :=
      Answers c s fun t =>
        CoreWrites n (oneReg gd old) { s with regs := t.regs, mem := t.mem, poison := t.poison, soft := t.soft } t
        ∧ (∀ x, t.byte x = if a ≤ x ∧ x < a + 4 then BitVec.ofNat 8 (v.toNat / 256 ^ (x - a)) else s.byte x)
    atomic (.atadd n gd ga gb) (old + (s.core n).rg gb)
    ∧ atomic (.atxch n gd ga gb) ((s.core n).rg gb)
    ∧ (gb.toNat % 2 = 0 → gb ≠ 0 →
        atomic (.atcas n gd ga gb) (if old = (s.core n).rg gb then (s.core n).rg (gb + 1) else old))

/-- R58, R52, R54, R61: a load, store or atomic that is refused takes the ACCESS trap, aligned or not; one that is not
refused but misaligned takes the ALIGN trap; an odd base, and a pair that is odd or 0, take the ILLEGAL trap; a sum
beyond 40 bits takes the ACCESS trap; in user mode, device state words, the NVJ window, the boot ROM and another core's
local memory are refused. -/
def Obligations.RefusedAndMisalignedAccessesTrap : Prop :=
  ∀ (s : State) (n : Fin 5) (gd ga gb : BitVec 5) (off : BitVec 13), s.runs n →
    let c := s.core n
    let traps (i : Instr) (o : BitVec 13) (k : Nat) (allowed : Nat → Bool) : Prop :=
      (ga.toNat % 2 = 1 → Answers i s (TrapTaken n 1 0 s))
      ∧ (ga.toNat % 2 = 0 → c.dataAddr ga o = none → Answers i s (TrapTaken n 4 0 s))
      ∧ (ga.toNat % 2 = 0 → ∀ a, c.dataAddr ga o = some a →
          (allowed a = false → Answers i s (TrapTaken n 4 0 s))
          ∧ (allowed a = true → a % k ≠ 0 → Answers i s (TrapTaken n 5 0 s))
          ∧ (c.sup = false → (0xE600000000 ≤ a ∨ (0xE000000000 ≤ a ∧ a < 0xE000140000 ∧ (a - 0xE000000000) / 0x40000 ≠ n.val)) →
              Answers i s (TrapTaken n 4 0 s)))
    let ld (k : Nat) := fun a => s.loadAllowed n c a k
    let st (k : Nat) := fun a => s.storeAllowed n c a k
    let at' := fun a => s.atomicAllowed n c a
    traps (.lb n gd ga off) off 1 (ld 1) ∧ traps (.lbu n gd ga off) off 1 (ld 1)
    ∧ traps (.lh n gd ga off) off 2 (ld 2) ∧ traps (.lhu n gd ga off) off 2 (ld 2)
    ∧ traps (.lw n gd ga off) off 4 (ld 4)
    ∧ traps (.sb n gd ga off) off 1 (st 1) ∧ traps (.sh n gd ga off) off 2 (st 2) ∧ traps (.sw n gd ga off) off 4 (st 4)
    ∧ (gd.toNat % 2 = 0 → gd ≠ 0 → traps (.ld n gd ga off) off 8 (ld 8) ∧ traps (.sd n gd ga off) off 8 (st 8))
    ∧ ((gd.toNat % 2 = 1 ∨ gd = 0) →
        Answers (.ld n gd ga off) s (TrapTaken n 1 0 s) ∧ Answers (.sd n gd ga off) s (TrapTaken n 1 0 s))
    ∧ traps (.atadd n gd ga gb) 0 4 at' ∧ traps (.atxch n gd ga gb) 0 4 at'
    ∧ (gb.toNat % 2 = 0 → gb ≠ 0 → traps (.atcas n gd ga gb) 0 4 at')
    ∧ ((gb.toNat % 2 = 1 ∨ gb = 0) → Answers (.atcas n gd ga gb) s (TrapTaken n 1 0 s))

/-- R71, R73, R74, Table 3.9: TRAP takes the TRAP trap with its code in DETAIL; a word that is no instruction takes the
ILLEGAL trap, and a fetch that R61 or R62 refuses the FETCH trap: EPC, CAUSE, PSUP, SUP and INTRAP are written, the core
goes on at TVEC, no general register and no memory changes and INSTRET does not count; inside a trap the core halts with
HCAUSE 3. A program word spells the instruction of its opcode, its fields where its format has them. -/
def Obligations.TrapsSaveTheStateAndEnterAtTvec : Prop :=
  ∀ (s : State) (n : Fin 5) (code : BitVec 7) (word : Word), s.runs n →
    (∀ (gd ga gb : BitVec 5) (imm : BitVec 16) (off : BitVec 13) (far : BitVec 26),
      decodeCore n (0x00#6 ++ gd ++ ga ++ gb ++ 0x001#11) = some (.sub n gd ga gb)
      ∧ decodeCore n (0x02#6 ++ gd ++ ga ++ imm) = some (.addi n gd ga imm)
      ∧ decodeCore n (0x09#6 ++ gd ++ ga ++ 2#3 ++ off) = (if ga.toNat % 2 = 0 then some (.lw n gd ga off) else none)
      ∧ decodeCore n (0x0B#6 ++ ga ++ gb ++ 1#3 ++ off) = some (.brne n ga gb off)
      ∧ decodeCore n (0x0C#6 ++ far) = some (.jal n far)
      ∧ decodeCore n (0x10#6 ++ 0#15 ++ code ++ 0#4) = some (.trap n code)
      ∧ decodeCore n (0x11#6 ++ gd ++ ga ++ gb ++ 0#11) = if gb = 0 then some (.await n gd ga) else none)
    ∧ (∀ low : BitVec 26, ∀ op : BitVec 6, (op = 0x0F ∨ 0x17 ≤ op.toNat) → decodeCore n (op ++ low) = none) ∧
    Answers (.trap n code) s (TrapTaken n 9 code.toNat s)
    ∧ (coreWordLegal word = false → Answers (.illegalInstruction n word) s (TrapTaken n 1 0 s))
    ∧ (fetchAllowed s (s.core n) = false → Answers (.fetchFault n) s (TrapTaken n 3 0 s))
    ∧ (fetchAllowed s (s.core n) = true → s.badRange (s.core n).pc.toNat 4 = true →
        Answers (.fetchFault n) s (TrapTaken n 10 0 s))

/-- R66, R67, R69, R72, R74, Tables 3.6 to 3.8: in supervisor mode ERET goes on at EPC, sets SUP to PSUP and clears INTRAP,
and HALT halts the core with HCAUSE 1 and the next instruction as its resume address; FENCE and FENCE.T go on at the next
instruction. CWR gives gd, or a pair, the core status word; CWW gives the word its register or pair, with the reserved
bits 0; a CWW of INSTRET is not counted. -/
def Obligations.SystemInstructionsActOnTheCore : Prop :=
  (∀ (s : State) (n : Fin 5), s.runs n →
    let c := s.core n
    let done := { c with pc := c.pc + 4, instret := c.instret + 1 }
    (c.sup = true →
      Answers (.eret n) s (CoreBecomes n
        { c with pc := c.epc, sup := c.psup, inTrap := false, instret := c.instret + 1 } s)
      ∧ Answers (.halt n) s (CoreHalts n 1 (c.pc + 4) (s.setCore n done)))
    ∧ Answers (.fence n) s (CoreBecomes n done s)
    ∧ Answers (.fenceT n) s (CoreBecomes n done s))
  ∧ (∀ (s : State) (n : Fin 5) (g : BitVec 5), s.runs n → (s.core n).sup = true →
    let c := s.core n
    let pairOk := g.toNat % 2 = 0 ∧ g ≠ 0
    let v := c.rg g
    let w := c.rg (g + 1) ++ c.rg g
    let done (d : Core) : Core := { d with pc := c.pc + 4, instret := c.instret + 1 }
    Answers (.cwr n g 0) s (CoreWrites n (oneReg g (BitVec.ofNat 32 (c.sup.toNat + 2 * c.psup.toNat + 4 * c.inTrap.toNat))) s)
    ∧ (pairOk → Answers (.cwr n g 1) s (CoreWrites n (onePair g (c.epc.setWidth 64)) s))
    ∧ Answers (.cwr n g 2) s (CoreWrites n (oneReg g ((c.causeDetail ++ c.causeCode).setWidth 32)) s)
    ∧ (pairOk → Answers (.cwr n g 3) s (CoreWrites n (onePair g (c.tvec.setWidth 64)) s))
    ∧ Answers (.cwr n g 4) s (CoreWrites n (oneReg g (c.evmask.setWidth 32)) s)
    ∧ (pairOk → Answers (.cwr n g 5) s (CoreWrites n (onePair g c.instret) s))
    ∧ Answers (.cwr n 0 5) s (CoreWrites n noReg s)
    ∧ Answers (.cww n 0 g) s (CoreBecomes n
        (done { c with sup := v.getLsbD 0, psup := v.getLsbD 1, inTrap := v.getLsbD 2 }) s)
    ∧ (pairOk → Answers (.cww n 1 g) s (CoreBecomes n (done { c with epc := (w.extractLsb' 2 38) ++ (0 : BitVec 2) }) s))
    ∧ Answers (.cww n 2 g) s (CoreBecomes n
        (done { c with causeCode := v.extractLsb' 0 8, causeDetail := v.extractLsb' 8 8 }) s)
    ∧ (pairOk → Answers (.cww n 3 g) s (CoreBecomes n (done { c with tvec := (w.extractLsb' 2 38) ++ (0 : BitVec 2) }) s))
    ∧ Answers (.cww n 4 g) s (CoreBecomes n (done { c with evmask := v.extractLsb' 0 16 }) s)
    ∧ (pairOk → Answers (.cww n 5 g) s (CoreBecomes n { c with pc := c.pc + 4, instret := w } s))
    ∧ (∀ word : BitVec 7, 5 < word.toNat →
        Answers (.cwr n g word) s (TrapTaken n 1 0 s) ∧ Answers (.cww n word g) s (TrapTaken n 1 0 s)))

/-- R75, R72, R74, R69, Table 3.11: in user mode a supervisor-only instruction takes the PRIVILEGE trap; in sender role a
Tile instruction takes the ROLE trap. -/
def Obligations.PrivilegeAndRoleTraps : Prop :=
  ∀ (s : State) (n : Fin 5) (gd ga gb : BitVec 5), s.runs n →
    let c := s.core n
    (c.sup = false →
      let refused (i : Instr) : Prop := Answers i s (TrapTaken n 2 0 s)
      refused (.eret n) ∧ refused (.halt n) ∧ refused (.tstep n gd) ∧ refused (.commit n gd ga gb)
      ∧ refused (.scansw n gd ga gb) ∧ refused (.nvrd n gd ga) ∧ refused (.spare n gd ga gb)
      ∧ refused (.cwr n gd 0) ∧ refused (.cwr n gd 2) ∧ refused (.cwr n gd 4)
      ∧ refused (.cww n 0 ga) ∧ refused (.cww n 2 ga) ∧ refused (.cww n 4 ga)
      ∧ (ga.toNat % 2 = 0 → ga ≠ 0 → refused (.hash n gd ga) ∧ refused (.cwr n ga 1) ∧ refused (.cwr n ga 3)
          ∧ refused (.cww n 1 ga) ∧ refused (.cww n 3 ga) ∧ refused (.cww n 5 ga) ∧ refused (.nvwr n gd gb ga)
          ∧ Answers (.cwr n ga 5) s (CoreWrites n (onePair ga c.instret) s)))
    ∧ (c.sup = true → s.isTile = false →
        Answers (.commit n gd ga gb) s (TrapTaken n 8 0 s) ∧ Answers (.scansw n gd ga gb) s (TrapTaken n 8 0 s))

/-- R53, R76 to R79, R109, R111, R113: AWAIT returns the lowest event that is pending, routed to the core and admitted, and
does not clear it; with none the core waits; AWAIT_WAKE gives the waiting core that event, or 0xFFFF_FFFF after its
timeout; SIGNAL makes event 480 + ga pending, and a ga above 15 takes the ARGUMENT trap. WAITT returns 1 while the wall
time is invalid, 2 for a target already past, 0 for one that is reached, and waits otherwise; a target out of range takes
the ARGUMENT trap; WAITT_WAKE ends the wait with 0 or 1; TIME writes the wall time into its quad, with bit 31 of the first
register set while the wall time is invalid; any other register number takes the ILLEGAL trap. -/
def Obligations.CoresWaitForEventsAndForTime : Prop :=
  (∀ (s : State) (n : Fin 5) (gd ga : BitVec 5),
    let c := s.core n
    let admitted (k : Nat) : Prop :=
      k < 512 ∧ s.isPending k = true ∧ s.route k = n.val ∧ c.evmask.getLsbD (k / 32) = true
    let lowest (k : Nat) : Prop := admitted k ∧ ∀ j, j < k → ¬ admitted j
    (s.runs n →
      (∀ k, lowest k → Answers (.await n gd ga) s (CoreWrites n (oneReg gd (BitVec.ofNat 32 k)) s))
      ∧ ((∀ k, ¬ admitted k) → Answers (.await n gd ga) s (CoreWaits n (.await gd (c.rg ga).toNat) s))
      ∧ ((c.rg ga).toNat ≤ 15 → Answers (.signal n ga) s fun t =>
          CoreWrites n noReg { s with regs := t.regs } t
          ∧ Changes [] [480 + (c.rg ga).toNat] { s with cores := t.cores } t)
      ∧ (15 < (c.rg ga).toNat → Answers (.signal n ga) s (TrapTaken n 7 0 s)))
    ∧ (∀ timeout, s.coreState n = 2 → c.haltReq = false → c.wait = some (.await gd timeout) →
        (∀ k b, lowest k → Answers (.awaitWake n b) s (CoreWakes n gd (BitVec.ofNat 32 k) s))
        ∧ ((∀ k, ¬ admitted k) → timeout ≠ 0 →
            Answers (.awaitWake n true) s (CoreWakes n gd 0xFFFFFFFF s) ∧ Answers (.awaitWake n false) s (· = s))))
  ∧ (∀ (s : State) (n : Fin 5) (gd ga : BitVec 5),
    let c := s.core n
    let hi := c.rg ga
    let ns := (c.rg (ga + 2)).toNat
    let fr := (c.rg (ga + 3)).toNat
    let target := ((hi.toNat * 2 ^ 32 + (c.rg (ga + 1)).toNat) * 1000000000 + ns) * 65536 + fr
    let now := s.tim.wall / 65536
    let quad (g : BitVec 5) : Prop := g.toNat % 4 = 0 ∧ g ≠ 0
    let good := hi.toNat < 2 ^ 31 ∧ ns < 1000000000 ∧ fr < 65536
    let valid := s.on F.TIM_STAT_VALID
    let result (v : Word) := CoreWrites n (oneReg gd v) s
    (s.runs n →
      (quad ga → good →
        (valid = false → Answers (.waitt n gd ga) s (result 1))
        ∧ (valid = true → target < now → Answers (.waitt n gd ga) s (result 2))
        ∧ (valid = true → target = now → Answers (.waitt n gd ga) s (result 0))
        ∧ (valid = true → now < target → Answers (.waitt n gd ga) s (CoreWaits n (.waitt gd ga) s)))
      ∧ (quad ga → ¬ good → Answers (.waitt n gd ga) s (TrapTaken n 7 0 s))
      ∧ (¬ quad ga → Answers (.waitt n gd ga) s (TrapTaken n 1 0 s))
      ∧ (quad gd → Answers (.time n gd) s fun t =>
          CoreWrites n (fun r =>
            if r = gd then some (BitVec.ofNat 32 (now / 65536 / 1000000000 / 2 ^ 32) ||| (if valid then 0 else 0x80000000))
            else if r = gd + 1 then some (BitVec.ofNat 32 (now / 65536 / 1000000000))
            else if r = gd + 2 then some (BitVec.ofNat 32 (now / 65536 % 1000000000))
            else if r = gd + 3 then some (BitVec.ofNat 32 (now % 65536))
            else none) s t)
      ∧ (¬ quad gd → Answers (.time n gd) s (TrapTaken n 1 0 s)))
    ∧ (s.coreState n = 2 → c.haltReq = false → c.wait = some (.waitt gd ga) → good →
        (valid = false → Answers (.waittWake n) s (CoreWakes n gd 1 s))
        ∧ (valid = true → target ≤ now → Answers (.waittWake n) s (CoreWakes n gd 0 s))
        ∧ (valid = true → now < target → Answers (.waittWake n) s (· = s))))

/-- R94, R95: START puts a halted core at its resume address, with its mode and registers kept; for any other core it
does nothing; HALT requests a halt of a core that runs or waits; both are ignored for HC0 while STAGE is 1, 2 or 3; the
halt takes effect with HCAUSE 2 at the next instruction or the abandoned wait, no sooner than an NVWR ends. -/
def Obligations.CoresStartAndHaltOnRequest : Prop :=
  ∀ (s : State) (n : Fin 5),
    let c := s.core n
    let stage := s.get F.BOT_STAT_STAGE
    let boot := n = 0 ∧ 1 ≤ stage ∧ stage ≤ 3
    (¬ boot → s.coreState n = 0 → Answers (.coreStart n) s fun t =>
      Changes [F.HRC_STAT_STATE n] [] { s with cores := t.cores } t
      ∧ t.get (F.HRC_STAT_STATE n) = 1
      ∧ (∀ m, m ≠ n → t.core m = s.core m)
      ∧ t.core n = { c with
          pc := ((s.rd (.HRC_PCHI n)).extractLsb' 0 8) ++ s.rd (.HRC_PCLO n), haltReq := false })
    ∧ ((boot ∨ s.coreState n ≠ 0) → Answers (.coreStart n) s (· = s))
    ∧ (¬ boot → (s.coreState n = 1 ∨ s.coreState n = 2) →
        Answers (.coreHaltRequest n) s (CoreBecomes n { c with haltReq := true } s))
    ∧ ((boot ∨ s.coreState n = 0 ∨ s.coreState n = 3) → Answers (.coreHaltRequest n) s (· = s))
    ∧ (c.haltReq = true → c.holdsHalt = false → Answers (.coreHalt n) s (CoreHalts n 2 c.pc s))
    ∧ ((c.haltReq = false ∨ c.holdsHalt = true) → Answers (.coreHalt n) s (· = s))
    ∧ (s.coreState n = 1 → s.coresLive = true → c.haltReq = true → c.holdsHalt = false → Answers (.fence n) s
        (CoreHalts n 2 (c.pc + 4) (s.setCore n { c with pc := c.pc + 4, instret := c.instret + 1 })))
    ∧ ((s.aon.phase ≠ 6 ∨ (stage = 7 ∧ s.on F.BOT_DUSKSTAT_DONE = true)) → Answers (.fence n) s (· = s))

/-- R109 to R111, R113: EVT.FORCE makes an event pending if its source lives; a write of ones to EVT.PEND clears those
events, and a condition source whose condition still holds is pending again at once; EVT.ROUTE names the target, 6 being
written as 7. -/
def Obligations.EventWordsForceClearAndRoute : Prop :=
  ∀ (s : State) (event : BitVec 9) (j : Fin 16) (mask : Word) (k : Fin 512) (target : BitVec 3),
    Answers (.evtForce event) s (Changes [] [event.toNat] s)
    ∧ (Answers (.evtPendClear j mask) s fun t =>
        t = { s with regs := t.regs }
        ∧ (∀ r, (∀ i, r ≠ .EVT_PEND i) → t.rd r = s.rd r)
        ∧ ∀ e, t.isPending e =
            if e / 32 = j.val ∧ mask.getLsbD (e % 32) = true then (s.condition e && s.eventLive e) else s.isPending e)
    ∧ (Answers (.evtRouteWrite k target) s fun t =>
        Changes [F.EVT_ROUTE_TARGET k] [] s t ∧ t.route k = if target = 6 then 7 else target.toNat)

/-- R84: COMMIT in supervisor mode on a tile: it refuses with 1 for the slot in use, a slot bound to another id, and an id
in use or bound to the other slot; it binds otherwise; id 0 unbinds; a slot above 1 takes the ARGUMENT trap.
R85: SCANSW in supervisor mode on a tile: it arms every group of the mask under the id, or none if one of them is
armed for another id; id 0 cancels, a change that is to take effect at a coming show instant too; a mask beyond 16 bits takes the ARGUMENT trap. -/
def Obligations.CommitAndScanswHandSlotsOver : Prop :=
  (∀ (s : State) (n : Fin 5) (gd ga gb : BitVec 5),
    s.runs n → (s.core n).sup = true → s.isTile = true →
    let id := (s.core n).rg ga
    let k := ((s.core n).rg gb).toNat
    let inUse := s.get F.CMP_STAT_SLOT
    let bound := s.rd (.CMP_BIND k)
    let refused := inUse = k ∨ (id ≠ 0 ∧ bound ≠ id ∧
      (bound ≠ 0 ∨ s.rd (.CMP_BIND (1 - k)) = id ∨ (inUse ≠ 2 ∧ s.rd .CMP_CID = id)))
    (k ≤ 1 → refused → Answers (.commit n gd ga gb) s (CoreWrites n (oneReg gd 1) s))
    ∧ (k ≤ 1 → ¬ refused → Answers (.commit n gd ga gb) s fun t =>
        CoreWrites n (oneReg gd 0) { s with regs := t.regs } t
        ∧ t.rd (.CMP_BIND k) = id ∧ ∀ r, r ≠ .CMP_BIND k → t.rd r = s.rd r)
    ∧ (1 < k → Answers (.commit n gd ga gb) s (TrapTaken n 7 0 s)))
  ∧ (∀ (s : State) (n : Fin 5) (gd ga gb : BitVec 5),
    s.runs n → (s.core n).sup = true → s.isTile = true →
    let mask := (s.core n).rg ga
    let id := (s.core n).rg gb
    let named (g : Nat) : Prop := g < 16 ∧ mask.getLsbD g = true
    let conflict := id ≠ 0 ∧ ∃ g, named g ∧ s.on (F.SCN_GSTAT_ARMED g) = true ∧ s.rd (.SCN_GARM g) ≠ id
    (mask.toNat ≤ 65535 → conflict → Answers (.scansw n gd ga gb) s (CoreWrites n (oneReg gd 1) s))
    ∧ (mask.toNat ≤ 65535 → ¬ conflict → Answers (.scansw n gd ga gb) s fun t =>
        CoreWrites n (oneReg gd 0) { s with regs := t.regs, scn := t.scn } t
        ∧ t.scn = { s.scn with switches :=
            if id = 0 then s.scn.switches.filter fun e => !(decide (e.2 < 16) && mask.getLsbD e.2) else s.scn.switches }
        ∧ (∀ g i, named g → i ≠ (F.SCN_GSTAT_ARMED g).lo →
            (t.rd (.SCN_GSTAT g)).getLsbD i = (s.rd (.SCN_GSTAT g)).getLsbD i)
        ∧ (∀ g, named g → t.on (F.SCN_GSTAT_ARMED g) = decide (id ≠ 0) ∧ t.rd (.SCN_GARM g) = id)
        ∧ (∀ g, ¬ named g → t.rd (.SCN_GSTAT g) = s.rd (.SCN_GSTAT g) ∧ t.rd (.SCN_GARM g) = s.rd (.SCN_GARM g))
        ∧ ∀ r, (∀ g, r ≠ .SCN_GSTAT g ∧ r ≠ .SCN_GARM g) → t.rd r = s.rd r)
    ∧ (65535 < mask.toNat → Answers (.scansw n gd ga gb) s (TrapTaken n 7 0 s)))

/-- R86, R87, R497 to R500, Table 3.13: NVRD gives the write count of a page and whether a spare stands behind it; NVWR
that the life cycle, the temperature and the rate guard allow takes a credit, queues the page and makes the core wait,
and any other ends at once with its result; NVWR_COMPLETE of a verified page stores it, gives the core 0, and the page
then reads as written.
R87, R498, R500: the end of the page in hand of a core's NVWR: once verified, the page's bytes are in the journal,
LASTRES reads 0, and the core resumes with 0; a page that fails its verify gives 4 and moves to the lowest spare not in
use, if one is left; the job is over. -/
def Obligations.JournalPagesAreReadAndWritten : Prop :=
  (∀ (s : State) (n : Fin 5) (gd ga gb : BitVec 5), s.runs n → (s.core n).sup = true →
    let c := s.core n
    let page := (c.rg ga).toNat
    let a := (c.pair gb).toNat
    let pairOk := gb.toNat % 2 = 0 ∧ gb ≠ 0
    let near := nearMemory n (c.pair gb) 32 32 = true ∧ s.inMemory a 32 = true
    (page ≤ 127 → Answers (.nvrd n gd ga) s
      (CoreWrites n (oneReg gd (BitVec.ofNat 32 (s.nvCount page + if s.nvSpare page then 65536 else 0))) s))
    ∧ (127 < page → Answers (.nvrd n gd ga) s (TrapTaken n 7 0 s))
    ∧ (pairOk → 127 < page → Answers (.nvwr n gd ga gb) s (TrapTaken n 7 0 s))
    ∧ (pairOk → page ≤ 127 → ¬ near → Answers (.nvwr n gd ga gb) s (TrapTaken n 4 0 s))
    ∧ (pairOk → page ≤ 127 → near → s.badRange a 32 = false → s.soft = [] →
        let l := s.bytes a 32
        let r := s.nvwrCheck page
        (r = 0 → Answers (.nvwr n gd ga gb) s
          (CoreWaits n (.nvwr gd page l) ((s.nvPay 1).nvQueue ⟨.core n gd, [(page, l)], false⟩)))
        ∧ (r ≠ 0 → Answers (.nvwr n gd ga gb) s (CoreWrites n (oneReg gd (BitVec.ofNat 32 r)) (s.nvRefused r)))))
  ∧ (∀ (s : State) (n : Fin 5) (gd : BitVec 5) (page : Nat) (l : List Byte) (more : Bool) (rest : List NvjJob),
    s.asr.jobs = ⟨.core n gd, [(page, l)], more⟩ :: rest → (s.core n).wait = some (.nvwr gd page l) →
    l.length = 32 → Memory.wf s.nvj.data → s.nvFailed page = false →
    let resumed (v : Word) (t : State) : Prop :=
      t.coreState n = 1 ∧ (∀ m, m ≠ n → t.core m = s.core m)
      ∧ t.core n = { (s.core n).wg gd v with
          wait := none, pc := (s.core n).pc + 4, instret := (s.core n).instret + 1 }
    (Answers (.nvwrComplete n true) s fun t =>
      t.nvPage page = l ∧ t.asr.jobs = rest ∧ t.get F.ASR_NVSTAT_LASTRES = 0 ∧ resumed 0 t)
    ∧ (Answers (.nvwrComplete n false) s fun t =>
      t.asr.jobs = rest ∧ t.get F.ASR_NVSTAT_LASTRES = 4 ∧ resumed 4 t
      ∧ ∀ i, i < 8 → bit (s.get F.ASR_NVSTAT_SPARES) i = false → (∀ k, k < i → bit (s.get F.ASR_NVSTAT_SPARES) k = true) →
          t.nvj.phys page = 120 + i))

/-! ### Messages, transfers, hashing and spares -/

/-- R81, R179, Table 3.12: MSG on a tile: the body goes as one cell into the queue of the master port and gd receives 0;
with 32 messages waiting there it is refused with BUSY, with the port down with LINK_DOWN; a length outside 4 to 256 in
words, or a destination that is not 0, takes the ARGUMENT trap. -/
def Obligations.TileMessagesGoToTheMaster : Prop :=
  ∀ (s : State) (n : Fin 5) (gd ga gb : BitVec 5),
    s.runs n → s.isTile = true → ga.toNat % 2 = 0 → ga ≠ 0 → gb.toNat % 2 = 0 → gb ≠ 0 →
    let c := s.core n
    let ctl := c.rg gb
    let len := (ctl.extractLsb' 0 9).toNat
    let a := c.pair ga
    let p := s.masterPort
    let argOk := 4 ≤ len ∧ len ≤ 256 ∧ len % 4 = 0 ∧ c.rg (gb + 1) = 0
    let cell := Cell.msg ⟨ctl.extractLsb' 16 8, BitVec.ofNat 7 (s.get F.LNK_POS_POSITION), false, true, s.bytes a.toNat len⟩
    (¬ argOk → Answers (.msg n gd ga gb) s (TrapTaken n 7 0 s))
    ∧ (argOk → (nearMemory n a len 4 = false ∨ s.inMemory a.toNat len = false) →
        Answers (.msg n gd ga gb) s (CoreWrites n (oneReg gd 1) s))
    ∧ (argOk → nearMemory n a len 4 = true → s.inMemory a.toNat len = true → s.badRange a.toNat len = false →
        s.soft = [] → p < 9 →
        (s.up p = false → Answers (.msg n gd ga gb) s (CoreWrites n (oneReg gd 6) s))
        ∧ (s.up p = true → 32 ≤ s.msgsWaiting p → Answers (.msg n gd ga gb) s (CoreWrites n (oneReg gd 3) s))
        ∧ (s.up p = true → s.msgsWaiting p < 32 → Answers (.msg n gd ga gb) s fun t =>
            CoreWrites n (oneReg gd 0) { s with lnk := t.lnk } t
            ∧ (t.port p).vc1 = (s.port p).vc1 ++ [⟨cell.units, none, true, none⟩]
            ∧ ∀ q, q ≠ p → t.port q = s.port q))

/-- R82, R83, R100, R101, Table 4.2: XFER of a good descriptor of a COPY or FILL takes the lowest free ticket; with none
free the core waits; a descriptor that R101 refuses takes the ARGUMENT or the ACCESS trap; XWAIT gives the stored status
of a ticket that has ended and waits for one in progress; a ticket above 15 takes the ARGUMENT trap.
R100, R103, R104, R83: a COPY that may read its source and write its destination ends OK: the destination holds the
source's bytes and no other byte of memory changes; a FILL puts its pattern at every word; the ticket is free with status
0, the ending event becomes pending under EVEN, and a core that waits for the ticket resumes. -/
def Obligations.TransfersTakeTicketsAndMoveTheirBytes : Prop :=
  (∀ (s : State) (n : Fin 5) (gd ga : BitVec 5), s.runs n →
    let c := s.core n
    let a := c.pair ga
    let d := descriptorOf (s.bytes a.toNat 32)
    let near := nearMemory n a 32 8 = true ∧ s.inMemory a.toNat 32 = true
    let k := (c.rg ga).toNat
    ((ga.toNat % 2 = 1 ∨ ga = 0) → Answers (.xfer n gd ga) s (TrapTaken n 1 0 s))
    ∧ (ga.toNat % 2 = 0 → ga ≠ 0 → ¬ near → Answers (.xfer n gd ga) s (TrapTaken n 4 0 s))
    ∧ (ga.toNat % 2 = 0 → ga ≠ 0 → near → s.badRange a.toNat 32 = false → s.soft = [] →
        (d.ok = false → Answers (.xfer n gd ga) s (TrapTaken n 7 0 s))
        ∧ (d.ok = true → (∀ i : Fin 16, c.tickets[i].busy.isSome = true) →
            Answers (.xfer n gd ga) s (CoreWaits n (.xfer gd ga) s))
        ∧ (∀ i : Fin 16, d.ok = true → d.ctrl % 4 < 2 → c.tickets[i].busy = none →
            (∀ j : Fin 16, j < i → c.tickets[j].busy.isSome = true) →
            Answers (.xfer n gd ga) s fun t =>
              CoreWrites n (oneReg gd (BitVec.ofNat 32 i.val)) (s.setTicket n i
                { c.tickets[i] with busy := some ⟨d.ctrl % 4, bit d.ctrl 8, bits d.ctrl 12 4, d.len, d.src, d.dst, []⟩ }) t))
    ∧ (∀ i : Fin 16, k = i.val →
        (c.tickets[i].busy = none →
          Answers (.xwait n gd ga) s (CoreWrites n (oneReg gd (BitVec.ofNat 32 c.tickets[i].status)) s))
        ∧ (c.tickets[i].busy.isSome = true → Answers (.xwait n gd ga) s (CoreWaits n (.xwait gd k) s)))
    ∧ (15 < k → Answers (.xwait n gd ga) s (TrapTaken n 7 0 s)))
  ∧ (∀ (s : State) (n : Fin 5) (i : Fin 16) (x : Transfer) (gd : BitVec 5),
    s.midnight = false → s.transfer n i = some x → Memory.wf s.mem →
    s.poison = [] → s.soft = [] → 4 ≤ x.len → x.len % 4 = 0 → s.writable x.dst x.len = true →
    inDram x.dst = false → inDram x.src = false →
    let waits := s.coreState n = 2 ∧ (s.core n).wait = some (.xwait gd i.val) ∧ (s.core n).haltReq = false
    let ended (t : State) : Prop :=
      (t.core n).tickets[i] = ⟨none, 0⟩
      ∧ (∀ k, t.isPending k = (s.isPending k || (x.even && decide (k = 480 + x.evt) && s.eventLive k)))
      ∧ (∀ m, m ≠ n → t.core m = s.core m)
      ∧ (s.coreState n = 1 → t.coreState n = 1 ∧ (t.core n).pc = (s.core n).pc)
      ∧ (waits → t.coreState n = 1 ∧ (t.core n).pc = (s.core n).pc + 4 ∧ (t.core n).rg gd = 0)
    (s.coreState n = 1 ∨ waits) →
    (x.kind = 0 → s.inMemory x.src x.len = true → Answers (.transferEnd n i) s fun t =>
      ended t ∧ ∀ y, t.byte y = if x.dst ≤ y ∧ y < x.dst + x.len then s.byte (x.src + (y - x.dst)) else s.byte y)
    ∧ (x.kind = 1 → Answers (.transferEnd n i) s fun t =>
      ended t ∧ ∀ y, t.byte y =
        if x.dst ≤ y ∧ y < x.dst + x.len then BitVec.ofNat 8 (x.src / 256 ^ ((y - x.dst) % 4)) else s.byte y))

/-- R88, R80, R200, R201, R89, R105, R378, Table 3.14: HASH whose context is in order and whose data can be read completes with
0 in gd and writes bytes 16 to 95 of the context, whatever the data; with data that lies in no memory it completes with 1,
and with arguments out of their ranges it takes the ARGUMENT trap. TSTEP completes with 1 while no step is held; with one
held it completes with 0, moves the wall time by it at once, discards the slew, clears STEPPEND, the first-measurement
state and the record of offsets, sets EVSTEP and keeps TIM.RATE, and a tile forgets the tokens and holds its lamps dark.
SPARE of every class and index that Table 3.14 lists completes with the result of its class: an Hour core, a driver cell,
an engine lane or a sensor is armed with 0, or answers 2 with no spare left; cells and engine lanes are absent in sender
role, 3. A class or index that is not listed takes the ARGUMENT trap. -/
def Obligations.HashTstepAndSpareGiveTheirResults : Prop :=
  ∀ (s : State) (n : Fin 5) (gd ga gb : BitVec 5), s.runs n → (s.core n).sup = true →
    let c := s.core n
    let a := c.pair ga
    let ctx := s.bytes a.toNat 128
    let data := leAt ctx 8 8
    let len := leAt ctx 4 4
    let cls := (c.rg ga).toNat
    let idx := (c.rg gb).toNat
    let spare := Instr.spare n gd ga gb
    let gives (v : Nat) (t : State) : Prop := Answers spare s (CoreWrites n (oneReg gd (BitVec.ofNat 32 v)) t)
    let arms (k : Nat) : State := { s with asr := { s.asr with armed := s.asr.armed ++ [(k, idx)] } }
    let tile := s.isTile = true
    (ga.toNat % 2 = 0 → ga ≠ 0 → nearMemory n a 128 64 = true → s.inMemory a.toNat 128 = true →
      s.badRange a.toNat 128 = false → s.soft = [] →
      (hashArgsOk ctx = false → Answers (.hash n gd ga) s (TrapTaken n 7 0 s))
      ∧ (hashArgsOk ctx = true → leAt ctx 4 4 = 0 → leAt ctx 0 4 % 4 = 1 → Answers (.hash n gd ga) s
          (CoreWrites n (oneReg gd 0) (s.store (a.toNat + 16) (s.hashed ctx []).1)))
      ∧ (hashArgsOk ctx = true →
          (len = 0 ∨ (s.inMemory data len = true ∧ data < 0xE200000000 ∧ s.badRange data len = false)) →
          let r := s.hashed ctx (s.bytes data len)
          Answers (.hash n gd ga) s fun t =>
            CoreWrites n (oneReg gd 0) { r.2.store (a.toNat + 16) r.1 with regs := t.regs } t
            ∧ (inDram data = false → t.regs = s.regs))
      ∧ (hashArgsOk ctx = true → leAt ctx 4 4 ≠ 0 → s.inMemory (leAt ctx 8 8) (leAt ctx 4 4) = false →
          Answers (.hash n gd ga) s (CoreWrites n (oneReg gd 1) s)))
    ∧ (s.on F.TIM_STAT_STEPPEND = false → Answers (.tstep n gd) s (CoreWrites n (oneReg gd 1) s))
    ∧ (s.on F.TIM_STAT_STEPPEND = true → Answers (.tstep n gd) s fun t =>
        (gd ≠ 0 → (t.core n).rg gd = 0) ∧ t.tim.wall = ((s.tim.wall : Int) + s.tim.held * 65536).toNat
        ∧ t.on F.TIM_STAT_STEPPEND = false ∧ t.tim.slewLeft = 0
        ∧ (t.core n).pc = c.pc + 4 ∧ (t.core n).instret = c.instret + 1 ∧ (∀ r, r ≠ gd → (t.core n).rg r = c.rg r)
        ∧ (∀ m, m ≠ n → t.core m = s.core m) ∧ t.mem = s.mem
        ∧ t.tim.slew = 0 ∧ t.tim.first = false ∧ t.tim.offsets = [] ∧ t.rd .TIM_RATE = s.rd .TIM_RATE
        ∧ t.tim.queues = s.tim.queues ∧ t.on ⟨.TIM_EV, 3, 1⟩ = true ∧ t.on F.TIM_STAT_LOCKED = false
        ∧ (¬ tile → t.lnk = s.lnk ∧ t.scn = s.scn ∧ t.cmp = s.cmp)
        ∧ (tile → t.scn.stepHold = true ∧ t.cmp.closed = none ∧ t.lnk.tokens = s.lnk.tokens.filter fun k => decide (k.instant ≤ s.now)))
    ∧ (spareIndexOk cls idx = true → gives (s.spare cls idx).1 (s.spare cls idx).2)
    ∧ (cls = 3 → idx ≤ 4 →
        (s.on F.HRC_MAP_SPAREUSED = true → Answers (.spare n gd ga gb) s (CoreWrites n (oneReg gd 2) s))
        ∧ (s.on F.HRC_MAP_SPAREUSED = false → s.armedIn 3 = none → Answers (.spare n gd ga gb) s
            (CoreWrites n (oneReg gd 0) { s with asr := { s.asr with armed := s.asr.armed ++ [(3, idx)] } })))
    ∧ (spareIndexOk cls idx = true → cls = 2 ∨ cls = 4 ∨ cls = 5 → ¬ tile → gives 3 s)
    ∧ (cls = 2 → idx ≤ 127 → tile →
        ((s.on (F.LMP_PSTAT_SPARECELL idx) = true ∨ s.on (F.LMP_PSTAT_ARMED idx) = true) → gives 2 s)
        ∧ (s.on (F.LMP_PSTAT_SPARECELL idx) = false → s.on (F.LMP_PSTAT_ARMED idx) = false → s.running (idx / 8) = true →
            Answers spare s fun t => CoreWrites n (oneReg gd 0) { arms 2 with regs := t.regs } t
              ∧ Changes [F.LMP_PSTAT_ARMED idx] [] { arms 2 with cores := t.cores } t ∧ t.on (F.LMP_PSTAT_ARMED idx) = true))
    ∧ ((cls = 4 ∨ cls = 5) → idx ≤ 7 → tile →
        let w := if cls = 4 then s.rd .CMP_LANEMAP else s.rd .COR_LANEMAP
        ((spareUsed w = true ∨ (s.armedIn cls).isSome = true) → gives 2 s)
        ∧ (spareUsed w = false → s.armedIn cls = none → gives 0 (arms cls)))
    ∧ (cls = 6 → idx ≤ 7 → (s.spareSensors = 0 → gives 2 s) ∧ (s.spareSensors ≠ 0 → gives 0 (arms 6)))
    ∧ (spareIndexOk cls idx = false → Answers (.spare n gd ga gb) s (TrapTaken n 7 0 s))

/-- R106 to R108: at the safe point of an armed substitution the logical core runs on HC4's physical core, its local
memory reads 0, it is halted with HCAUSE 0 at the boot ROM entry with general registers 0, and HC4 is absent; at that of
an armed retirement HC4 is absent; SPAREUSED reads 1, the event 433 becomes pending, and the map records it. -/
def Obligations.TheSpareCoreTakesOver : Prop :=
  ∀ (s : State) (n : Fin 5),
    let gone (t : State) : Prop :=
      t.coreState 4 = 3 ∧ t.get (F.HRC_STAT_HCAUSE 4) = 4 ∧ t.on F.HRC_MAP_SPAREUSED = true
      ∧ t.isPending 433 = true ∧ bits (t.get F.HRC_MAP_PHYS) 12 3 = 7
    (s.armedIn 3 = some n.val → n.val ≤ 3 → s.coreState n = 0 → s.coreState 4 = 0 → Memory.wf s.mem →
      Answers (.coreSubstitution n) s fun t =>
        gone t ∧ t.coreState n = 0 ∧ t.get (F.HRC_STAT_HCAUSE n) = 0
        ∧ t.rd (.HRC_PCLO n) = 0xFFFF0000 ∧ t.rd (.HRC_PCHI n) = 0xFF
        ∧ (∀ r, (t.core n).rg r = 0)
        ∧ bits (t.get F.HRC_MAP_PHYS) (3 * n.val) 3 = bits (s.get F.HRC_MAP_PHYS) 12 3
        ∧ (∀ x, 0xE000000000 + n.val * 0x40000 ≤ x → x < 0xE000000000 + (n.val + 1) * 0x40000 → t.byte x = 0)
        ∧ t.asr.map.core = n.val ∧ t.asr.armed = s.asr.armed.erase (3, n.val)
        ∧ ∀ m : Fin 5, m ≠ n → m ≠ 4 → t.core m = s.core m)
    ∧ (s.armedIn 3 = some 4 → s.coreState 4 = 0 → Answers .spareCoreRetirement s fun t =>
        gone t ∧ t.asr.map.core = 4 ∧ t.asr.armed = s.asr.armed.erase (3, 4) ∧ ∀ m : Fin 5, m ≠ 4 → t.core m = s.core m)

/-! ### Start, resets and clocks -/

/-- R447 to R449, Table 18.1: the supply of the always-on domain begins the start delay, which ends in the start check; a
ring count in a band of Table 18.1 selects REFFREQ and leads to the root PLL, any other counts a try and leads to a
retry; at the PLL's lock ROOTLOCK reads 1 and housekeeping runs from its root divider; the end of the core rail's soft
start sets CODE 0x32, and with a pushed source the boot waits in STAGE 2. Each moment acts in its phase of the sequence
alone. -/
def Obligations.StartSequenceReachesTheBootRom : Prop :=
  ∀ (s : State) (oscdly : BitVec 2) (count : BitVec 16),
    let a := s.aon
    let k := count.toNat
    let shown := [F.CLK_STAT_REFFREQ, F.CLK_START_OSCDLY, F.CLK_START_TRIES, F.CLK_START_RINGCNT, F.CLK_STAT_REFOK,
      F.CLK_STAT_ROOTLOCK]
    let waits (c : Instr) : Prop := Answers c s (· = s)
    let band (f : Nat) : Prop := Answers (.startCheck count) s fun t =>
      Changes shown [] { s with aon := { a with phase := 4, freq := f, ringCount := k } } t
      ∧ t.get F.CLK_STAT_REFFREQ = f ∧ t.get F.CLK_STAT_REFOK = 1 ∧ t.get F.CLK_STAT_ROOTLOCK = 0
      ∧ t.get F.CLK_START_RINGCNT = k
    (a.supply = false → Answers (.aonSupplyUp oscdly) s
      (Sets [(F.CLK_START_OSCDLY, oscdly.toNat)] []
        { s with aon := { a with supply := true, phase := 1, oscdly := oscdly.toNat, tries := 0 } }))
    ∧ (a.supply = true → waits (.aonSupplyUp oscdly))
    ∧ (a.phase = 1 → Answers .startDelayExpiry s (· = { s with aon := { a with phase := 2 } }))
    ∧ (a.phase ≠ 1 → waits .startDelayExpiry)
    ∧ (a.phase = 2 → 18874 ≤ k → k ≤ 23069 → band 3)
    ∧ (a.phase = 2 → 23593 ≤ k → k ≤ 28836 → band 2)
    ∧ (a.phase = 2 → 29491 ≤ k → k ≤ 36045 → band 1)
    ∧ (a.phase = 2 → (k < 18874 ∨ (23069 < k ∧ k < 23593) ∨ (28836 < k ∧ k < 29491) ∨ 36045 < k) →
        Answers (.startCheck count) s fun t =>
          Changes shown [] { s with aon := { a with phase := 3, tries := min 255 (a.tries + 1) } } t
          ∧ t.get F.CLK_START_TRIES = min 255 (a.tries + 1))
    ∧ (a.phase ≠ 2 → waits (.startCheck count))
    ∧ (a.phase = 3 → Answers .startCheckRetry s (· = { s with aon := { a with phase := 2 } }))
    ∧ (a.phase ≠ 3 → waits .startCheckRetry)
    ∧ (a.phase = 4 → a.freq ≠ 0 → Answers .rootPllLock s fun t =>
        Changes (F.CLK_DSTAT_SRC 4 :: shown) [] { s with aon := { a with phase := 5 } } t
        ∧ t.get F.CLK_STAT_ROOTLOCK = 1 ∧ t.get F.CLK_STAT_REFOK = 1 ∧ t.get (F.CLK_DSTAT_SRC 4) = 0)
    ∧ (a.phase ≠ 4 → waits .rootPllLock)
    ∧ (a.phase = 5 → a.resetLow = false → s.bootSource ≠ 2 → Answers .coreSoftStartDone s fun t =>
        t = { s with regs := t.regs, asr := t.asr, pwr := t.pwr, aon := { a with phase := 6 } }
        ∧ t.get F.PWR_VCORE_CODE = 0x32
        ∧ (s.lifeCycle ≠ 4 → s.bootSource ≠ 1 → t.stage = 2 ∧ t.on F.HST_STAT_BOOTWAIT = true))
    ∧ (a.phase = 5 → a.resetLow = false → s.bootSource = 2 → s.lifeCycle ≠ 4 → Answers .coreSoftStartDone s fun t =>
        t.aon = { a with phase := 6 } ∧ t.mem = s.mem ∧ t.cores = s.cores ∧ t.nvj = s.nvj
        ∧ t.stage = 2 ∧ t.on F.HST_STAT_BOOTWAIT = true
        ∧ (∀ i, i < 6 → t.on (F.LAN_CTL_EN (8 + i)) = true)
        ∧ t.on (F.LNK_PCTL_EN 0) = true ∧ t.on (F.LNK_PCTL_EN 1) = true)
    ∧ ((a.phase ≠ 5 ∨ a.resetLow = true) → waits .coreSoftStartDone)

/-- R2, R531, R539, R540, R428, R443, R474, R560, Table 22.23: every cause of a full reset leaves the state of Table
22.23: RESET_N low, the loss of VDD_AON, an undervoltage of the core rail while the part runs, the return of power after
Midnight, and 0xA5 written to BOT.RESET once its time has come; any other value written to BOT.RESET has no effect; the
rise of RESET_N samples ROLE and BOOTSEL. -/
def Obligations.EveryFullResetLeavesResetValues : Prop :=
  ∀ (s : State) (role : Bool) (bootsel : BitVec 2) (value : Word) (who : Option Who),
    let a := s.aon
    let waits (c : Instr) : Prop := Answers c s (· = s)
    let due := s.bot.reset.isSome = true ∧ (s.bot.reset = some (.host .qspi) →
      s.bot.resetAfter = some 0 ∨ s.bot.resetAt + usTicks 100000 ≤ s.tim.ticks)
    Answers .resetNLow s (FullyReset { a with resetLow := true } s)
    ∧ (a.resetLow = true → Answers (.resetNRise role bootsel) s
        (FullyReset { a with resetLow := false, role := role, bootsel := bootsel.toNat } s))
    ∧ (a.resetLow = false → waits (.resetNRise role bootsel))
    ∧ Answers .vddAonLow s (FullyReset { a with
        supply := false, phase := 0, oscdly := 0, freq := 0, ringCount := 0, tries := 0, trip := none, tripCount := 0,
        mapHeld := none } s)
    ∧ (a.phase = 6 → Answers .coreUndervoltageReset s (FullyReset a s))
    ∧ (a.phase ≠ 6 → waits .coreUndervoltageReset)
    ∧ (s.on F.PWR_STAT_MIDNIGHT = true → s.on F.PWR_STAT_HALTOK = true → Answers .powerReturn s (FullyReset a s))
    ∧ ((s.on F.PWR_STAT_MIDNIGHT = false ∨ s.on F.PWR_STAT_HALTOK = false) → waits .powerReturn)
    ∧ (value.toNat % 256 = 0xA5 → Answers (.botReset value who) s fun t =>
        t = { s with bot := { s.bot with
          reset := some (resetPath who), resetAt := s.tim.ticks, resetAfter := some (s.hst.responses.length + 1) } })
    ∧ (value.toNat % 256 ≠ 0xA5 → waits (.botReset value who))
    ∧ (due → Answers .softReset s (FullyReset a s))
    ∧ (¬ due → waits .softReset)

/-- R452 to R454, R429, R451: the loss of REFCLK sets COAST and EVCOAST, clears REFOK, ROOTLOCK, VALID and every QLOCK bit
and takes every lane out of ACTIVE and STANDBY; its return clears COAST, restores REFOK and ROOTLOCK and sends each
enabled lane from BACKOFF to DETECT; a sag of the core rail sets EVSAG; the PLL of a quad locks while one of its lanes is
enabled and loses lock with EVQLOCK. -/
def Obligations.ClockLossCoastsAndReturns : Prop :=
  ∀ (s : State) (q : Fin 9),
    let lock : Fld := ⟨.CLK_STAT, 5 + q, 1⟩
    let waits (c : Instr) : Prop := Answers c s (· = s)
    let down (t : State) (n : Nat) : Prop := t.lane n ≠ 6 ∧ t.lane n ≠ 7
    let kept (t : State) : Prop :=
      t.mem = s.mem ∧ t.cores = s.cores ∧ t.nvj = s.nvj ∧ t.fuse = s.fuse ∧ t.aon = s.aon ∧ t.tim.wall = s.tim.wall
    (s.on F.CLK_STAT_COAST = false → Answers .refclkLoss s fun t =>
      t.on F.CLK_STAT_COAST = true ∧ t.on F.TIM_STAT_COAST = true ∧ t.isPending 496 = true ∧ t.on F.CLK_STAT_REFOK = false
      ∧ t.on F.CLK_STAT_ROOTLOCK = false ∧ t.on F.TIM_STAT_VALID = false ∧ t.get F.CLK_STAT_QLOCK = 0
      ∧ t.on (F.CLK_DSTAT_SWITCHING 4) = true ∧ (∀ n, n < 36 → down t n) ∧ kept t)
    ∧ (s.on F.CLK_STAT_COAST = true → waits .refclkLoss)
    ∧ (s.on F.CLK_STAT_COAST = true → Answers .refclkReturn s fun t =>
        t = { s with regs := t.regs, lan := t.lan } ∧ WordsKept [1, 3, 4, 12, 14] s t
        ∧ t.on F.CLK_STAT_COAST = false ∧ t.on F.TIM_STAT_COAST = false ∧ (∀ i, i ≠ 4 → t.on ⟨.TIM_STAT, i, 1⟩ = s.on ⟨.TIM_STAT, i, 1⟩) ∧ t.isPending 496 = true ∧ t.on F.CLK_STAT_REFOK = true
        ∧ t.on F.CLK_STAT_ROOTLOCK = true ∧ t.get (F.CLK_DSTAT_SRC 4) = 0 ∧ t.on (F.CLK_DSTAT_SWITCHING 4) = false
        ∧ t.get F.MEM_STAT_SR = 0
        ∧ ∀ n, n < 36 → t.lane n = if s.lane n = 9 ∧ s.on (F.LAN_CTL_EN n) = true then 2 else s.lane n)
    ∧ (s.on F.CLK_STAT_COAST = false → waits .refclkReturn)
    ∧ Answers .coreSag s (Sets [(⟨.PWR_EV, 4, 1⟩, 1)] [372] s)
    ∧ (s.on F.CLK_STAT_COAST = false → s.quadEnabled q = true → Answers (.lanePllLock q) s (Sets [(lock, 1)] [] s))
    ∧ ((s.on F.CLK_STAT_COAST = true ∨ s.quadEnabled q = false) → waits (.lanePllLock q))
    ∧ (s.on lock = true → Answers (.lanePllLockLoss q) s fun t =>
        t.on lock = false ∧ t.isPending 499 = true ∧ (∀ k, k < 4 → down t (4 * q + k)) ∧ kept t)
    ∧ (s.on lock = false → waits (.lanePllLockLoss q))

/-- R455 to R458, R532, Table 18.2: CLOSE of a gateable domain closes its gate once the domain idles, outside a switch;
an access left over clears CLOSE with GATE_REFUSED and EVREFUSED; a write of 0, and an access, open the gate; a switch
ends with SWITCHING 0; a forced one sets FORCED, EVFORCED and SWRST and gives the words of its domain their reset values,
LK fields apart; no domain but DDR and HKP switches. -/
def Obligations.GatesCloseAndSwitchesForce : Prop :=
  ∀ (s : State) (d : Fin 5),
    let close : Fld := ⟨.CLK_GATE, d, 1⟩
    let gates := [F.CLK_DSTAT_GATED 1, F.CLK_DSTAT_GATED 2]
    let waits (c : Instr) : Prop := Answers c s (· = s)
    let gateable := d.val = 1 ∨ (d.val = 2 ∧ s.isTile = true)
    let cleared (t : State) (u : Nat) (except : List Reg) : Prop := ∀ r : Reg, r.unit = u → r ∉ except →
      t.rd r = (s.rd r &&& BitVec.ofNat 32 r.info.lk) ||| (r.resetValue &&& ~~~(BitVec.ofNat 32 r.info.lk))
    (gateable → Answers (.gateClose d) s fun t =>
      Changes (close :: gates) [] s t ∧ t.on close = true
      ∧ t.on (F.CLK_DSTAT_GATED d) =
          (s.on (F.CLK_DSTAT_GATED d) || (s.domainIdle d && !(s.on (F.CLK_DSTAT_SWITCHING d)))))
    ∧ (¬ gateable → waits (.gateClose d))
    ∧ (s.on close = true → s.on (F.CLK_DSTAT_GATED d) = false → Answers (.gateCloseTimeout d) s
        (Sets [(close, 0), (⟨.CLK_STAT, 24 + d, 1⟩, 1), (⟨.CLK_EV, 2, 1⟩, 1)] [498] s))
    ∧ ((s.on close = false ∨ s.on (F.CLK_DSTAT_GATED d) = true) → waits (.gateCloseTimeout d))
    ∧ Answers (.gateOpen d) s (Sets [(close, 0), (F.CLK_DSTAT_GATED d, 0)] [] s)
    ∧ Answers (.gatedAccess d) s (Sets [(F.CLK_DSTAT_GATED d, 0)] [] s)
    ∧ (d.val = 1 ∨ d.val = 4 → Answers (.clockSwitch d) s fun t =>
        Changes (F.CLK_DSTAT_SRC d :: F.CLK_DSTAT_SWITCHING d :: gates) [] s t
        ∧ t.on (F.CLK_DSTAT_SWITCHING d) = false
        ∧ t.get (F.CLK_DSTAT_SRC d) = if d.val = 4 ∧ s.on F.CLK_STAT_COAST = true then 1 else 0)
    ∧ (d.val = 1 → Answers (.clockSwitchForced d) s fun t =>
        t = { s with regs := t.regs, dram := State.reset.dram } ∧ WordsKept [4, 12, 14] s t ∧ cleared t 14 []
        ∧ t.on ⟨.CLK_STAT, 17, 1⟩ = true ∧ t.on (F.CLK_DSTAT_SWRST 1) = true ∧ t.isPending 497 = true)
    ∧ (d.val = 4 → Answers (.clockSwitchForced d) s fun t =>
        t = { s with
          regs := t.regs, pwr := State.reset.pwr, hkp := State.reset.hkp, sd := { s.sd with transfer := none }, sent := t.sent }
        ∧ (s.isTile = false → t.sent = s.sent)
        ∧ WordsKept [4, 12, 15, 16] s t ∧ cleared t 16 [.HKP_SDSTAT] ∧ cleared t 15 [.PWR_VCORE, .PWR_STAT]
        ∧ t.get F.PWR_VCORE_CODE = 0x32
        ∧ t.on ⟨.CLK_STAT, 20, 1⟩ = true ∧ t.on (F.CLK_DSTAT_SWRST 4) = true ∧ t.isPending 497 = true)
    ∧ (d.val ≠ 1 → d.val ≠ 4 → waits (.clockSwitch d) ∧ waits (.clockSwitchForced d))

/-! ### Lanes -/

/-- R134, R135, R138, R142, R147, R153, Table 6.3: a lane goes from DISABLED through DETECT, TRAIN and BLOCKLOCK to
EXCHANGE as its stages pass; a stage that fails leads to BACKOFF with LASTFAIL and RETRY, and from there to DETECT; each
change of STATE sets EVSTATE; an enabled source lane seeks lock in BLOCKLOCK (log entry 72) and enters ACTIVE once it
locks; the lanes bonded with one that locks report one alignment (log entry 72); in any other state nothing happens.
R137, R138, R162: 16 invalid headers of 64 in ACTIVE or STANDBY: a chain or mirror lane goes to BACKOFF with LASTFAIL
4, and its port goes down when fewer than two lanes are left; a source lane seeks lock again in BLOCKLOCK (log entry 72)
and its port is down; invalid headers are counted in BLOCKLOCK, EXCHANGE, ACTIVE and STANDBY. -/
def Obligations.LanesPassTheirStagesAndLeaveThem : Prop :=
  (∀ (s : State) (n : Fin 36) (inverted locked : Bool) (ctle : BitVec 4) (dfe1 : Byte) (align : BitVec 16) (invalid : Nat),
    let state := F.LAN_STAT_STATE n
    let changed := [state, F.LAN_STAT_EVSTATE n]
    let q := if s.sourceMode n = 1 then n.val / 4 * 4 else n.val
    let source := if n.val < 8 then [F.ING_PSTAT_UP q, F.ING_PSTAT_SPEED q] else []
    let failed := F.LAN_STAT_LASTFAIL n :: F.LAN_RETRY_COUNT n :: source ++ changed
    let waits (c : Instr) : Prop := Answers c s (· = s)
    let moves (t : State) (fs : List Fld) (st : Nat) : Prop :=
      Changes (changed ++ fs) [144 + n] { s with lan := t.lan } t ∧ t.lane n = st ∧ t.on (F.LAN_STAT_EVSTATE n) = true
      ∧ t.lan.subs = s.lan.subs
    let fails (c : Instr) (fs : List Fld) (stage : Nat) : Prop := Answers c s fun t =>
      moves t (failed ++ fs) 9 ∧ t.get (F.LAN_STAT_LASTFAIL n) = stage
      ∧ t.get (F.LAN_RETRY_COUNT n) = min 0xFFFFFFFF (s.get (F.LAN_RETRY_COUNT n) + 1)
    let headers (t : State) : Prop :=
      t.get (F.LAN_ERRCNT_COUNT n) = min 0xFFFFFFFF (s.get (F.LAN_ERRCNT_COUNT n) + invalid)
    let tuned := [F.LAN_RXEQ_CTLE n, F.LAN_RXEQ_DFE1 n]
    (s.lanePowered n = true → s.lane n = 1 → 8 ≤ n.val → Answers (.laneEnable n) s fun t =>
      moves t [F.LAN_CTL_EN n, F.LAN_STAT_RXINV n] 2 ∧ t.on (F.LAN_CTL_EN n) = true)
    ∧ (s.lanePowered n = true → s.lane n = 1 → n.val < 8 → Answers (.laneEnable n) s fun t =>
      moves t [F.LAN_CTL_EN n] 4 ∧ t.on (F.LAN_CTL_EN n) = true)
    ∧ (s.lanePowered n = true → s.lane n ≠ 1 → Answers (.laneEnable n) s (Sets [(F.LAN_CTL_EN n, 1)] [] s))
    ∧ (s.lanePowered n = false → waits (.laneEnable n) ∧ waits (.laneDisable n))
    ∧ (s.lanePowered n = true → (s.lane n = 0 ∨ s.lane n = 8) →
        Answers (.laneDisable n) s (Sets [(F.LAN_CTL_EN n, 0)] [] s))
    ∧ (s.lanePowered n = true → s.lane n ≠ 0 → s.lane n ≠ 8 → Answers (.laneDisable n) s fun t =>
        t.lane n = 1 ∧ t.on (F.LAN_CTL_EN n) = false ∧ n.val ∉ t.lan.surveying
        ∧ t.mem = s.mem ∧ t.cores = s.cores ∧ t.nvj = s.nvj
        ∧ (s.lane n ≠ 6 ∨ n.val < 8 → Changes (F.LAN_CTL_EN n :: source ++ changed)
            (if s.lane n = 1 then [] else [144 + n]) { s with lan := t.lan } t)
        ∧ (n.val < 8 → t.on (F.ING_PSTAT_UP q) = false ∧ t.get (F.ING_PSTAT_SPEED q) = 0))
    ∧ (s.lane n = 2 → Answers (.receiverDetectPulse n true) s fun t => moves t [] 3)
    ∧ (s.lane n ≠ 2 → waits (.receiverDetectPulse n true)) ∧ waits (.receiverDetectPulse n false)
    ∧ (s.lane n = 3 → Answers (.trainWindowEnd n true inverted ctle dfe1) s fun t =>
        moves t (F.LAN_STAT_RXINV n :: tuned) 4 ∧ t.on (F.LAN_STAT_RXINV n) = inverted
        ∧ t.get (F.LAN_RXEQ_DFE1 n) = dfe1.toNat
        ∧ t.get (F.LAN_RXEQ_CTLE n) = if s.on (F.LAN_RXEQ_CTLEAD n) then ctle.toNat else s.get (F.LAN_RXEQ_CTLE n))
    ∧ (s.lane n = 3 → fails (.trainWindowEnd n false inverted ctle dfe1) tuned 3)
    ∧ (s.lane n ≠ 3 → waits (.trainWindowEnd n locked inverted ctle dfe1))
    ∧ (s.lane n = 4 → 8 ≤ n.val → Answers (.blockLock n align invalid) s fun t =>
        moves t (F.LAN_ERRCNT_COUNT n :: F.LAN_RXALIGN_UI n :: (lanesOf (portOfLane n)).map F.LAN_RXALIGN_UI) 5
        ∧ headers t
        ∧ (∀ a b l, s.activeLanes (portOfLane n) = a :: b :: l →
            t.get (F.LAN_RXALIGN_UI n) = s.get (F.LAN_RXALIGN_UI a)
            ∧ ∀ m, m ≠ n.val → t.get (F.LAN_RXALIGN_UI m) = s.get (F.LAN_RXALIGN_UI m))
        ∧ ((s.activeLanes (portOfLane n)).length < 2 →
            ∀ m ∈ lanesOf (portOfLane n), t.get (F.LAN_RXALIGN_UI m) = align.toNat))
    ∧ ((s.lane n ≠ 4 ∨ n.val < 8) → waits (.blockLock n align invalid) ∧ waits (.blocklockTimeout n invalid))
    ∧ (s.lane n = 4 → 8 ≤ n.val → fails (.blocklockTimeout n invalid) [F.LAN_ERRCNT_COUNT n] 4)
    ∧ (s.lane n = 5 → s.exchanged n = false → fails (.exchangeTimeout n invalid) [F.LAN_ERRCNT_COUNT n] 5)
    ∧ ((s.lane n ≠ 5 ∨ s.exchanged n = true) → waits (.exchangeTimeout n invalid))
    ∧ (s.lane n = 9 → s.on (F.LAN_CTL_EN n) = true →
        Answers (.backoffExpiry n) s fun t => moves t [F.LAN_STAT_RXINV n] 2 ∧ t.on (F.LAN_STAT_RXINV n) = false)
    ∧ ((s.lane n ≠ 9 ∨ s.on (F.LAN_CTL_EN n) = false) → waits (.backoffExpiry n))
    ∧ (n.val < 8 → s.isTile = false → s.lane n = 4 → Answers (.sourceLaneLock n align) s fun t =>
        t.lane n = 6 ∧ t.get (F.LAN_RXALIGN_UI n) = align.toNat ∧ t = { s with regs := t.regs } ∧ WordsKept [1, 5, 12] s t
        ∧ t.on (F.LAN_STAT_EVSTATE n) = true
        ∧ (s.sourceMode n = 1 → ∀ k, k < 4 → t.get (F.LAN_RXALIGN_UI (n.val / 4 * 4 + k)) = align.toNat))
    ∧ ((8 ≤ n.val ∨ s.isTile = true ∨ s.lane n ≠ 4) → waits (.sourceLaneLock n align)))
  ∧ (∀ (s : State) (n : Fin 36) (invalid : Nat),
    let p := portOfLane n
    let active := s.lane n = 6 ∨ s.lane n = 7
    let headers := min 0xFFFFFFFF (s.get (F.LAN_ERRCNT_COUNT n) + invalid)
    let q := if s.sourceMode n = 1 then n.val / 4 * 4 else n.val
    (active → 8 ≤ n.val → Answers (.blockLockLoss n invalid) s fun t =>
      t.lane n = 9 ∧ t.get (F.LAN_STAT_LASTFAIL n) = 4
      ∧ t.get (F.LAN_RETRY_COUNT n) = min 0xFFFFFFFF (s.get (F.LAN_RETRY_COUNT n) + 1)
      ∧ t.get (F.LAN_ERRCNT_COUNT n) = headers
      ∧ (s.lane n = 6 → (t.activeLanes p).length < 2 → t.up p = false ∧ t.laneSub p = none)
      ∧ (∀ m, m < 36 → m ≠ n.val → t.lane m = s.lane m)
      ∧ t.mem = s.mem ∧ t.cores = s.cores ∧ t.nvj = s.nvj ∧ t.tim.wall = s.tim.wall)
    ∧ (active → n.val < 8 → Answers (.blockLockLoss n invalid) s fun t =>
        Changes [F.LAN_STAT_STATE n, F.LAN_STAT_EVSTATE n, F.LAN_ERRCNT_COUNT n, F.ING_PSTAT_UP q, F.ING_PSTAT_SPEED q]
          [144 + n] { s with lan := t.lan } t
        ∧ t.lane n = 4 ∧ t.on (F.ING_PSTAT_UP q) = false ∧ t.get (F.ING_PSTAT_SPEED q) = 0
        ∧ t.get (F.LAN_ERRCNT_COUNT n) = headers)
    ∧ ((s.lane n = 4 ∨ s.lane n = 5) → Answers (.blockLockLoss n invalid) s (Sets [(F.LAN_ERRCNT_COUNT n, headers)] [] s))
    ∧ ((s.lane n < 4 ∨ 7 < s.lane n) → Answers (.blockLockLoss n invalid) s (· = s)))

/-- R139 to R141, R144, R145, Table 6.4: a capability block shows the partner's fields, and the third equal one in
EXCHANGE passes the exchange: the port lane enters ACTIVE, STANDBY or RETIRED by the lane map of both ends' RETIRED
fields; a lane in EXCHANGE, ACTIVE or STANDBY sends its own; a TXEQ write whose taps sum above 63 is ignored; a survey
runs on an ACTIVE or STANDBY lane and ends in the eye words, their minima and EVEYE under the limits. -/
def Obligations.ExchangesTxeqAndSurveysComplete : Prop :=
  ∀ (s : State) (n : Fin 36) (w : BitVec 56) (invalid : Nat) (value : Word) (width : BitVec 7) (height : Byte),
    let p := portOfLane n
    let i := portLane n
    let st := s.lane n
    let waits (c : Instr) : Prop := Answers c s (· = s)
    let heard := 8 ≤ n.val ∧ (st = 5 ∨ st = 6 ∨ st = 7)
    let retired := s.get (F.LAN_PSUB_RETIRED p) ||| bits w.toNat 42 4
    let map := ((List.range (laneCount p)).filter fun i => !(bit retired i)).take 2
    let shown (t : State) : Prop :=
      t.get (F.LAN_PARTNER_VERSION n) = bits w.toNat 52 4 ∧ t.get (F.LAN_PARTNER_ROLE n) = bits w.toNat 51 1
      ∧ t.get (F.LAN_PARTNER_PORTKIND n) = bits w.toNat 48 3 ∧ t.get (F.LAN_PARTNER_LANE n) = bits w.toNat 46 2
      ∧ t.get (F.LAN_PARTNER_RETIRED n) = bits w.toNat 42 4 ∧ t.get (F.LAN_PARTNER_FECREQ n) = bits w.toNat 40 1
      ∧ t.on (F.LAN_PARTNER_VALID n) = true
      ∧ t.get (F.LAN_PEYE_WIDTH n) = bits w.toNat 29 7 ∧ t.get (F.LAN_PEYE_HEIGHT n) = bits w.toNat 21 8
      ∧ t.get (F.LAN_ERRCNT_COUNT n) = min 0xFFFFFFFF (s.get (F.LAN_ERRCNT_COUNT n) + invalid)
    let third := s.lan.caps.find? (fun e => e.1 == n.val) = some (n.val, w, 2)
    let surveys := (st = 6 ∨ st = 7) ∧ n.val ∉ s.lan.surveying
    let first := s.get (F.LAN_EYE_SURVEYS n) = 0
    let below := width.toNat < s.get F.LAN_EYELIM_WIDTH ∨ height.toNat < s.get F.LAN_EYELIM_HEIGHT
    (heard → Answers (.capabilityBlock n w invalid) s fun t =>
      shown t ∧ t.mem = s.mem ∧ t.cores = s.cores
      ∧ (st = 5 → third → 2 ≤ map.length → t.lane n = if i ∈ map then 6 else if bit retired i then 8 else 7)
      ∧ (st = 5 → third → map.length < 2 → t.lane n = 5))
    ∧ (¬ heard → waits (.capabilityBlock n w invalid) ∧ waits (.capabilityBlockSend n))
    ∧ (heard → (∀ x, s.laneSub p = some x → x.lane < 4 ∧ (x.spare = i → x.accept = false)) → Answers (.capabilityBlockSend n) s fun t =>
        ∃ v : BitVec 56, t = { s with sent := s.sent ++ [.capability n v] }
        ∧ bits v.toNat 52 4 = 1 ∧ bits v.toNat 51 1 = b2n s.isTile ∧ bits v.toNat 46 2 = i
        ∧ bits v.toNat 42 4 = s.get (F.LAN_PSUB_RETIRED p)
        ∧ bits v.toNat 29 7 = s.get (F.LAN_EYE_WIDTH n) ∧ bits v.toNat 21 8 = s.get (F.LAN_EYE_HEIGHT n))
    ∧ (s.lanePowered n = true → value.toNat % 32 + value.toNat / 32 % 64 + value.toNat / 2048 % 64 ≤ 63 →
        Answers (.txeqWrite n value) s (Sets
          [(F.LAN_TXEQ_PRE n, value.toNat % 32), (F.LAN_TXEQ_MAIN n, value.toNat / 32 % 64),
           (F.LAN_TXEQ_POST n, value.toNat / 2048 % 64), (⟨.LAN_TXEQ n, 17, 15⟩, 0)] [] s))
    ∧ ((s.lanePowered n = false ∨ 63 < value.toNat % 32 + value.toNat / 32 % 64 + value.toNat / 2048 % 64) →
        waits (.txeqWrite n value))
    ∧ (surveys → Answers (.surveyRequest n) s fun t =>
        t = { s with lan := { s.lan with surveying := t.lan.surveying } }
        ∧ ∀ m, m ∈ t.lan.surveying ↔ (m = n.val ∨ m ∈ s.lan.surveying))
    ∧ (¬ surveys → waits (.surveyRequest n))
    ∧ (s.get F.LAN_SURV_PERIOD = 0 → waits .surveyPeriodic)
    ∧ (s.get F.LAN_SURV_PERIOD ≠ 0 → Answers .surveyPeriodic s fun t =>
        t = { s with lan := { s.lan with surveying := t.lan.surveying } }
        ∧ ∀ m, m ∈ t.lan.surveying ↔ (m ∈ s.lan.surveying ∨ (m < 36 ∧ (s.lane m = 6 ∨ s.lane m = 7))))
    ∧ (n.val ∈ s.lan.surveying → Answers (.surveyComplete n width height) s fun t =>
        Changes [(Reg.LAN_EYE n).whole, (Reg.LAN_EYEMIN n).whole, (Reg.LAN_EYEAVG n).whole, F.LAN_STAT_EVEYE n]
          (if below then [144 + n] else [])
          { s with lan := { s.lan with surveying := s.lan.surveying.filter (· != n.val) } } t
        ∧ t.get (F.LAN_EYE_WIDTH n) = width.toNat ∧ t.get (F.LAN_EYE_HEIGHT n) = height.toNat
        ∧ t.get (F.LAN_EYE_SURVEYS n) = min 65535 (s.get (F.LAN_EYE_SURVEYS n) + 1)
        ∧ t.get (F.LAN_EYEMIN_WIDTH n) = min width.toNat (s.get (F.LAN_EYEMIN_WIDTH n))
        ∧ t.get (F.LAN_EYEMIN_HEIGHT n) = min height.toNat (s.get (F.LAN_EYEMIN_HEIGHT n))
        ∧ (first → t.get (F.LAN_EYEAVG_WIDTH n) = width.toNat * 16 ∧ t.get (F.LAN_EYEAVG_HEIGHT n) = height.toNat * 16)
        ∧ (below → t.on (F.LAN_STAT_EVEYE n) = true))
    ∧ (n.val ∉ s.lan.surveying → waits (.surveyComplete n width height))

/-- R149, R152: a block on the spare that carries SUBACK counts as sent, and once both ends have sent and received one the
swap blocks go out, once; swap blocks on the lane to be retired, both ends having acknowledged, complete its substitution:
the lane is RETIRED, the spare ACTIVE, RESULT 1, EVSUB and PENDING 0; no acknowledgement in time ends it with RESULT 4, or
2 where the partner has answered this end's request without one (which of the two is free, log entry 73), and leaves every
lane as it was. -/
def Obligations.LaneSubstitutionsEnd : Prop :=
  ∀ (s : State) (x : LaneSub) (n : Fin 36) (p : Fin 9) (align : BitVec 16),
    s.laneSub p = some x → x.port = p.val →
    let waits (c : Instr) : Prop := Answers c s (· = s)
    let a := laneOf p x.lane
    let b := laneOf p x.spare
    let ended (t : State) (res : Nat) : Prop :=
      t.laneSub p = none ∧ t.get (F.LAN_PSUB_RESULT p) = res ∧ t.on (F.LAN_PSUB_PENDING p) = false
      ∧ t.on (F.LAN_STAT_EVSUB a) = true ∧ t.mem = s.mem ∧ t.cores = s.cores
    (portOfLane n = p.val → 8 ≤ n.val → portLane n = x.lane → x.lane < laneCount p → x.spare < laneCount p →
      x.spare ≠ x.lane → x.ackSent = true → x.ackReceived = true →
      Answers (.swapBlocks n align) s fun t =>
        ended t 1 ∧ t.lane a = 8 ∧ t.lane b = 6 ∧ t.get (F.LAN_RXALIGN_UI n) = align.toNat
        ∧ bit (t.get (F.LAN_PSUB_RETIRED p)) x.lane = true ∧ bit (t.get (F.LAN_PSUB_SPARE p)) x.spare = false
        ∧ ∀ m, m ≠ a → m ≠ b → t.lane m = s.lane m)
    ∧ (portOfLane n = p.val → (n.val < 8 ∨ portLane n ≠ x.lane ∨ x.ackSent = false ∨ x.ackReceived = false) →
        waits (.swapBlocks n align))
    ∧ (portOfLane n = p.val → 8 ≤ n.val → portLane n = x.spare → x.lane < 4 → x.accept = true →
        (s.lane n = 5 ∨ s.lane n = 6 ∨ s.lane n = 7) → Answers (.capabilityBlockSend n) s fun t =>
          ∃ v : BitVec 56, bits v.toNat 36 1 = 1 ∧ bits v.toNat 39 1 = b2n x.own
          ∧ (x.own = true → bits v.toNat 37 2 = x.lane)
          ∧ t.sent = s.sent ++ [.capability n v]
              ++ (if x.ackReceived = true ∧ x.swapped = false then [.swap a] else [])
          ∧ (∀ y, t.laneSub p = some y → y.ackSent = true ∧ y.accept = true ∧ y.lane = x.lane ∧ y.spare = x.spare)
          ∧ t = { s with sent := t.sent, lan := { s.lan with subs := t.lan.subs } })
    ∧ (x.ackReceived = false → Answers (.substitutionTimeout p) s fun t =>
        (∃ res, ended t res ∧ (res = 4 ∨ (res = 2 ∧ x.own = true ∧ x.heard = true)))
        ∧ (∀ m, t.lane m = s.lane m) ∧ t.get (F.LAN_PSUB_RETIRED p) = s.get (F.LAN_PSUB_RETIRED p)
        ∧ t.get (F.LAN_PSUB_SPARE p) = s.get (F.LAN_PSUB_SPARE p))
    ∧ (x.ackReceived = true → waits (.substitutionTimeout p))

/-! ### The wall link -/

/-- R154, R159 to R163, R165: a frame with a wrong CRC is discarded and counted and asks once for a resend; a void frame
is ignored; a good frame without content moves on the expected SEQ and returns credits, a null frame with a good CRC
acknowledges; each up port sends one frame, with its ACKSEQ, a frame due for resend first and a null frame while 64 are
unacknowledged, its blocks going on by turns on the two active lanes; a resend round begins anew until the ninth takes the
port down, from where it begins anew; EN = 0 takes the port down and EN = 1 brings it up towards a partner that pairs. -/
def Obligations.LinkFramesAreAcknowledgedAndResent : Prop :=
  ∀ (s : State) (p : Fin 9) (f : LinkFrame) (age : BitVec 24),
    let pt := s.port p
    let waits (c : Instr) : Prop := Answers c s (· = s)
    let only (t : State) (x : Port) : Prop := t = { s with lnk := { s.lnk with ports := t.lnk.ports } }
      ∧ PortsKept [p.val] s t ∧ t.port p = x
    let crc := frameCrc f.header f.desc f.area (f.trailer.extractLsb' 0 32)
    let field := f.trailer.extractLsb' 32 32
    let good := s.up p = true ∧ s.onMaster p = false ∧ field = crc ∧ s.frameFits p f = true
    let null := f.header.getLsbD 28
    let seq := bits f.header.toNat 44 12
    let credit (lo : Nat) := bits f.trailer.toNat lo 8
    let exists' := s.isTile = true → p.val < 2
    let down (t : State) : Prop := t.up p = false ∧ (s.up p = true → t.port p = pt.fresh) ∧ t.mem = s.mem ∧ t.cores = s.cores
    (s.up p = false → waits (.linkFrame p f age) ∧ waits (.resendTimeout p) ∧ waits (.nakRepeat p)
      ∧ waits (.linkFrameSend p))
    ∧ (s.up p = true → s.onMaster p = false → field = ~~~crc → waits (.linkFrame p f age))
    ∧ (s.up p = true → s.onMaster p = false → field ≠ ~~~crc → (field ≠ crc ∨ (null = false ∧ seq ≠ pt.rxNext)) →
        Answers (.linkFrame p f age) s fun t =>
          Changes [F.LNK_CRCERR_COUNT p] [] { s with lnk := { s.lnk with ports := t.lnk.ports } } t
          ∧ Counted (F.LNK_CRCERR_COUNT p) 1 s t ∧ PortsKept [p.val] s t
          ∧ t.port p = if pt.nakOpen then pt else { pt with nakDue := true, nakOpen := true })
    ∧ (good → null = false → seq = pt.rxNext → bits f.header.toNat 30 2 = 0 → segments f = [] →
        Answers (.linkFrame p f age) s fun t => only t
          { pt with
            rxNext := (pt.rxNext + 1) % 4096, nakOpen := false, credit1 := min 256 (pt.credit1 + credit 24),
            credit2 := min 512 (pt.credit2 + credit 16), credit3 := min 1024 (pt.credit3 + credit 8) })
    ∧ (s.up p = true → field = crc → null = true → bits f.header.toNat 30 2 = 0 → waits (.linkFrame p f age))
    ∧ (s.up p = true → field = crc → p.val < 8 → null = true → bits f.header.toNat 30 2 = 1 → ∀ i,
        pt.kept.findIdx? (fun k => k.seq == bits f.header.toNat 32 12) = some i →
        Answers (.linkFrame p f age) s fun t => only t
          { pt with
            kept := pt.kept.drop (i + 1), rounds := 0,
            resend := pt.resend.filter fun k => !(((pt.kept.take (i + 1)).map (·.seq)).contains k.seq) })
    ∧ (s.up p = true → Answers (.linkFrameSend p) s fun t => ∃ g : LinkFrame,
        t.sent = s.sent ++ [.frame p pt.odd g] ∧ t.mem = s.mem ∧ t.cores = s.cores
        ∧ (t.port p).odd = (pt.odd != ((123 + g.gap) % 2 == 1)) ∧ (∀ k, frameLane pt.odd k = (b2n pt.odd + k) % 2)
        ∧ g.trailer.extractLsb' 32 32 = frameCrc g.header g.desc g.area (g.trailer.extractLsb' 0 32)
        ∧ bits g.header.toNat 32 12 = (pt.rxNext + 4095) % 4096
        ∧ bits g.header.toNat 30 2 = (if pt.nakDue then 2 else 1) ∧ (t.port p).nakDue = false
        ∧ (∀ k rest, pt.resend = k :: rest →
            bits g.header.toNat 44 12 = k.seq % 4096 ∧ g.header.getLsbD 29 = true ∧ g.area = k.area
            ∧ Counted (F.LNK_RETRYCNT_COUNT p) 1 s t)
        ∧ (pt.resend = [] → 64 ≤ pt.kept.length → g.header.getLsbD 28 = true ∧ (t.port p).kept = pt.kept)
        ∧ (pt.resend = [] → pt.kept.length < 64 → g.header.getLsbD 28 = false →
            bits g.header.toNat 44 12 = pt.txSeq % 4096 ∧ (t.port p).txSeq = (pt.txSeq + 1) % 4096
            ∧ (t.port p).kept.map (·.seq) = pt.kept.map (·.seq) ++ [pt.txSeq]))
    ∧ (s.up p = true → pt.kept = [] → waits (.resendTimeout p))
    ∧ (s.up p = true → pt.kept ≠ [] → pt.rounds < 8 → Answers (.resendTimeout p) s fun t =>
        only t { pt with resend := pt.kept, rounds := pt.rounds + 1 })
    ∧ (s.up p = true → pt.kept ≠ [] → 8 ≤ pt.rounds → Answers (.resendTimeout p) s fun t =>
        ((s.activeLanes p).length < 2 ∨ s.on (F.LNK_PCTL_EN p) = false → down t)
        ∧ (t.port p).kept = [] ∧ (t.port p).txSeq = 0 ∧ (t.port p).rxNext = 0 ∧ t.on (F.LNK_PSTAT_EVLINK p) = true
        ∧ t.mem = s.mem ∧ t.cores = s.cores)
    ∧ (s.up p = true → pt.nakOpen = true → Answers (.nakRepeat p) s fun t => only t { pt with nakDue := true })
    ∧ (pt.nakOpen = false → waits (.nakRepeat p))
    ∧ (exists' → s.on (F.LNK_PCTL_EN p) = true → waits (.portEnable p)
        ∧ Answers (.portDisable p) s fun t => t.on (F.LNK_PCTL_EN p) = false ∧ down t)
    ∧ (exists' → s.on (F.LNK_PCTL_EN p) = false → waits (.portDisable p))
    ∧ (exists' → s.on (F.LNK_PCTL_EN p) = false → ∀ a b l, s.activeLanes p = a :: b :: l → s.up p = false →
        (s.pairsWith p (s.get (F.LAN_PARTNER_PORTKIND a)) = true → Answers (.portEnable p) s fun t =>
          t.on (F.LNK_PCTL_EN p) = true ∧ t.up p = true ∧ (t.port p).txSeq = 0 ∧ (t.port p).rxNext = 0
          ∧ (t.port p).kept = [] ∧ (t.port p).credit1 = 256 ∧ (t.port p).credit2 = 512 ∧ (t.port p).credit3 = 1024
          ∧ t.mem = s.mem ∧ t.cores = s.cores)
        ∧ (s.pairsWith p (s.get (F.LAN_PARTNER_PORTKIND a)) = false → Answers (.portEnable p) s fun t =>
          t.on (F.LNK_PCTL_EN p) = true ∧ t.up p = false ∧ t.on (F.LNK_PSTAT_MISROLE p) = true
          ∧ t.on (F.LNK_PSTAT_EVLINK p) = true))
    ∧ (exists' → s.on (F.LNK_PCTL_EN p) = false → (s.activeLanes p).length < 2 → Answers (.portEnable p) s fun t =>
        t.on (F.LNK_PCTL_EN p) = true ∧ down t)
    ∧ (¬ exists' → waits (.portEnable p) ∧ waits (.portDisable p))

/-- R168, R172, R176, R177, R180, R185, Table 7.8: what a tile does with a cell of VC1. POS at port 0 sets the position; a
higher ANNOUNCE becomes the master; a TOKEN, RETRACT or message for the tiles is taken on the master side, where a token
that may be accepted is kept and counted, and is dropped and counted on the other; a message is written to the receive
ring or counted in MRXDROP; GACKs pass towards the master side and REPORTs either way; what goes on leaves by the other
port, and the credit of the rest is returned. -/
def Obligations.TilesTakeAndForwardCells : Prop :=
  ∀ (s : State) (p : Fin 9) (ann : AnnounceCell) (tok : TokenCell) (ret : RetractCell) (gack : GackCell) (rep : ReportCell)
    (msg : MsgCell) (value : BitVec 7) (valid : Bool),
    s.isTile = true → p.val < 2 →
    let m := s.onMaster p = true
    let passed (c : Cell) (yes : Prop) := CellPassed p c yes s
    let onlyLinks (t : State) : Prop := t = { s with lnk := { s.lnk with ports := t.lnk.ports } }
    let dropped (i : Instr) (c : Cell) (yes : Prop) : Prop := Answers i s fun t => CellDropped p s t ∧ passed c yes t
    let higher := s.masterEpoch.toNat < ann.epoch.toNat
      ∨ (ann.epoch = s.masterEpoch ∧ ann.epoch ≠ 0 ∧ ann.devid.toNat < s.lnk.masterId.toNat)
    let master := s.masterEpoch ≠ 0 ∧ ann.epoch = s.masterEpoch ∧ ann.devid = s.lnk.masterId
    let at' := tokenInstant tok
    let fresh := s.tokenAt at' = none
    let ok := tok.epoch = s.masterEpoch ∧ tok.n.toNat ≤ 16 ∧ s.lnk.tokens.length < 4 ∧ ∀ l, s.lnk.lastShow = some l → l < at'
    let own := s.on F.LNK_POS_VALID = true ∧ s.get F.LNK_POS_POSITION = msg.position.toNat
    let head := s.get F.LNK_MRXHEAD_SLOT
    let room := s.on F.LNK_MRXCFG_EN = true ∧ (head + 1) % 64 ≠ s.get F.LNK_MRXTAIL_SLOT
    let a := 0xE100000000 + min (s.get F.LNK_MRXBASE_OFFSET) 0x1FB * 4096 + head * 272
    let slot := [BitVec.ofNat 8 msg.kind.toNat, BitVec.ofNat 8 (msg.body.length / 4), 0,
      BitVec.ofNat 8 (2 * b2n msg.all + 16 * p.val)] ++ List.replicate 12 0 ++ msg.body
    (p.val = 0 → Answers (.pos p value valid) s fun t =>
      t.get F.LNK_POS_POSITION = value.toNat ∧ t.on F.LNK_POS_VALID = valid ∧ t.mem = s.mem ∧ t.cores = s.cores)
    ∧ (p.val = 1 → Answers (.pos p value valid) s fun t => onlyLinks t ∧ passed (.pos value valid) False t)
    ∧ (higher → Answers (.announce p ann) s fun t =>
        t = { s with regs := t.regs, lnk := t.lnk, hst := t.hst } ∧ WordsKept [2, 12, 13] s t
        ∧ t.masterEpoch = ann.epoch ∧ t.masterPort = p.val ∧ t.lnk.masterId = ann.devid ∧ passed (.announce ann) True t
        ∧ (ann.devid ≠ s.lnk.masterId → s.on F.LNK_POS_VALID = true → t.leased = true ∧ t.get F.HST_STAT_CARRIER = 3)
        ∧ (ann.devid ≠ s.lnk.masterId → s.on F.LNK_POS_VALID = false → t.leased = false))
    ∧ (¬ higher → m → master → Answers (.announce p ann) s fun t => onlyLinks t ∧ passed (.announce ann) True t)
    ∧ (¬ higher → ¬ (m ∧ master) → dropped (.announce p ann) (.announce ann) False)
    ∧ (¬ m → dropped (.token p tok) (.token tok) False ∧ dropped (.retract p ret) (.retract ret) False)
    ∧ (m → fresh → ok → Answers (.token p tok) s fun t =>
        t.lnk.tokens = s.lnk.tokens ++ [⟨at', tok.commit.toNat, tok.layers, s.windowClosed at'⟩]
        ∧ t.lnk.lastShow = some at' ∧ Counted F.LNK_TOKCNT_COUNT 1 s t ∧ passed (.token tok) True t
        ∧ (s.windowClosed at' = true → Counted F.CMP_LATETOK_COUNT 1 s t)
        ∧ t = { s with regs := t.regs, lnk := t.lnk, srf := t.srf })
    ∧ (m → fresh → ¬ ok → dropped (.token p tok) (.token tok) True)
    ∧ (m → ∀ x, s.tokenAt at' = some x →
        (x.commit = tok.commit.toNat → x.layers = tok.layers →
          Answers (.token p tok) s fun t => onlyLinks t ∧ passed (.token tok) True t)
        ∧ ((x.commit ≠ tok.commit.toNat ∨ x.layers ≠ tok.layers) → dropped (.token p tok) (.token tok) True))
    ∧ (m → ret.epoch ≠ s.masterEpoch → dropped (.retract p ret) (.retract ret) True)
    ∧ (m → s.tokenNames ret.handle.toNat ret.gen.toNat = true → dropped (.retract p ret) (.retract ret) True)
    ∧ (m → ret.epoch = s.masterEpoch → s.tokenNames ret.handle.toNat ret.gen.toNat = false → ∀ x, s.handle ret.handle.toNat = some x → ∀ j, x.find ret.gen.toNat = some j →
        let st := (x.slots.getD j Slot.empty).st
        ((st = 1 ∨ st = 3) → Answers (.retract p ret) s fun t =>
          t = { s with regs := t.regs, lnk := { s.lnk with ports := t.lnk.ports }, srf := t.srf }
          ∧ passed (.retract ret) True t
          ∧ ∃ y, t.handle ret.handle.toNat = some y ∧ y.retracted = some ret.gen.toNat
              ∧ y.slots.getD j Slot.empty = Slot.empty ∧ y.slots.length = x.slots.length)
        ∧ (st ≠ 1 → st ≠ 3 → dropped (.retract p ret) (.retract ret) True))
    ∧ (m → ret.epoch = s.masterEpoch → (∀ x, s.handle ret.handle.toNat = some x → x.find ret.gen.toNat = none) →
        dropped (.retract p ret) (.retract ret) True)
    ∧ (msg.up = true → m → dropped (.msgCell p msg) (.msg msg) False)
    ∧ (msg.up = true → ¬ m → Answers (.msgCell p msg) s fun t => onlyLinks t ∧ passed (.msg msg) True t)
    ∧ (msg.up = false → ¬ m → dropped (.msgCell p msg) (.msg msg) False)
    ∧ (msg.up = false → m → msg.all = false → ¬ own →
        Answers (.msgCell p msg) s fun t => onlyLinks t ∧ passed (.msg msg) True t)
    ∧ (msg.up = false → m → (msg.all = true ∨ own) → msg.wellFormed = true → room →
        Memory.wf s.mem → s.poison = [] → s.soft = [] → Answers (.msgCell p msg) s fun t =>
          Changes [F.LNK_MRXHEAD_SLOT] [] { s with mem := t.mem, lnk := { s.lnk with ports := t.lnk.ports } } t
          ∧ t.get F.LNK_MRXHEAD_SLOT = (head + 1) % 64 ∧ passed (.msg msg) (msg.all = true ∨ ¬ own) t
          ∧ ∀ x, t.byte x = if a ≤ x ∧ x < a + slot.length then slot.getD (x - a) 0 else s.byte x)
    ∧ (msg.up = false → m → (msg.all = true ∨ own) → ¬ room → Answers (.msgCell p msg) s fun t =>
          Changes [F.LNK_MRXDROP_COUNT] [] { s with lnk := { s.lnk with ports := t.lnk.ports } } t
          ∧ Counted F.LNK_MRXDROP_COUNT 1 s t ∧ passed (.msg msg) (msg.all = true ∨ ¬ own) t)
    ∧ (m → dropped (.gack p gack) (.gack gack) False)
    ∧ (¬ m → Answers (.gack p gack) s fun t => onlyLinks t ∧ passed (.gack gack) True t)
    ∧ Answers (.report p rep) s fun t => onlyLinks t ∧ passed (.report rep) True t

/-- R168, R182, R184, R14 to R16, Table 2.3: a request that names this tile, on its master side, is executed once: a READ
answers the bytes, a WRITE and a FILL change those bytes of memory and no other, a range that may not be accessed answers
ADDRESS_ERROR and a misaligned one FORMAT with no effect; the response is queued towards the master and the tag's record
kept; a request under the recorded TAG and TGEN is not executed again; PROBE answers from the record, or TIMEOUT, after
which the request is not executed; a request for another tile goes on, one off the master side is dropped. -/
def Obligations.TilesExecuteWallRequestsOnce : Prop :=
  ∀ (s : State) (p : Fin 9) (c : RequestCell), s.isTile = true → p.val < 2 →
    let m := s.onMaster p = true
    let own := s.on F.LNK_POS_VALID = true ∧ s.get F.LNK_POS_POSITION = c.position.toNat
    let key := (c.tag.toNat, c.tgen.toNat)
    let a := c.addr.toNat
    let n := 4 * c.words.toNat
    let fresh := s.tileTag key.1 key.2 = none ∧ key ∉ s.lnk.refusedTags ∧ s.on F.PWR_STAT_MIDNIGHT = false
    let commands : List (Instr × Nat) := [(.wallRead p c, 0), (.wallWrite p c, 1), (.wallFill p c, 2)]
    let clean := Memory.wf s.mem = true ∧ s.poison = [] ∧ s.soft = [] ∧ inDram a = false ∧ touchesWords a n = false
    let answered (req : BitVec 2) (words st : Nat) (data : List Byte) (t : State) : Prop :=
      (t.port p).vc2 = (s.port p).vc2 ++ [⟨(Cell.response ⟨req, BitVec.ofNat 7 (s.get F.LNK_POS_POSITION), c.tag, c.tgen,
        BitVec.ofNat 16 words, BitVec.ofNat 8 st, data⟩).units, none, false, none⟩]
    let recorded (req st : Nat) (keep : Bool) (t : State) : Prop :=
      t.tileTag key.1 key.2 = some ⟨key.1, key.2, req, a, c.words.toNat, st, keep⟩
    let quiet (t : State) : Prop := t.mem = s.mem ∧ t.cores = s.cores ∧ t.regs = s.regs
    let stored (l : List Byte) (t : State) : Prop :=
      t.cores = s.cores ∧ t.regs = s.regs
      ∧ ∀ x, t.byte x = if a ≤ x ∧ x < a + n then l.getD (x - a) 0 else s.byte x
    (¬ m → ∀ i ∈ commands, Answers i.1 s (CellDropped p s))
    ∧ (¬ m → Answers (.probe p c) s (CellDropped p s))
    ∧ (m → ¬ own → (∀ i ∈ commands, Answers i.1 s fun t => quiet t ∧ CellPassed p (.request i.2 c) True s t)
        ∧ Answers (.probe p c) s fun t => quiet t ∧ CellPassed p (.request 3 c) True s t)
    ∧ (m → own → s.up p = true → fresh →
        (a % 4 ≠ 0 → ∀ i ∈ commands, Answers i.1 s fun t =>
          quiet t ∧ answered (BitVec.ofNat 2 i.2) 0 4 [] t ∧ recorded i.2 4 false t)
        ∧ (a % 4 = 0 → clean → s.inMemory a n = true → s.on F.LNK_RPLBASE_EN = false → Answers (.wallRead p c) s fun t =>
            quiet t ∧ answered 0 c.words.toNat 0 (s.bytes a n) t ∧ recorded 0 0 false t)
        ∧ (a % 4 = 0 → clean → s.inMemory a n = false → inNvjWindow a n = false → inBootRom a n = false →
            Answers (.wallRead p c) s fun t => quiet t ∧ answered 0 0 1 [] t ∧ recorded 0 1 false t)
        ∧ (a % 4 = 0 → clean → c.writeForm = true → s.writable a n = true → Answers (.wallWrite p c) s fun t =>
            stored c.data t ∧ answered 1 0 0 [] t ∧ recorded 1 0 false t)
        ∧ (a % 4 = 0 → clean → s.writable a n = true → Answers (.wallFill p c) s fun t =>
            stored (fillBytes (beBytes 4 c.pattern.toNat) n) t ∧ answered 2 0 0 [] t ∧ recorded 2 0 false t)
        ∧ (a % 4 = 0 → clean → c.writeForm = true → s.writable a n = false →
            (Answers (.wallWrite p c) s fun t => quiet t ∧ answered 1 0 1 [] t ∧ recorded 1 1 false t)
            ∧ Answers (.wallFill p c) s fun t => quiet t ∧ answered 2 0 1 [] t ∧ recorded 2 1 false t))
    ∧ (m → own → s.up p = true → s.on F.PWR_STAT_MIDNIGHT = false →
        (∀ e, s.tileTag key.1 key.2 = some e → e.req ≠ 0 →
          (∀ i ∈ commands, Answers i.1 s fun t => quiet t ∧ answered (BitVec.ofNat 2 e.req) 0 e.status [] t)
          ∧ Answers (.probe p c) s fun t => quiet t ∧ answered (BitVec.ofNat 2 e.req) 0 e.status [] t)
        ∧ (s.tileTag key.1 key.2 = none → Answers (.probe p c) s fun t =>
            quiet t ∧ answered 3 0 5 [] t ∧ key ∈ t.lnk.refusedTags)
        ∧ (s.tileTag key.1 key.2 = none → key ∈ s.lnk.refusedTags → ∀ i ∈ commands, Answers i.1 s fun t =>
            quiet t ∧ (t.port p).vc2 = (s.port p).vc2))

/-- R183, R175, R173, R186, R191: at a sender's chain port a higher ANNOUNCE raises the epoch of the chain, with EVOUT and
OUTRANKED, and silences the end; a GACK sets its position's bit of GENDONE or GENMISS in every armed entry it matches,
and is dropped and counted without one; a REPORT sets EVBREAK, and one of the last tile gives the number of tiles; a
response that matches no tag counts in LNK.STALE, and one that matches frees its tag and gives the host its response; a
tag whose timeout passes is probed once, and again while it is probing. -/
def Obligations.SendersTakeCellsAndProbeTags : Prop :=
  ∀ (s : State) (p : Fin 8) (ann : AnnounceCell) (gack : GackCell) (rep : ReportCell) (res : ResponseCell) (tag : BitVec 12),
    s.isTile = false → s.paired = false →
    let port : Fin 9 := ⟨p.val, by omega⟩
    let c := s.chainOf p
    let own := s.rd (.LNK_EPOCH c)
    let waits (i : Instr) : Prop := Answers i s (· = s)
    let higher := own.toNat < ann.epoch.toNat ∨ (ann.epoch = own ∧ own ≠ 0 ∧ ann.devid.toNat < s.devid.toNat)
    let joins := s.isBEnd p = true ∧ s.split c = true ∧ ann.fromB = false ∧ own.toNat ≤ ann.epoch.toNat
    let links (t : State) : Prop := t = { s with regs := t.regs, lnk := { s.lnk with ports := t.lnk.ports } }
    let returned (t : State) : Prop := PortsKept [p.val] s t ∧ ∃ n, t.port p = { s.port p with return1 := (s.port p).return1 + n }
    let armed (e : Fin 16) : Prop := s.on (F.LNK_GENKEY_ARM c e) = true
      ∧ s.get (F.LNK_GENKEY_HANDLE c e) = gack.handle.toNat ∧ s.get (F.LNK_GENKEY_GEN c e) = gack.gen.toNat
    let j := gack.position.toNat / 32
    let b := gack.position.toNat % 32
    let matched (x : SendTag) : Prop := x.chain = c ∧ x.tag = res.tag.toNat ∧ x.tgen = res.tgen.toNat
    let idle := ∀ (n : Fin 5) (i : Fin 16), s.transfer n i = none
    let seen (e : BitVec 32) (t : State) : Prop := t.rd (.LNK_EPOCH c) = if own.toNat < e.toNat then e else own
    let epoch := (Reg.LNK_EPOCH c).whole
    waits (.announce port ann)
    ∧ (joins → Answers (.announceAtSender port ann) s fun t =>
        t.on (F.LNK_RING_SPLIT c) = false ∧ t.mem = s.mem ∧ t.cores = s.cores)
    ∧ (higher → ¬ joins → Answers (.announceAtSender port ann) s fun t =>
        Changes [(Reg.LNK_EPOCH c).whole, F.LNK_PSTAT_EVOUT p, F.LNK_PSTAT_OUTRANKED p] [180 + 2 * p.val]
          { s with lnk := { s.lnk with ports := t.lnk.ports } } t
        ∧ t.rd (.LNK_EPOCH c) = ann.epoch ∧ t.on (F.LNK_PSTAT_OUTRANKED p) = true ∧ t.on (F.LNK_PSTAT_EVOUT p) = true
        ∧ PortsKept [p.val] s t ∧ (t.port p).announcing = false)
    ∧ (¬ higher → ¬ joins → Answers (.announceAtSender port ann) s fun t => links t ∧ returned t ∧ t.regs = s.regs)
    ∧ ((∀ e, ¬ armed e) → gack.epoch.toNat ≤ own.toNat → Answers (.gack port gack) s (CellDropped p s))
    ∧ ((∀ e, ¬ armed e) → own.toNat < gack.epoch.toNat → Answers (.gack port gack) s fun t =>
        seen gack.epoch t ∧ CellDropped p (s.wr (.LNK_EPOCH c) gack.epoch) t)
    ∧ ((∃ e, armed e) → Answers (.gack port gack) s fun t =>
        links t ∧ returned t ∧ seen gack.epoch t
        ∧ (∀ e, armed e → t.on ⟨.LNK_GENDONE c e j, b, 1⟩ = decide (gack.missing = 0)
            ∧ t.on ⟨.LNK_GENMISS c e j, b, 1⟩ = decide (gack.missing ≠ 0))
        ∧ Changes (epoch :: (List.range 16).flatMap fun e =>
            [⟨.LNK_GENDONE c e j, b, 1⟩, ⟨.LNK_GENMISS c e j, b, 1⟩]) [] { s with lnk := t.lnk } t)
    ∧ (rep.reason = 1 → rep.towardB = false → Answers (.report port rep) s fun t =>
        Changes [epoch, F.LNK_PSTAT_EVBREAK p, F.LNK_PSTAT_TILES c] [180 + 2 * p.val] { s with lnk := t.lnk } t
        ∧ t.on (F.LNK_PSTAT_EVBREAK p) = true ∧ t.get (F.LNK_PSTAT_TILES c) = rep.position.toNat + 1 ∧ returned t
        ∧ seen rep.epoch t)
    ∧ ((rep.reason ≠ 0 ∨ s.ringPort p = false) → (rep.reason ≠ 1 ∨ rep.towardB = true) → Answers (.report port rep) s fun t =>
        Changes [epoch, F.LNK_PSTAT_EVBREAK p] [180 + 2 * p.val] { s with lnk := t.lnk } t
        ∧ t.on (F.LNK_PSTAT_EVBREAK p) = true ∧ returned t ∧ seen rep.epoch t)
    ∧ ((∀ x ∈ s.lnk.tags, ¬ matched x) → Answers (.wallResponse port res) s fun t =>
        Changes [F.LNK_STALE_COUNT p, F.LNK_PSTAT_EVTXN p] [181 + 2 * p.val]
          { s with lnk := { s.lnk with ports := t.lnk.ports } } t
        ∧ Counted (F.LNK_STALE_COUNT p) 1 s t)
    ∧ (idle → ∀ x y, s.lnk.tags.find? (fun e => e.chain == c && e.tag == res.tag.toNat && e.tgen == res.tgen.toNat) = some x →
        x.owner = .relay .qspi → y.who = .qspi → y.peer = none →
        s.hst.inFlight.find? (fun z => whoCarrier z.who == some Carrier.qspi && (txnHead z.bytes).tag == x.hostTag) = some y →
        Answers (.wallResponse port res) s fun t =>
          t.lnk.tags = s.lnk.tags.filter (fun e => !(e.chain == x.chain && e.tag == x.tag))
          ∧ t.hst.inFlight = s.hst.inFlight.erase y
          ∧ t.hst.responses = s.hst.responses ++ [responseBytes (txnHead y.bytes) res.status.toNat res.data]
          ∧ (res.status ≠ 0 → Counted (F.LNK_TXNERR_COUNT c) 1 s t) ∧ t.mem = s.mem ∧ t.cores = s.cores)
    ∧ (∀ x, s.lnk.tags.find? (fun e => e.chain == p.val && e.tag == tag.toNat) = some x →
        let probed (t : State) : Prop :=
          t = { s with lnk := t.lnk }
          ∧ (∀ e ∈ t.lnk.tags, e.chain = p.val → e.tag = tag.toNat → e.probing = true)
          ∧ (∀ e, (e.chain ≠ p.val ∨ e.tag ≠ tag.toNat) → (e ∈ t.lnk.tags ↔ e ∈ s.lnk.tags))
          ∧ (s.on F.PWR_STAT_MIDNIGHT = false → ∀ q, s.feedPort p x.position = some q → s.up q = true → q < 9 →
              (t.port q).vc2 = (s.port q).vc2 ++ [⟨(x.probe).units, none, false, none⟩])
        (x.probing = false → Answers (.txTimeout p tag) s probed ∧ waits (.probeRepeat p tag))
        ∧ (x.probing = true → Answers (.probeRepeat p tag) s probed ∧ waits (.txTimeout p tag)))
    ∧ ((∀ e ∈ s.lnk.tags, e.chain ≠ p.val ∨ e.tag ≠ tag.toNat) → waits (.txTimeout p tag) ∧ waits (.probeRepeat p tag))

/-- R193, R196, R199, R203 to R205, Table 7.8: a TIME cell of the master's epoch on a tile's master side with a known link
delay is a measurement and goes on with one hop more, its CORRECTION grown by the link delay and, as it is sent, by its
time in the tile; a ring's far end notes its epoch, elsewhere it is dropped and counted; an
invalid time is set, an offset beyond JUMPLIM is held as a step, any other is slewed over 1,024 ticks. LDREQ is answered
with its arrival, LDRSP gives a link delay or is discarded; ports send their TIME cells and LDREQs in turn. -/
def Obligations.TimeCellsSteerAndLinkDelaysAreKept : Prop :=
  ∀ (s : State) (p : Fin 9) (c : TimeCell) (r : LdRsp) (seq : BitVec 16) (age : BitVec 24),
    let pt := s.port p
    let q := 1 - p.val
    let waits (i : Instr) : Prop := Answers i s (· = s)
    let known := s.on (F.TIM_LDELAY_VALID p) = true
    let delay : Int := pt.ldMean + (s.rd (.TIM_ASYM p)).toInt
    let balls : Int := (s.now : Int) - s.portRxLat p
    let rx : Int := balls - age.toNat
    let o : Int := (wuOf c.sec.toNat c.ns.toNat c.frac.toNat : Nat) + c.corr.toInt + delay - rx
    let limit := min 1000000000 (max 100 (s.get F.TIM_JUMPLIM_NS)) * 65536
    let valid := s.on F.TIM_STAT_VALID
    let measured (t : State) : Prop :=
      t.get F.TIM_TCSTAT_HOPS = c.hops.toNat ∧ t.on F.TIM_TCSTAT_FROMB = c.fromB ∧ t.get F.TIM_TCSTAT_SEQ = c.seq.toNat
      ∧ (valid = false → t.tim.wall = ((s.tim.wall : Int) + o * 65536).toNat ∧ t.tim.slewLeft = 0
          ∧ (s.on F.CLK_STAT_COAST = false → t.on F.TIM_STAT_VALID = true) ∧ Counted F.TIM_TCCNT_COUNT 1 s t)
      ∧ (valid = true → limit < o.natAbs → t.tim.wall = s.tim.wall ∧ t.tim.held = o
          ∧ t.on F.TIM_STAT_STEPPEND = true ∧ t.tim.slew = s.tim.slew ∧ t.tim.slewLeft = s.tim.slewLeft)
      ∧ (valid = true → o.natAbs ≤ limit → t.tim.wall = s.tim.wall ∧ t.tim.slew = o * 64 ∧ t.tim.slewLeft = 1024
          ∧ t.on F.TIM_STAT_STEPPEND = false ∧ t.on F.TIM_STAT_HOLD = false ∧ Counted F.TIM_TCCNT_COUNT 1 s t)
      ∧ t.mem = s.mem ∧ t.cores = s.cores ∧ t.nvj = s.nvj
    let sent (t : State) : Prop := s.up q = true → (t.port q).vc0 = (s.port q).vc0 ++ [.forward
      { c with hops := c.hops + 1, corr := BitVec.ofInt 64 (c.corr.toInt + delay) } rx]
    let ring := (Reg.LNK_EPOCH (s.chainOf p)).whole
    let ports (t : State) : Prop := t = { s with lnk := { s.lnk with ports := t.lnk.ports } } ∧ PortsKept [p.val] s t
    let span : Int := ldSpan r
    let d (t1 : Nat) : Int := Int.fdiv (balls - t1 - span) 2
    let queued := s.up p = true ∧ s.on F.PWR_STAT_MIDNIGHT = false
    let timed (e : BitVec 32) (b : Bool) : Prop := queued → valid = true → Answers (.timeCellSend p) s fun t =>
      ports t ∧ t.port p = { pt with timeSeq := pt.timeSeq + 1, vc0 := pt.vc0 ++ [.time e b pt.timeSeq] }
    (s.isTile = true → s.onMaster p = false → Answers (.timeCell p c age) s (CellDropped p s))
    ∧ (s.isTile = true → s.onMaster p = true → ¬ known → waits (.timeCell p c age))
    ∧ (s.isTile = true → p.val < 2 → s.onMaster p = true → known → c.epoch = s.masterEpoch →
        Answers (.timeCell p c age) s fun t => measured t ∧ sent t)
    ∧ (s.isTile = true → p.val < 2 → s.onMaster p = true → known → c.epoch ≠ s.masterEpoch →
        Answers (.timeCell p c age) s fun t => sent t ∧ t = { s with lnk := { s.lnk with ports := t.lnk.ports } })
    ∧ (∀ (x : Nat) (k : TimeCell), Vc0Item.units x (.forward k rx)
        = (Cell.time { k with corr := BitVec.ofInt 64 (k.corr.toInt + (x - rx)) }).units)
    ∧ (s.isTile = false → p.val < 8 → s.ringPort p = true → Answers (.timeCell p c age) s
        (Sets [(ring, max (s.get ring) c.epoch.toNat)] [] s))
    ∧ (s.isTile = false → p.val < 8 → s.ringPort p = false → Answers (.timeCell p c age) s (CellDropped p s))
    ∧ (s.isTile = false → p.val = 8 →
        let taken := s.get F.TIM_CFG_SRC = 3 ∧ s.role = 2 ∧ c.epoch = s.mir.partnerEpoch ∧ known
        (taken → Answers (.timeCell p c age) s measured) ∧ (¬ taken → waits (.timeCell p c age)))
    ∧ (queued → Answers (.ldreq p seq) s fun t =>
        ports t ∧ t.port p = { pt with vc0 := pt.vc0 ++ [.ldrsp seq balls.toNat] })
    ∧ (¬ queued → waits (.ldreq p seq))
    ∧ ((∀ t1, pt.ldPending ≠ some (r.seq, t1)) → waits (.ldrsp p r))
    ∧ (∀ t1, pt.ldPending = some (r.seq, t1) →
        ((d t1 < 0 ∨ 6553600000 < d t1) → Answers (.ldrsp p r) s fun t =>
          Changes [⟨.TIM_EV, 10, 1⟩] [222] { s with lnk := { s.lnk with ports := t.lnk.ports } } t
          ∧ t.port p = { pt with ldPending := none } ∧ PortsKept [p.val] s t)
        ∧ (0 ≤ d t1 → d t1 ≤ 6553600000 →
            let mean := if pt.ldKept = 0 then d t1 else pt.ldMean + Int.fdiv (d t1 - pt.ldMean) 16
            Answers (.ldrsp p r) s fun t =>
              Changes [F.TIM_LDELAY_DELAY p, F.TIM_LDELAY_VALID p, F.TIM_LDCNT_COUNT p] []
                { s with lnk := { s.lnk with ports := t.lnk.ports } } t
              ∧ t.port p = { pt with ldPending := none, ldMean := mean, ldKept := pt.ldKept + 1 } ∧ PortsKept [p.val] s t
              ∧ t.get (F.TIM_LDELAY_DELAY p) = (Int.fdiv mean 256).toNat % 2 ^ 31
              ∧ (15 ≤ pt.ldKept → t.on (F.TIM_LDELAY_VALID p) = true) ∧ Counted (F.TIM_LDCNT_COUNT p) 1 s t))
    ∧ (s.isTile = false → p.val < 8 → pt.announcing = true → s.silent p = false → timed pt.annEpoch (s.isBEnd p))
    ∧ (s.isTile = false → p.val = 8 → s.paired = true → s.role = 1 → timed (s.rd .MIR_PEPOCH) false)
    ∧ ((s.isTile = true ∨ s.up p = false ∨ valid = false) → waits (.timeCellSend p))
    ∧ (queued → Answers (.ldreqSend p) s fun t =>
        ports t ∧ t.port p = { pt with ldSeq := pt.ldSeq + 1, vc0 := pt.vc0 ++ [.ldreq pt.ldSeq] })
    ∧ (s.up p = false → waits (.ldreqSend p))

/-- R174, R262 to R264, R168: at a tile's master side a run of a generation the handle does not hold opens a slot for it,
and a block of the window that passes its check and was not present is stored and marked present; a generation end
makes a FILLING generation COMPLETE, answers with GACK and goes on; off the master side both are dropped and counted; the
far end of a ring consumes a run. -/
def Obligations.PictureRunsAreStoredAndAcknowledged : Prop :=
  ∀ (s : State) (p : Fin 9) (handle : BitVec 12) (gen : BitVec 16) (block : BitVec 19) (units : List (BitVec 64)),
    let h := handle.toNat
    let g := gen.toNat
    let m := s.isTile = true ∧ p.val < 2 ∧ s.onMaster p = true
    let q := 1 - p.val
    let run := Instr.pictureRun p handle gen block units
    let mark := Instr.generationEnd p handle gen
    let links (t : State) : Prop := t = { s with lnk := { s.lnk with ports := t.lnk.ports } }
    let sentOn (x : Vc3Item) (t : State) : Prop := s.up q = true → (t.port q).vc3 = (s.port q).vc3 ++ [x]
    let gack (n : Nat) (t : State) : Prop := s.up p = true → s.on F.PWR_STAT_MIDNIGHT = false →
      (t.port p).vc1 = (s.port p).vc1 ++ [⟨(Cell.gack ⟨BitVec.ofNat 7 (s.get F.LNK_POS_POSITION), s.masterEpoch, handle, gen,
        BitVec.ofNat 32 n⟩).units, none, false, none⟩]
    (s.isTile = true → s.onMaster p = false → Answers mark s (CellDropped p s) ∧ Answers run s (CellDropped p s))
    ∧ (m → s.handle h = none →
        (Answers run s fun t => links t ∧ sentOn (.run h g block.toNat units false (some p.val) (granules units.length)) t)
        ∧ (Answers mark s fun t => links t ∧ gack 0 t ∧ sentOn (.genEnd h g (some p.val) none) t))
    ∧ (m → ∀ x j, s.handle h = some x → x.find g = some j →
        let st := (x.slots.getD j Slot.empty).st
        let n := blockBytes x.fmt / 8
        (x.retracted ≠ some g → st ≠ 5 → Answers mark s fun t =>
          gack (s.missingBlocks x j) t ∧ sentOn (.genEnd h g (some p.val) none) t ∧ t.mem = s.mem ∧ t.cores = s.cores
          ∧ (st ≠ 1 → links t)
          ∧ (st = 1 → x.reclaim = false → ∃ y, t.handle h = some y
              ∧ y.slots.getD j Slot.empty = { x.slots.getD j Slot.empty with st := 3 }))
        ∧ (∀ i, Memory.wf s.mem = true → s.poison = [] → s.soft = [] → 0 < n → units.length = n →
            x.retracted = none → x.windowIndex block.toNat = some i → (st = 1 ∨ st = 3) → s.present x j i = false → 6 > x.fmt →
            compressedPasses x.fmt (unitsToBytes units) = true →
            s.inMemory (x.blockAddr j i) (8 * n) = true → s.inMemory (x.mapAddr j + i / 8) 1 = true →
            s.touchesFailed (x.blockAddr j i) (8 * n) = false → s.touchesFailed (x.mapAddr j + i / 8) 1 = false →
            x.blockAddr j i + 8 * n ≤ x.mapAddr j →
            Answers run s fun t =>
              (∀ y, t.byte y =
                if x.blockAddr j i ≤ y ∧ y < x.blockAddr j i + 8 * n then (unitsToBytes units).getD (y - x.blockAddr j i) 0
                else if y = x.mapAddr j + i / 8 then s.byte y ||| (1#8 <<< (i % 8)) else s.byte y)
              ∧ WordsKept [4, 6, 12, 14] s t ∧ t.srf = s.srf ∧ t.cores = s.cores
              ∧ (∀ r : Reg, r.unit = 6 → r ≠ .SRF_OCCPEND → r ≠ .SRF_OCCPEAK → t.rd r = s.rd r)
              ∧ sentOn (.run h g block.toNat units false (some p.val) (granules units.length)) t))
    ∧ (m → ∀ x, s.handle h = some x → x.find g = none → x.retracted = none → x.used = none → g ∉ x.noslot →
        ∀ j, x.slots.findIdx? (fun e => decide (e.st = 0)) = some j →
        Answers run s fun t => ∃ y, t.handle h = some y ∧ y.find g = some j
          ∧ (y.slots.getD j Slot.empty).st = 1 ∧ t.cores = s.cores ∧ t.nvj = s.nvj)
    ∧ (s.isTile = false → p.val < 8 → s.ringPort p = true → s.silent p = false →
        (Answers run s fun t => links t ∧ PortsKept [p.val] s t
          ∧ (t.port p).return3 = (s.port p).return3 + granules units.length) ∧ Answers mark s (· = s))

/-- R175, R186, R192: an ANNOUNCE request announces the chain's epoch on its end and goes on announcing, again at every
repeat; LNK.EPOCH takes no lower value; a write of LNK.GENKEY sets the entry and clears its GENDONE and GENMISS;
LNK.CFG is ignored while a chain port is not down. -/
def Obligations.LinkWordsAnnounceAndArm : Prop :=
  ∀ (s : State) (c : Fin 8) (e : Fin 16) (value : Word),
    let p : Fin 9 := ⟨c.val, by omega⟩
    let waits (i : Instr) : Prop := Answers i s (· = s)
    let ann (q : Nat) (epoch : Word) : QCell := ⟨(Cell.announce ⟨s.isBEnd q, epoch, s.devid⟩).units, none, false, none⟩
    let announced (q : Nat) (t : State) : Prop :=
      let epoch := s.rd (.LNK_EPOCH (s.chainOf q))
      (t.port q).announcing = true ∧ (t.port q).annEpoch = epoch ∧ PortsKept [q] s t
      ∧ ((s.endEpoch q).toNat < epoch.toNat → t.on (F.LNK_PSTAT_OUTRANKED q) = false)
      ∧ (s.up q = true → s.on F.PWR_STAT_MIDNIGHT = false → s.silent q = false →
          (t.port q).vc1 = (s.port q).vc1 ++ [ann q epoch])
      ∧ Changes [F.LNK_PSTAT_OUTRANKED q] [] { s with lnk := { s.lnk with ports := t.lnk.ports } } t
    (∀ q, s.isTile = false → s.chainValid c = true → s.aPort c = some q → Answers (.announceAend c) s (announced q))
    ∧ (∀ q, q < 8 → s.isTile = false → s.chainValid c = true → s.bPort c = some q →
        Answers (.announceBend c) s (announced q))
    ∧ ((s.isTile = true ∨ s.chainValid c = false) → waits (.announceAend c) ∧ waits (.announceBend c))
    ∧ (s.isTile = false → (s.port p).announcing = true → s.up p = true → s.on F.PWR_STAT_MIDNIGHT = false → s.silent p = false →
        Answers (.announceRepeat p) s fun t =>
          t = { s with lnk := { s.lnk with ports := t.lnk.ports } } ∧ PortsKept [p.val] s t
          ∧ t.port p = { s.port p with vc1 := (s.port p).vc1 ++ [ann p (s.endEpoch p)] })
    ∧ ((s.isTile = true ∨ (s.port p).announcing = false ∨ s.up p = false) → waits (.announceRepeat p))
    ∧ (s.isTile = false → (s.rd (.LNK_EPOCH c)).toNat ≤ value.toNat →
        Answers (.epochWrite c value) s (Sets [((Reg.LNK_EPOCH c).whole, value.toNat)] [] s))
    ∧ ((s.isTile = true ∨ value.toNat < (s.rd (.LNK_EPOCH c)).toNat) → waits (.epochWrite c value))
    ∧ (s.isTile = false → Answers (.genkeyWrite c e value) s (Sets
        (((Reg.LNK_GENKEY c e).whole, (value &&& 0x8FFFFFFF).toNat)
          :: (List.range 4).flatMap fun j => [((Reg.LNK_GENDONE c e j).whole, 0), ((Reg.LNK_GENMISS c e j).whole, 0)]) [] s))
    ∧ (s.isTile = true → waits (.genkeyWrite c e value))
    ∧ ((∀ i, i < 8 → s.get (F.LNK_PSTAT_STATE i) = 0) → Answers (.lnkCfgWrite value) s fun t =>
        t.rd .LNK_CFG = value &&& 0x7F ∧ t.mem = s.mem ∧ t.cores = s.cores)
    ∧ ((∃ i, i < 8 ∧ s.get (F.LNK_PSTAT_STATE i) ≠ 0) → waits (.lnkCfgWrite value))

/-! ### Wall time and launches -/

/-- R193, R197 to R199, R213, R215, R216, R529, Tables 8.2, 8.8: ticks advance the timekeeper, with the fractions that
make five ticks 32 ns; HOLD after its time without a measurement and its limit, a written source and a free-running start
change VALID, HOLD and LOCKED with their events; an edge of the chosen kind, 20 ns after the one before, is captured with
its time on the 160 ps grid, or lost while a capture is held; an output that its mode lets becomes active at the edge next
to a reference instant plus its offset and returns after its width (log entry 75); a pending frame period is armed;
TIM.SNAP copies the time. -/
def Obligations.TimekeeperCountsHoldsAndCaptures : Prop :=
  ∀ (s : State) (k : Nat) (src : BitVec 2) (v : Word) (i : Fin 4) (rise : Bool) (sub : Fin 40),
    let waits (c : Instr) : Prop := Answers c s (· = s)
    let valid := s.on F.TIM_STAT_VALID
    let hold := s.on F.TIM_STAT_HOLD
    let locked := s.on F.TIM_STAT_LOCKED
    let rate : Int := max (-13743895) (min 13743895 (s.rd .TIM_RATE).toInt)
    let m := min k s.tim.slewLeft
    let ev (b : Nat) : Fld := ⟨.TIM_EV, b, 1⟩
    let status := [F.TIM_STAT_VALID, F.TIM_STAT_HOLD, F.TIM_STAT_LOCKED, ev 0, ev 1, ev 4]
    let lost : List Nat := 212 :: ((if hold then [216] else []) ++ (if locked then [213] else []))
    let cleared : TimState := { s.tim with offsets := [] }
    let fell (t : State) : Prop := t.tim = cleared
      ∧ t.on F.TIM_STAT_VALID = false ∧ t.on F.TIM_STAT_HOLD = false ∧ t.on F.TIM_STAT_LOCKED = false
    let e := s.get (F.TIM_CAPCFG_EDGE i)
    let chosen := e = 3 ∨ (e = 1 ∧ rise = true) ∨ (e = 2 ∧ rise = false)
    let now := s.now
    let ticks := s.tim.ticks
    let without := if s.get F.TIM_CFG_SRC = 1 then 156250000 else max 16 (s.get F.TIM_TCPER_US) * 625
    let silent := s.tim.lastMeasure + without ≤ ticks
    let most := s.get F.TIM_HOLDMAX_SEC
    let spent := most ≠ 0 ∧ s.tim.holdSince + most * 156250000 ≤ ticks
    let next := (s.tim.wall : Int) + 6 * 4294967296 + 0x66666666 + 2 * ((s.tim.phase + 1) / 5 : Nat) + rate
      + (min 1 s.tim.slewLeft : Nat) * s.tim.slew
    let edge := ticks * 40 + sub.val
    let apart := ∀ b, s.tim.edges[i] = some b → b + 125 ≤ edge
    let caught : State := { s with tim := { s.tim with edges := s.tim.edges.set i (some edge) } }
    let taken := (s.tim.wall + sub.val * (next.toNat - s.tim.wall) / 40) / 65536
    let pulse := s.tim.pulses[i]
    let put (x : Pulse) (t : State) : Prop := t = { s with tim := { s.tim with pulses := s.tim.pulses.set i x } }
    let width := s.get (F.TIM_PULWID_WIDTH i)
    ((∀ v d, s.codec = some (v, d) → ticks + k < d) → Answers (.timeTick k) s (fun t =>
      t.tim = { s.tim with
        wall := ((s.tim.wall : Int) + k * (6 * 4294967296 + 0x66666666) + 2 * ((s.tim.phase + k) / 5 : Nat) + k * rate
          + m * s.tim.slew).toNat
        phase := (s.tim.phase + k) % 5, ticks := s.tim.ticks + k, slewLeft := s.tim.slewLeft - m }
      ∧ (s.tim.phase < 5 → k = 5 → rate = 0 → m = 0 → t.tim.wall = s.tim.wall + 32 * 4294967296)
      ∧ Changes [(Reg.SCN_DARKUS).whole, F.CLK_DSTAT_GATED 1, F.CLK_DSTAT_GATED 2] []
          { s with tim := t.tim, scn := { s.scn with darkTicks := t.scn.darkTicks } } t
      ∧ t.scn.darkTicks = s.scn.darkTicks + (if s.isTile ∧ s.on F.SCN_STAT_DARK then k else 0)))
    ∧ (valid = true → s.get F.TIM_CFG_SRC ≠ 0 → hold = false → silent → Answers .holdOnset s fun t =>
        Changes [F.TIM_STAT_HOLD, F.TIM_STAT_LOCKED, ev 4, ev 1] (216 :: if locked then [213] else [])
          { s with tim := { s.tim with holdSince := ticks } } t
        ∧ t.on F.TIM_STAT_HOLD = true ∧ t.on F.TIM_STAT_LOCKED = false ∧ t.on (ev 4) = true)
    ∧ ((valid = false ∨ s.get F.TIM_CFG_SRC = 0 ∨ hold = true ∨ ¬ silent) → waits .holdOnset)
    ∧ (valid = true → hold = true → spent → Answers .holdmaxExpiry s fun t =>
        fell t ∧ t.on (ev 0) = true ∧ WordsKept [3, 9, 12] s t ∧ t.mem = s.mem ∧ t.cores = s.cores ∧ t.lnk = s.lnk
        ∧ (s.isTile = false → Changes status lost { s with tim := t.tim } t)
        ∧ (s.isTile = true → t.scn.timeHold = true))
    ∧ ((hold = false ∨ ¬ spent) → waits .holdmaxExpiry)
    ∧ (s.isTile = true → waits (.timSrcWrite src))
    ∧ (s.isTile = false → src.toNat = s.get F.TIM_CFG_SRC → Answers (.timSrcWrite src) s (Sets [(ev 5, 1)] [217] s))
    ∧ (s.isTile = false → src.toNat ≠ s.get F.TIM_CFG_SRC → Answers (.timSrcWrite src) s fun t =>
        t.get F.TIM_CFG_SRC = src.toNat ∧ t.on F.TIM_STAT_VALID = false ∧ t.on (ev 5) = true
        ∧ (valid = true → fell t)
        ∧ Changes (F.TIM_CFG_SRC :: ev 5 :: status) (217 :: if valid then lost else [])
            { s with tim := if valid then cleared else s.tim } t)
    ∧ ((valid = true ∨ s.get F.TIM_CFG_SRC ≠ 0 ∨ s.on F.CLK_STAT_COAST = true) → waits .timFree)
    ∧ (valid = false → s.get F.TIM_CFG_SRC = 0 → s.on F.CLK_STAT_COAST = false → Answers .timFree s fun t =>
        t.on F.TIM_STAT_VALID = true ∧ t.on (ev 0) = true
        ∧ Changes [F.TIM_STAT_VALID, F.TIM_STAT_LOCKED, ev 0, ev 1]
            (212 :: if t.on F.TIM_STAT_LOCKED = locked then [] else [213]) s t)
    ∧ ((¬ chosen ∨ ¬ apart) → Answers (.captureEdge i ⟨rise, sub⟩) s (· = caught))
    ∧ (chosen → apart → s.on (F.TIM_CAPFR_FULL i) = true →
        Answers (.captureEdge i ⟨rise, sub⟩) s (Sets [(F.TIM_CAPFR_OVERRUN i, 1)] [] caught))
    ∧ (chosen → apart → s.on (F.TIM_CAPFR_FULL i) = false → Answers (.captureEdge i ⟨rise, sub⟩) s (Sets
        [((Reg.TIM_CAPSEC i).whole, wuSec taken % 2 ^ 32), (F.TIM_CAPNS_NS i, wuNs taken),
          (F.TIM_CAPFR_FRAC i, wuFrac taken), (F.TIM_CAPFR_FULL i, 1), (F.TIM_CAPFR_RISE i, b2n rise),
          (F.TIM_CAPFR_INVALID i, b2n (!valid)), (ev (6 + i), 1)]
        [218 + i.val] caught))
    ∧ (∀ e, pulse.ends = some e →
        (e < ticks * 40 + 40 → Answers (.pulseEdge i) s (put ⟨none, pulse.next⟩))
        ∧ (ticks * 40 + 40 ≤ e → waits (.pulseEdge i)))
    ∧ (pulse.ends = none →
        (∀ e, s.pulseStart i = some e → s.pulseAllowed i = true → Answers (.pulseEdge i) s (put ⟨some (e + width), e + 1⟩))
        ∧ ((s.pulseStart i = none ∨ s.pulseAllowed i = false) → waits (.pulseEdge i))
        ∧ (∀ sec : Nat, s.get (F.TIM_PULCFG_MODE i) = 1 → s.get (F.TIM_PULOFF_OFFSET i) = 0 → valid = true → 0 < width →
            width * 160 < 10 ^ 12 → s.tim.wall ≤ sec * 10 ^ 9 * 2 ^ 32 → (sec * 10 ^ 9 * 2 ^ 32 : Nat) < next →
            next ≤ (sec + 1) * 10 ^ 9 * 2 ^ 32 →
            let span := next.toNat - s.tim.wall
            let e := ticks * 40 + ((sec * 10 ^ 9 * 2 ^ 32 - s.tim.wall) * 80 + span) / (2 * span)
            pulse.next ≤ e → Answers (.pulseEdge i) s (put ⟨some (e + width), e + 1⟩)))
    ∧ (s.isTile = true → Answers (.fpercidWrite v) s fun t =>
        Sets [((Reg.TIM_FPERCID).whole, v.toNat), (F.TIM_STAT_FPERPEND, 1)] []
          { s with tim := { s.tim with armedFper := some v } } t)
    ∧ (s.isTile = false → waits (.fpercidWrite v))
    ∧ Answers .snap s (Sets
        [((Reg.TIM_SNAPSH).whole, wuSec now / 2 ^ 32 % 2 ^ 32), ((Reg.TIM_SNAPSL).whole, wuSec now % 2 ^ 32),
          ((Reg.TIM_SNAPNS).whole, wuNs now), (F.TIM_SNAPFR_FRAC, wuFrac now), (F.TIM_SNAPFR_INVALID, b2n (!valid))] [] s)

/-- R207 to R210, R393, Table 8.4: a write of TIM.LQPUSH copies a good descriptor to the end of its queue, sets EVBAD for a
bad one and EVFULL for a full queue; the first entry not started starts once its time has come: its cells, with the end's
epoch, go to VC1, its runs and its end marker to VC3, and it counts as late by more than a microsecond; on a port that is
down it is dropped and counted, and bad content is discarded; an outranked end starts none, unless its queue is silent; a
flush discards what has not started. -/
def Obligations.LaunchQueuesTakeAndStartEntries : Prop :=
  ∀ (s : State) (p : Fin 8) (value : Word),
    let waits (c : Instr) : Prop := Answers c s (· = s)
    let q := s.queue p
    let read := (s.loadData (0xE100000000 + getBits value 5 16 * 32) 32).bind (launchEntry s.tim.nextEntry s.now)
    let push := Instr.lqPush p value
    let first := q.find? fun e => !e.started
    let silent := s.silent p = true
    let may (e : LaunchEntry) : Prop := s.on F.TIM_STAT_VALID = true ∧ e.time ≤ s.now
      ∧ (s.on (F.LNK_PSTAT_OUTRANKED p) = false ∨ silent) ∧ s.on F.PWR_STAT_MIDNIGHT = false
    let late (e : LaunchEntry) : Prop := e.time + 65536000 < s.now
    let without (e : LaunchEntry) : List LaunchEntry := q.filter fun x => x.id != e.id
    let began (e : LaunchEntry) : List LaunchEntry := q.map fun x => if x.id = e.id then { x with started := true } else x
    let queued (l : List LaunchEntry) (t : State) : Prop :=
      t.tim = { s.tim with queues := s.tim.queues.set p l } ∧ t.get (F.TIM_LQSTAT_ENTRIES p) = l.length % 128
    let flags := [F.TIM_LQSTAT_ENTRIES p, F.TIM_LQCNT_LATE p, F.TIM_LQSTAT_EVLATE p]
    let lateness (e : LaunchEntry) (t : State) : Prop :=
      (late e → Counted (F.TIM_LQCNT_LATE p) 1 s t ∧ t.on (F.TIM_LQSTAT_EVLATE p) = true)
      ∧ (¬ late e → t.get (F.TIM_LQCNT_LATE p) = s.get (F.TIM_LQCNT_LATE p)
          ∧ t.on (F.TIM_LQSTAT_EVLATE p) = s.on (F.TIM_LQSTAT_EVLATE p))
    let started (e : LaunchEntry) (t : State) : Prop := queued (began e) t ∧ lateness e t ∧ PortsKept [p.val] s t
      ∧ (late e → Changes flags [223 + p.val] { s with tim := t.tim, lnk := t.lnk } t)
      ∧ (¬ late e → Changes flags [] { s with tim := t.tim, lnk := t.lnk } t)
    let bad (e : LaunchEntry) : Prop := Answers (.launchEntryStart p) s fun t =>
      queued (without e) t ∧ lateness e t ∧ t.on (F.TIM_LQSTAT_EVBAD p) = true
      ∧ Changes (F.TIM_LQSTAT_EVBAD p :: flags) [223 + p.val] { s with tim := t.tim } t
    let cellsOf (e : LaunchEntry) : Option (List Cell) :=
      match (s.load e.src e.len).1 with
      | .ok l => launchCells l
      | _ => none
    (s.isTile = true → waits push)
    ∧ (s.isTile = false → 64 ≤ q.length → Answers push s (Sets [(F.TIM_LQSTAT_EVFULL p, 1)] [223 + p.val] s))
    ∧ (s.isTile = false → q.length < 64 → read = none →
        Answers push s (Sets [(F.TIM_LQSTAT_EVBAD p, 1)] [223 + p.val] s))
    ∧ (s.isTile = false → q.length < 64 → ∀ e, read = some e → Answers push s fun t =>
        t.tim = { s.tim with queues := s.tim.queues.set p (q ++ [e]), nextEntry := s.tim.nextEntry + 1 }
        ∧ Sets [(F.TIM_LQSTAT_ENTRIES p, q.length + 1)] [] { s with tim := t.tim } t)
    ∧ (first = none → waits (.launchEntryStart p))
    ∧ (∀ e, first = some e → ¬ may e → waits (.launchEntryStart p))
    ∧ (∀ e, first = some e → may e → s.up p = false → Answers (.launchEntryStart p) s fun t =>
        queued (without e) t ∧ Counted (F.TIM_LQCNT_DROP p) 1 s t ∧ t.on (F.TIM_LQSTAT_EVDROP p) = true
        ∧ Changes [F.TIM_LQSTAT_ENTRIES p, F.TIM_LQCNT_DROP p, F.TIM_LQSTAT_EVDROP p] [223 + p.val]
            { s with tim := t.tim } t)
    ∧ (∀ e, first = some e → may e → s.up p = true → e.kind = 0 →
        (cellsOf e = none → bad e)
        ∧ (∀ cs, cellsOf e = some cs → ¬ silent → Answers (.launchEntryStart p) s fun t => started e t
            ∧ t.port p = { s.port p with
              vc1 := (s.port p).vc1 ++ cs.map fun c => ⟨(c.withEpoch (s.endEpoch p)).units, none, false, some e.id⟩ })
        ∧ (∀ cs, cellsOf e = some cs → silent → Answers (.launchEntryStart p) s fun t =>
            t.lnk = s.lnk ∧ t.mem = s.mem ∧ t.cores = s.cores ∧ lateness e t))
    ∧ (∀ e, first = some e → may e → s.up p = true → e.kind ≠ 0 →
        (s.launchVc3 e = none → bad e)
        ∧ (∀ items, s.launchVc3 e = some items → Answers (.launchEntryStart p) s fun t => started e t
            ∧ t.port p = { s.port p with vc3 := (s.port p).vc3 ++ items }))
    ∧ Answers (.launchFlush p) s (fun t =>
        queued (q.filter (·.started)) t ∧ Changes [F.TIM_LQSTAT_ENTRIES p] [] { s with tim := t.tim } t)

/-! ### Hosts -/

/-- R23 to R25, R27, R29, R30, R32, R35 to R38, R45, R386, R441, R487, R555, R556, R559: the checks of a host transaction in
their order. One that QSPI cannot take is ignored or counted; one that cannot start, or whose response does not fit, waits
behind its carrier; one of a host that may not act is dropped and counted, unless its host held the lease as it arrived;
then FORMAT, NO_LEASE and, in RETIRED, ADDRESS_ERROR are answered, and nothing else changes; a relayed one is refused for its
chain or position, or goes out under a free tag of its chain, or waits for one. A waiting transaction starts once its
carrier is free. -/
def Obligations.HostTransactionsPassTheirChecksInOrder : Prop :=
  ∀ (s : State) (c : Instr) (who : Who) (bytes : List Byte) (k : Carrier), hostBytes c = some (who, bytes) →
    let h := txnHead bytes
    let busy := match whoCarrier who with
      | some k => decide (64 ≤ s.inProgress k)
      | none => false
    let own := s.arriving who bytes false
    let queued (t : State) : Prop :=
      t = { s with hst := { s.hst with waiting := s.hst.waiting ++ [s.arriving who bytes busy] } }
    let starts := s.starts who bytes
    let room (n : Nat) := s.fits who n
    let waits := Answers c s queued
    let answer (v : State) (st : Nat) : Prop :=
      (room 0 → Answers c s (· = v.answered own (responseBytes h st []))) ∧ (¬ room 0 → waits)
    let dropped := s.drops own
    let format := h.badFormat = true
    let lease := s.needsLease who h = true
    let retired := s.retiredRefuses h = true
    let chain := h.addr / 2 ^ 47
    let pos := h.addr / 2 ^ 40 % 128
    let relays := starts ∧ ¬ dropped ∧ ¬ format ∧ ¬ lease ∧ ¬ retired ∧ h.wall = true
    let goes := relays ∧ whoCarrier who = some k ∧ s.isTile = false ∧ s.chainValid chain = true
    (who = .qspi → s.qspiOpen = false → Answers c s (· = s))
    ∧ (who = .qspi → s.qspiOpen = true → 4096 < s.requestBytesHeld + bytes.length →
        Answers c s (Sets [(F.HST_SEQERR_COUNT, min (2 ^ 32 - 1) (s.get F.HST_SEQERR_COUNT + 1))] [] s))
    ∧ (s.takes who bytes → ¬ starts → whoCarrier who ≠ none → waits)
    ∧ (¬ starts → whoCarrier who = none → Answers c s (· = s))
    ∧ (starts → dropped → (who = .qspi → s.responseBytesHeld ≤ 4096) → Answers c s fun t =>
        Changes [F.HST_DROPCNT_COUNT] (if s.get F.HST_DROPCNT_COUNT = 0 then [478] else []) s t
        ∧ Counted F.HST_DROPCNT_COUNT 1 s t)
    ∧ (starts → ¬ dropped → format → answer s 4)
    ∧ (starts → ¬ dropped → ¬ format → lease → answer s 2)
    ∧ (starts → ¬ dropped → ¬ format → ¬ lease → retired → answer s 1)
    ∧ (relays → (s.isTile = true ∨ whoCarrier who = none ∨ s.chainValid chain = false) → answer s 1)
    ∧ (goes → ∀ st, s.wallRefusal chain pos = some st → answer (s.txnEnded chain st) st)
    ∧ (goes → s.wallRefusal chain pos = none → s.freeTag chain = none → waits)
    ∧ (goes → s.wallRefusal chain pos = none → ∀ tag, s.freeTag chain = some tag →
        (¬ room (if h.type = 1 then h.len else 0) → waits)
        ∧ (room (if h.type = 1 then h.len else 0) → Answers c s fun t =>
            t.lnk.tags = s.lnk.tags ++ [⟨chain, tag, (s.tagGen chain tag + 1) % 16, false, false, h.type - 1, pos,
              h.addr % 2 ^ 40, h.len / 4, h.tag, .relay k⟩]
            ∧ t.hst = { s.hst with inFlight := s.hst.inFlight ++ [own] } ∧ t.mem = s.mem ∧ t.cores = s.cores))
    ∧ (let next := s.hst.waiting.find? fun y => whoCarrier y.who == some k
      let free := s.on F.PWR_STAT_MIDNIGHT = false ∧ ∀ y ∈ s.hst.inFlight, whoCarrier y.who ≠ some k
      let start := Instr.transactionStart k
      let taken (y : HostTxn) : State := { s with hst := { s.hst with waiting := s.hst.waiting.erase y } }
      let held (y : HostTxn) : HostTxn := { y with held := y.held || s.isHolder y.who }
      ((¬ free ∨ next = none) → Answers start s (· = s))
      ∧ (free → ∀ y, next = some y →
          ((taken y).runTxn y = none → Answers start s (· = s))
          ∧ (∀ u, (taken y).runTxn y = some u →
              (s.claimWaits y = true ∨ s.responseFits u y = false → Answers start s (· = s))
              ∧ (s.claimWaits y = false → s.responseFits u y = true → Answers start s (· = u)))
          ∧ (y.peer = none → y.busy = true → s.claimWaits y = false → s.fits y.who 0 → ¬ s.drops (held y) →
              (txnHead y.bytes).badFormat = false →
              (s.needsLease y.who (txnHead y.bytes) = false ∨ s.accepted (held y) = true) →
              Answers start s (· = (taken y).answered (held y) (responseBytes (txnHead y.bytes) 3 [])))))

/-- R14 to R16, R22, R24, R26, R28, R31, R33, R34, R98, R525, R528, R529, Tables 2.1 to 2.4, 2.8, 2.9: what a host
transaction that passes its checks does and answers: reads and writes of memory, of device state words and of the read
windows, fills, doorbells, a granted or challenged CLAIM, a RESPONSE that proves its key or fails, RENEW, RELEASE and
STATUS. The nonce of a challenge is a free value. A write of one word follows its access codes. -/
def Obligations.HostTransactionsTakeEffect : Prop :=
  ∀ (s : State) (who : Who) (tag : BitVec 16) (len addr number : Nat) (data payload : List Byte) (pattern value : Word),
    s.memSound = true →
    let ans (c : Instr) (st : Nat) (l : List Byte) (P : State → Prop) : Prop :=
      ∀ b, hostBytes c = some (who, b) → s.serves who b l.length →
        Answers c s fun t => ∃ u, P u ∧ t = u.answered (s.arriving who b false) (responseBytes (txnHead b) st l)
    let same (u : State) : Prop := u = s
    let read := Instr.hostRead who tag false len addr
    let write := Instr.hostWrite who tag false addr data
    let fill := Instr.hostFill who tag false len addr pattern
    let bell := Instr.doorbell who tag number value
    let w := data.length
    let clean := s.poison = [] ∧ s.soft = [] ∧ ∀ ch, s.chFailed ch = false
    let stored (n : Nat) (f : Nat → Byte) (u : State) : Prop :=
      (∀ a, a < addr ∨ addr + n ≤ a → u.byte a = s.byte a) ∧ (clean → ∀ i < n, u.byte (addr + i) = f i)
      ∧ WordsKept [4, 12, 14] s u ∧ u.cores = s.cores ∧ u.lnk = s.lnk ∧ u.nvj = s.nvj ∧ u.hst = s.hst
    let plain := touchesWords addr
    let granted (v : State) (u : State) : Prop :=
      Changes [F.HST_STAT_LEASED, F.HST_STAT_CARRIER, F.HST_STAT_CHALLENGE, (Reg.HST_HOLDER).whole, F.HST_HOLDPORT_PORT,
        F.HST_LEASE_ID] [476] v u
      ∧ u.on F.HST_STAT_LEASED = true ∧ u.get F.HST_STAT_CARRIER = Who.carrierCode who
      ∧ (u.rd .HST_HOLDER).toNat = (Who.address who).1 ∧ u.get F.HST_HOLDPORT_PORT = (Who.address who).2
      ∧ u.get F.HST_LEASE_ID = (s.get F.HST_LEASE_ID + 1) % 65536
    let newId := beBytes 4 ((s.get F.HST_LEASE_ID + 1) % 65536)
    let expiry := s.tim.ticks + 195312500
    let renewed : State := { s with hst := { s.hst with expiry := expiry } }
    let claim := Instr.claim who tag
    let response := Instr.leaseResponse who tag payload
    let proves := ∃ n, s.hst.nonce = some (who, n)
      ∧ sha256 (payload.take 64) = s.hostKeyHash
      ∧ ecdsaVerify (payload.take 64) (s.challengeDigest who n) (payload.drop 64) = true
    (len < 2 ^ 32 → addr < 2 ^ 64 →
      (plain len = false → s.inMemory addr len = true → s.badRange addr len = false →
        ans read 0 (s.bytes addr len) (· = s.readEffects addr len))
      ∧ (plain len = false → s.inMemory addr len = true → s.badRange addr len = true →
        ans read 1 [] (· = s.readEffects addr len))
      ∧ (plain len = false → s.inMemory addr len = false → (inNvjWindow addr len = true ∨ inBootRom addr len = true) →
        ans read 0 ((List.range len).map fun i => s.romByte (addr + i)) same)
      ∧ (plain len = false → s.inMemory addr len = false → inNvjWindow addr len = false → inBootRom addr len = false →
        ans read 1 [] same)
      ∧ (plain len = true → inOneBlock addr len = false → ans read 1 [] same)
      ∧ (plain len = true → inOneBlock addr len = true → ∀ l v, readWords (len / 4) s addr = (l, v) → ans read 0 l (· = v))
      ∧ (s.writable addr len = true → ans fill 0 [] (stored len fun i => (beBytes 4 pattern.toNat).getD (i % 4) 0))
      ∧ (s.writable addr len = false → ans fill 1 [] same))
    ∧ (w < 2 ^ 32 → addr < 2 ^ 64 →
      (plain w = false → s.writable addr w = true → ans write 0 [] (stored w fun i => data.getD i 0))
      ∧ (plain w = false → s.writable addr w = false → ans write 1 [] same)
      ∧ (plain w = true → inOneBlock addr w = false → ans write 1 [] same)
      ∧ (plain w = true → inOneBlock addr w = true →
        ans write 0 [] (· = writeWords (w / 4) s addr data (resetPath (some who)))))
    ∧ (number < 2 ^ 64 →
      (11 < number → ans bell 1 [] same)
      ∧ (number ≤ 11 → (number ≠ 0 ∨ s.on F.HST_STAT_BOOTWAIT = false ∨ s.retired = true) →
        ans bell 0 [] (Sets [((Reg.HST_DBVAL number).whole, value.toNat)] [464 + number] s))
      ∧ (number = 0 → s.on F.HST_STAT_BOOTWAIT = true → s.retired = false → ans bell 0 [] fun u =>
          u.rd (.HST_DBVAL 0) = value ∧ u.on F.HST_STAT_BOOTWAIT = false ∧ u.get F.BOT_STAT_STAGE = 3))
    ∧ (who ≠ .master →
      (s.on F.HST_STAT_LOCKOUT = true → ans claim 7 [] same)
      ∧ (s.on F.HST_STAT_LOCKOUT = false → s.lifeCycle ≤ 1 → ans claim 0 newId (granted renewed))
      ∧ (s.on F.HST_STAT_LOCKOUT = false → 1 < s.lifeCycle → ∀ n, n = (s.drawBytes 32).1 → ans claim 0 n fun u =>
          Sets [(F.HST_STAT_CHALLENGE, 1)] []
            { s with freeCtr := s.freeCtr + 32, hst := { s.hst with nonce := some (who, n) } } u)
      ∧ (payload.length < 2 ^ 32 → proves → ans response 0 newId fun u =>
          granted { s with hst := { s.hst with nonce := none, expiry := expiry } } u ∧ u.on F.HST_STAT_CHALLENGE = false)
      ∧ (payload.length < 2 ^ 32 → ¬ proves → ans response 7 [] fun u =>
          let f := s.tim.ticks :: s.hst.failures.filter fun t => decide (s.tim.ticks < t + 1562500000)
          let locks := s.on F.HST_STAT_LOCKOUT = false ∧ 4 ≤ f.length
          Changes [F.HST_AUTHFAIL_COUNT, F.HST_STAT_LOCKOUT] (if locks then [479] else [])
            { s with hst := { s.hst with failures := if s.on F.HST_STAT_LOCKOUT then s.hst.failures else f } } u
          ∧ Counted F.HST_AUTHFAIL_COUNT 1 s u ∧ (locks → u.on F.HST_STAT_LOCKOUT = true))
      ∧ (s.isHolder who = true → ans (.renew who tag) 0 [] (· = renewed))
      ∧ (s.isHolder who = true → ans (.release who tag) 0 [] (Sets [(F.HST_STAT_LEASED, 0), (F.HST_STAT_CARRIER, 0),
          ((Reg.HST_HOLDER).whole, 0), (F.HST_HOLDPORT_PORT, 0)] [477] s)))
    ∧ ans (.status who tag) 0 (beBytes 4 s.statWord.toNat ++ beBytes 4 s.leaseWord.toNat
        ++ beBytes 4 (s.rd .HST_DROPCNT).toNat ++ [0, 0, 0, 0]) same
    ∧ (∀ a : BitVec 40, let dsw := Instr.dswWrite a value
      (Reg.ofAddr a.toNat = none → Answers dsw s (· = s))
      ∧ ∀ r, Reg.ofAddr a.toNat = some r →
        (r.powered s.isTile = false → Answers dsw s (· = s))
        ∧ (r.powered s.isTile = true → r.actsOnWrite = false → Answers dsw s fun t =>
            Changes [r.whole, F.CLK_DSTAT_GATED 1, F.CLK_DSTAT_GATED 2] [] s t
            ∧ ∀ i < 32, (t.rd r).getLsbD i = writtenBit s r value i)
        ∧ (r.powered s.isTile = true → ∀ u, (s.touchWord r).wordWrite r value .core = u → Answers dsw s (· = u)))

/-- R31, R34, R36, R37, R42, Tables 2.4, 2.5: frames of the QSPI target. A PUT takes a whole request that fits, or counts
in SEQERR; a GET clocks out the oldest response and zeros and ends it; POLL returns the flags of Table 2.5; FLUSH drops
the responses; a frame of an unknown command is counted (a byte that Table 2.5 lists is no such frame, log entry 15); all are ignored before the target answers. The lease expires
once its time has passed with no RENEW received before (log entry 68), and is revoked, with event 477; a challenge and a
lockout end, and an alert message goes to the holder. -/
def Obligations.QspiFramesAndLeaseTimersTakeEffect : Prop :=
  ∀ (s : State) (bytes : List Byte) (clocked : Nat) (byte : Byte),
    let waits (c : Instr) : Prop := Answers c s (· = s)
    let both (a b : Instr) (P : Instr → Prop) : Prop := P a ∧ P b
    let opened := s.aon.phase = 6 ∧ s.aon.resetLow = false
    let n := 16 + payloadLen (txnHead bytes)
    let fits := 16 ≤ bytes.length ∧ n ≤ bytes.length ∧ s.requestBytesHeld + n ≤ 4096
    let counted := Sets [(F.HST_SEQERR_COUNT, min (2 ^ 32 - 1) (s.get F.HST_SEQERR_COUNT + 1))] [] s
    let x : HostTxn := s.arriving .qspi (bytes.take n) (decide (64 ≤ s.inProgress .qspi))
    let shifted (l : List Byte) (rs : List (List Byte)) (t : State) : Prop :=
      t = { s with
        hst := { s.hst with responses := rs }, sent := s.sent ++ [.qspi l]
        bot := { s.bot with resetAfter := t.bot.resetAfter } }
    let after := s.bot.resetAfter
    let clocks (t : State) : Prop := (s.hst.responses = [] ∨ after = none ∨ after = some 0 → t.bot.resetAfter = after)
      ∧ (s.hst.responses ≠ [] → (∀ k, after = some (k + 2) → t.bot.resetAfter = some (k + 1))
        ∧ (after = some 1 → t.bot.resetAfter = if 16 ≤ clocked then some 0 else none))
    let first := s.hst.responses.headD []
    let ended (t : State) : Prop := Sets [(F.HST_STAT_LEASED, 0), (F.HST_STAT_CARRIER, 0),
      ((Reg.HST_HOLDER).whole, 0), (F.HST_HOLDPORT_PORT, 0)] [477] s t
    let leased := s.on F.HST_STAT_LEASED = true
    let ranOut := s.hst.expiry ≤ s.tim.ticks ∧ s.renewWaits = false
    both (.put bytes) (.put4 bytes) (fun c => (¬ opened → waits c)
      ∧ (opened → ¬ fits → Answers c s counted)
      ∧ (opened → fits → Answers c s (· = { s with hst := { s.hst with waiting := s.hst.waiting ++ [x] } })))
    ∧ both (.get clocked) (.get4 clocked) (fun c => (¬ opened → waits c)
      ∧ (opened → Answers c s fun t => clocks t
        ∧ shifted ((List.range clocked).map fun i => first.getD i 0) (s.hst.responses.drop 1) t))
    ∧ (¬ opened → waits .poll ∧ waits .flush)
    ∧ (opened → Answers .poll s fun t => ∃ b : Byte, shifted [b] s.hst.responses t ∧ t.bot = s.bot
        ∧ (b.getLsbD 0 = true ↔ s.hst.responses ≠ []) ∧ (b.getLsbD 1 = true ↔ 4096 < s.requestBytesHeld + 1040)
        ∧ b.getLsbD 2 = s.alert ∧ b.getLsbD 3 = s.on F.HST_STAT_BOOTWAIT ∧ b.toNat < 16)
    ∧ (opened → Answers .flush s (· = { s with
        hst := { s.hst with responses := [] }
        bot := { s.bot with resetAfter := if after = some 0 then some 0 else none } }))
    ∧ (qspiCommands.contains byte = false → (¬ opened → waits (.qspiUnknownCommand byte))
        ∧ (opened → Answers (.qspiUnknownCommand byte) s counted))
    ∧ (qspiCommands.contains byte = true →
        exec (.qspiUnknownCommand byte) s = .fault (.malformed "QSPI_UNKNOWN_COMMAND"))
    ∧ (leased → s.get F.HST_STAT_CARRIER ≠ 3 → ranOut → Answers .leaseExpiry s ended)
    ∧ ((¬ leased ∨ s.get F.HST_STAT_CARRIER = 3 ∨ ¬ ranOut) → waits .leaseExpiry)
    ∧ (leased → s.isTile = false → Answers .revoke s ended)
    ∧ ((¬ leased ∨ s.isTile = true) → waits .revoke)
    ∧ Answers .challengeTimeout s (Sets [(F.HST_STAT_CHALLENGE, 0)] [] { s with hst := { s.hst with nonce := none } })
    ∧ Answers .lockoutEnd s (Sets [(F.HST_STAT_LOCKOUT, 0)] [] { s with hst := { s.hst with failures := [] } })
    ∧ (∀ q, s.hst.holderPeer = some q → s.alert = true → leased → s.get F.HST_STAT_CARRIER = 2 → s.hostPort q.port = true →
        Answers .alertMessage s fun t => t.hst = { s.hst with ownSeq := (s.hst.ownSeq + 1) % 2 ^ 32 }
          ∧ t = (s.newMessage 4 0 []).2.sendToPeer q (s.newMessage 4 0 []).1)
    ∧ ((s.hst.holderPeer = none ∨ s.alert = false ∨ ¬ leased ∨ s.get F.HST_STAT_CARRIER ≠ 2) → waits .alertMessage)
    ∧ (∀ q, s.hst.holderPeer = some q → s.hostPort q.port = false → waits .alertMessage)

/-! ### Frame programs and frames -/

/-- R280 to R287, R289 to R292, R297, R300, Tables 11.1 to 11.3: the compositor of a tile with a slot in use reads one
compose instruction at a time. Each gives the program in hand its setting once, global ones before the first LAYER and
the others for the layer part in progress, and moves on by its words; a setting out of place or repeated is fault 3, a
field outside Table 11.1 fault 2, a rectangle off the canvas fault 5, and a fault halts the compositor with EVERR. A
program that ended or failed is followed by a new one. Nothing is read in sender role, without a slot, or while halted;
RESTART ends a halt. -/
def Obligations.ComposeInstructionsBuildTheProgram : Prop :=
  ∀ (s : State) (l : BitVec 4) (tp : TilePlace) (form : PlaceForm) (dx dy : BitVec 32) (dw dh : BitVec 16)
    (fh fv : BitVec 4) (sx sy : BitVec 20) (phx phy : BitVec 16) (cx cy cw ch : BitVec 13) (mode pol set2 : BitVec 2)
    (alpha : BitVec 10) (b1 b2 b3 : Bool) (set5 : BitVec 5) (fill : FillForm) (silent : Byte),
    let reads := s.isTile = true ∧ s.get F.CMP_STAT_SLOT ≠ 2 ∧ s.get F.CMP_STAT_STATE ≠ 3
    let p := s.cmp.prog
    let x := if p.ended = true ∨ p.fault ≠ none then FrameProg.empty else p
    let takes (c : Instr) (n : Nat) (y : FrameProg) : Prop :=
      Answers c s (· = { s with cmp := { s.cmp with prog := { y with pos := x.pos + n } } })
    let fails (c : Instr) (code : Nat) : Prop := Answers c s
      (Sets [(F.CMP_STAT_STATE, 3), (F.CMP_STAT_ERRCODE, code), (F.CMP_STAT_ERRWORD, x.pos % 16384),
          (F.CMP_STAT_ERRSLOT, s.get F.CMP_STAT_SLOT % 2), (⟨.CMP_EV, 0, 1⟩, 1)] [304]
        { s with cmp := { s.cmp with prog := { x with fault := some (code, x.pos) } } })
    let part (c : Instr) (n : Nat) (unset : LayerPart → Prop) (f : LayerPart → LayerPart) : Prop := reads →
      (∀ ls q, x.layers = ls ++ [q] → unset q → takes c n { x with layers := ls ++ [f q] })
      ∧ (∀ ls q, x.layers = ls ++ [q] → ¬ unset q → fails c 3) ∧ (x.layers = [] → fails c 3)
    let whole (c : Instr) (n : Nat) (unset : Prop) (y : FrameProg) : Prop := reads →
      (x.layers = [] → unset → takes c n y) ∧ ((x.layers ≠ [] ∨ ¬ unset) → fails c 3)
    let complete := match x.layers.getLast? with
      | some q => q.place ≠ none ∧ q.crop ≠ none
      | none => x.tile ≠ none
    let repeated := ∃ q ∈ x.layers, q.num = l.toNat
    let standOk := ∀ m n k, x.stand = some (m, n, k) → m = 2 → ∃ q ∈ x.layers, q.num = n
    let place := Instr.place form
    let scale := Instr.scale fh fv sx sy phx phy
    let stand := Instr.stand mode l silent
    let inX := -65536 ≤ dx.toInt ∧ dx.toInt ≤ 65535 ∧ -65536 ≤ dy.toInt ∧ dy.toInt ≤ 65535
    let inS := 2048 ≤ sx.toNat ∧ sx.toNat ≤ 524288 ∧ 2048 ≤ sy.toNat ∧ sy.toNat ≤ 524288
    (reads →
      (complete → ¬ repeated → takes (.layer l) 1 { x with layers := x.layers ++ [.empty l.toNat] })
      ∧ ((¬ complete ∨ repeated) → fails (.layer l) 3)
      ∧ (complete → standOk → Answers .endf s (· = { s with cmp := { s.cmp with
          prog := { x with ended := true, pos := x.pos + 1 }, dims := x.tile.map fun t => (t.w, t.h) } }))
      ∧ ((¬ complete ∨ ¬ standOk) → fails .endf 3))
    ∧ (placeInstr form = .placeTile tp →
        (tp.w * tp.h ≤ 262144 → x.layers = [] → x.tile = none → reads →
          (tp.onCanvas = true → takes place 2 { x with tile := some tp })
          ∧ (tp.onCanvas = false → fails place 5))
        ∧ (tp.w * tp.h ≤ 262144 → (x.layers ≠ [] ∨ x.tile ≠ none) → reads → fails place 3)
        ∧ (262144 < tp.w * tp.h → reads → fails place 2))
    ∧ (form = .layer dx dy dw dh →
        (inX → part place 4 (fun q => q.place = none)
          fun q => { q with place := some (dx.toInt, dy.toInt, dw.toNat + 1, dh.toNat + 1) })
        ∧ (¬ inX → reads → fails place 2))
    ∧ (inS → part scale 4 (fun q => q.scale = none)
        fun q => { q with scale := some ⟨fh.toNat, fv.toNat, sx.toNat, sy.toNat, phx.toInt, phy.toInt⟩ })
    ∧ (¬ inS → reads → fails scale 2)
    ∧ part (.crop cx cy cw ch) 2 (fun q => q.crop = none)
        (fun q => { q with crop := some (cx.toNat, cy.toNat, cw.toNat + 1, ch.toNat + 1) })
    ∧ part (.blend mode alpha b1) 1 (fun q => q.blend = none)
        (fun q => { q with blend := some (mode.toNat, alpha.toNat, b1) })
    ∧ part (.prelut b1 set5) 1 (fun q => q.prelut = none) (fun q => { q with prelut := some (b1, set5.toNat) })
    ∧ whole (.postlut b1 b2 b3 set2) 1 (x.post = none) { x with post := some (b1, b2n b2, b3, set2.toNat) }
    ∧ (pol.toNat ≤ 2 → part (.policy pol) 1 (fun q => q.policy = none) fun q => { q with policy := some pol.toNat })
    ∧ (pol.toNat = 3 → reads → fails (.policy pol) 2)
    ∧ (∀ r g b, fillInstr fill = .fillBg r g b → whole (.fill fill) 3 (x.bg = none) { x with bg := some (r, g, b) })
    ∧ (∀ r g b, fillInstr fill = .fillLayer r g b →
        part (.fill fill) 2 (fun q => q.fill = none) fun q => { q with fill := some (r, g, b) })
    ∧ (mode.toNat ≤ 2 → silent ≠ 0 →
        whole stand 1 (x.stand = none) { x with stand := some (mode.toNat, l.toNat, silent.toNat) })
    ∧ ((mode.toNat = 3 ∨ silent = 0) → reads → fails stand 2)
    ∧ (¬ reads → ∀ c ∈ [Instr.layer l, place, scale, .crop cx cy cw ch, .blend mode alpha b1, .prelut b1 set5,
        .postlut b1 b2 b3 set2, .policy pol, .fill fill, stand, .endf], Answers c s (· = s))
    ∧ (s.isTile = true → s.get F.CMP_STAT_STATE = 3 → Answers .composeRestart s
        (Sets [(F.CMP_STAT_STATE, if s.get F.CMP_STAT_SLOT = 2 then 0 else 2)] [] s))
    ∧ ((s.isTile = false ∨ s.get F.CMP_STAT_STATE ≠ 3) → Answers .composeRestart s (· = s))

/-- R9, R211, R212, R267, R279, R283, R296, R297, R309, R312: the compose start of a show instant of the grid falls at T − P,
whether or not the half of the frame before it has been shown. It closes the commit window of its show instant; with an
accepted token it takes the bound commit id into use, with its slot, or counts an id that is neither bound nor in use; a
program with a fault halts the compositor, and a sound one begins the frame of the token; the derating and the fade are
latched; memory is not written. In sender role, while the time is invalid, and at no such time, there is none; during a slice of a block that it needs it
is held (R510). The half of the earliest frame
that waits for its show instant is completed: it is counted and shown as filled, with its composition time and its slack; the correction context is armed. -/
def Obligations.FramesAreComposedAndCompleted : Prop :=
  ∀ (s : State) (instant : Nat) (composed : BitVec 20) (value : Word),
    let live := s.isTile = true ∧ s.on F.TIM_STAT_VALID = true
    let start := Instr.composeStart instant
    let done := Instr.halfComplete composed
    let token := s.tokenFor instant
    let id (k : Token) : BitVec 32 := BitVec.ofNat 32 k.commit
    let inUse := s.get F.CMP_STAT_SLOT ≠ 2
    (¬ live ∨ s.composeDue instant = false → Answers start s (· = s))
    ∧ (live → s.composeDue instant = true → s.composeHeld = true →
      Answers start s (· = { s with cmp := { s.cmp with held := some instant } }))
    ∧ (∀ k, token = some k → (∀ c, s.cmp.closed = some c → c < instant) → s.period ≤ instant →
      s.tim.wall ≤ (instant - s.period) * 65536 → (instant - s.period) * 65536 < s.nextWall → s.composeDue instant = true)
    ∧ (live → s.composeDue instant = true → s.composeHeld = false → Answers start s fun t =>
        t.cmp.closed = some (max instant (s.cmp.closed.getD 0)) ∧ t.mem = s.mem ∧ t.cores = s.cores ∧ t.tim = s.tim
        ∧ t.nvj = s.nvj ∧ t.get F.COR_DERATE_GAIN = s.get F.HKP_DERATE_GAIN
        ∧ t.get F.COR_FADE_GAIN = t.get F.SCN_FADESTAT_GAIN
        ∧ (token = none → t.cmp.took = s.cmp.took ∧ t.get F.CMP_STAT_SLOT = s.get F.CMP_STAT_SLOT
            ∧ t.rd .CMP_CID = s.rd .CMP_CID ∧ t.get F.CMP_CIDERR_COUNT = s.get F.CMP_CIDERR_COUNT)
        ∧ (∀ k, token = some k →
            (∀ j, s.boundSlot (id k) = some j → t.cmp.took = s.cmp.took ++ [(instant, id k)] ∧ t.get F.CMP_STAT_SLOT = j
              ∧ t.rd .CMP_CID = id k ∧ t.rd (.CMP_BIND 0) = 0 ∧ t.rd (.CMP_BIND 1) = 0)
            ∧ (s.boundSlot (id k) = none → t.cmp.took = s.cmp.took ∧ t.get F.CMP_STAT_SLOT = s.get F.CMP_STAT_SLOT
              ∧ t.rd .CMP_CID = s.rd .CMP_CID)
            ∧ (s.boundSlot (id k) = none → (inUse → s.rd .CMP_CID ≠ id k) →
              Counted F.CMP_CIDERR_COUNT 1 s t ∧ t.on ⟨.CMP_EV, 2, 1⟩ = true)
            ∧ (∀ j, s.boundSlot (id k) = some j → ∀ c w, (s.readSlot j).fault = some (c, w) →
              t.get F.CMP_STAT_STATE = 3 ∧ t.get F.CMP_STAT_ERRCODE = c % 16 ∧ t.get F.CMP_STAT_ERRWORD = w % 16384
              ∧ t.get F.CMP_STAT_ERRSLOT = j ∧ t.on ⟨.CMP_EV, 0, 1⟩ = true
              ∧ ∀ e ∈ t.lnk.tokens, e.instant = instant → e.finished = true)
            ∧ (∀ j, s.boundSlot (id k) = some j → (s.readSlot j).fault = none → ∀ p, (s.readSlot j).tile = some p →
              t.get F.CMP_STAT_STATE = 1 ∧ t.cmp.dims = some (p.w, p.h)
              ∧ t.on F.SCN_STAT_FILLDONE = (s.on F.SCN_STAT_FILLDONE && decide (s.cmp.frames ≠ []))
              ∧ ∃ f, t.cmp.frames = s.cmp.frames ++ [f] ∧ f.instant = k.instant ∧ f.w = p.w ∧ f.h = p.h
                ∧ f.complete = false ∧ f.pixels.length = p.w * p.h)))
    ∧ ((s.isTile = false ∨ s.cmp.frames = [] ∨ ∃ f fs, s.cmp.frames = f :: fs ∧ f.complete = true) →
      Answers done s (· = s))
    ∧ (s.isTile = true → ∀ f fs, s.cmp.frames = f :: fs → f.complete = false → Answers done s fun t =>
        t.get F.CMP_STAT_STATE = 2 ∧ t.on F.SCN_STAT_FILLDONE = true ∧ t.get F.CMP_CTIME_US = composed.toNat
        ∧ t.get F.CMP_CTIMEMAX_US = max composed.toNat (s.get F.CMP_CTIMEMAX_US) ∧ Counted F.CMP_FRAMES_COUNT 1 s t
        ∧ t.cmp.frames = { f with complete := true, pixels := [], slack := (f.instant - s.now) / 65536000 } :: fs
        ∧ t.get F.SCN_STAT_HALF = s.get F.SCN_STAT_HALF ∧ t.cores = s.cores ∧ t.tim = s.tim ∧ t.nvj = s.nvj
        ∧ ∀ e ∈ t.lnk.tokens, e.instant = f.instant → e.finished = true)
    ∧ (s.isTile = true → Answers (.corArmcidWrite value) s fun t =>
        Sets [((Reg.COR_ARMCID).whole, value.toNat), (F.COR_STAT_ARMPEND, 1)] []
          { s with cor := { s.cor with armed := some value } } t)
    ∧ (s.isTile = false → Answers (.corArmcidWrite value) s (· = s))

/-- R211 to R213, R267, R324, R325, R342, R343, R348, R349, R352, R353, R371: a show instant of the grid, which an accepted
token names or which is T + P, is reached at its time. It shows the half of its frame if it is complete, and counts a miss
if it is not; a frame that is composed for a later instant is untouched; a frame period armed for the id taken for it comes
into force; tokens of instants that have come are gone; the lamps are dark to the next boundary if it does not continue
the grid. Refresh boundary i stands at the edge of the 160 ps grid that is nearest to T + i × P / N; it starts the body of
every running group at its first word, begins and ends the holds that wait for it, and boundary 0 counts a frame. The end
of a loop window shows its sums, keeps the gains within their limits and says whether one is at a limit. In sender role,
while the time is invalid, and at no such time, no instant or boundary is reached. -/
def Obligations.ShowInstantsAndBoundariesAdvanceTheLamps : Prop :=
  ∀ (s : State) (instant : Nat) (index : Byte) (padFails : List (Fin 128)),
    let live := s.isTile = true ∧ s.on F.TIM_STAT_VALID = true
    let reach := Instr.showInstant instant
    let edge := Instr.refreshBoundary index padFails
    let half := s.get F.SCN_STAT_HALF
    let armed := ∃ c, s.tim.armedFper = some c ∧ (c = 0 ∨ s.cmp.took.lookup instant = some c)
    let frame := s.cmp.frames.find? fun f => f.instant == instant
    let later := s.cmp.frames.filter fun f => decide (instant < f.instant)
    let late := s.cmp.held = some instant ∧ (s.tokenFor instant).isSome = true ∧ s.get F.CMP_STAT_SLOT ≠ 2
    let near (k : Token) := instant ≤ k.instant + 131072000 ∧ k.instant ≤ instant + 131072000
    let tick (w : Nat) := s.tim.wall ≤ w ∧ w < s.nextWall
    let span := s.nextWall - s.tim.wall
    let ended := s.scn.tripHold && !s.scn.releasing
    let e := s.cor.window
    let wexp := (List.range 8).flatMap fun k => (List.range 3).map fun c => (Reg.COR_WEXP k c).whole
    let loops := s.on F.COR_CFG_LOOPEN = true ∧ s.cor.windowDark = false
    (¬ live → Answers reach s (· = s) ∧ Answers edge s (· = s))
    ∧ (s.showDue instant = false → Answers reach s (· = s)) ∧ (s.boundaryEdge index.toNat = none → Answers edge s (· = s))
    ∧ (((∃ k ∈ s.lnk.tokens, k.instant = instant)
        ∨ (s.scn.timeHold = false ∧ (∃ p, s.scn.period = some p ∧ instant = p.instant + s.period)
          ∧ ∀ k ∈ s.lnk.tokens, ¬ near k)) →
      (∀ p, s.scn.period = some p → p.instant < instant) → tick (instant * 65536) → s.showDue instant = true)
    ∧ (live → s.showDue instant = true → Answers reach s fun t =>
        t.cmp.frames = later
        ∧ (∀ f, frame = some f →
          (f.complete = true → t.get F.SCN_STAT_HALF = 1 - half ∧ t.on F.SCN_STAT_FILLDONE = false
              ∧ t.scn.noHalf = false ∧ t.get F.SCN_MISSCNT_COUNT = s.get F.SCN_MISSCNT_COUNT)
          ∧ (f.complete = false → t.get F.SCN_STAT_HALF = half ∧ Counted F.SCN_MISSCNT_COUNT 1 s t
              ∧ t.on ⟨.SCN_EV, 0, 1⟩ = true ∧ (later = [] → t.get F.CMP_STAT_STATE = 2)))
        ∧ (frame = none → t.get F.SCN_STAT_HALF = half
          ∧ (¬ late → t.get F.SCN_MISSCNT_COUNT = s.get F.SCN_MISSCNT_COUNT)
          ∧ (late → Counted F.SCN_MISSCNT_COUNT 1 s t ∧ t.on ⟨.SCN_EV, 0, 1⟩ = true))
        ∧ (armed → t.rd .TIM_FPER = s.tim.pendFper ∧ t.tim.armedFper = none ∧ t.on F.TIM_STAT_FPERPEND = false)
        ∧ (¬ armed → t.rd .TIM_FPER = s.rd .TIM_FPER ∧ t.tim = { s.tim with placed := t.tim.placed })
        ∧ (∃ p, t.scn.period = some p ∧ p.instant = instant) ∧ t.scn.timeHold = false ∧ t.scn.boundary = 0
        ∧ t.scn.switches = s.scn.switches.filter (fun e => decide (instant < e.1))
        ∧ t.lnk.tokens = s.lnk.tokens.filter (fun k => decide (instant < k.instant))
        ∧ (s.continuesGrid instant = false → t.scn.switchHold = true)
        ∧ (s.dueSwitches instant = [] → t.mem = s.mem ∧ t.scn.switchHold = !(s.continuesGrid instant))
        ∧ t.cores = s.cores ∧ t.nvj = s.nvj)
    ∧ (∀ p, s.scn.period = some p → s.scn.timeHold = false → index.toNat < max 1 s.refreshes →
      s.scn.boundary ≤ index.toNat →
      let w := (p.instant + index.toNat * s.period / s.refreshes) * 65536
      tick w → s.boundaryEdge index.toNat = some (s.tim.ticks * 40 + ((w - s.tim.wall) * 80 + span) / (2 * span)))
    ∧ (live → ∀ at', s.boundaryEdge index.toNat = some at' → Answers edge s fun t =>
        (∀ g < 16, s.running g = true → (t.group g).pos = 0 ∧ (t.group g).loop = none ∧ (t.group g).line = none
          ∧ (t.group g).elapsed = 0 ∧ (t.group g).pulse = none ∧ (t.group g).head = (s.group g).head)
        ∧ t.scn.edge = at' ∧ t.scn.boundary = index.toNat + 1 ∧ t.scn.switchHold = (s.scn.switchHold && decide (index = 0))
        ∧ t.scn.darkHold = s.on F.SCN_CTL_DARK ∧ t.scn.tripHold = ended ∧ t.scn.releasing = false
        ∧ t.scn.stepHold = false ∧ t.scn.headroom = []
        ∧ t.get F.SCN_FRAMECNT_COUNT
          = (if index = 0 then (s.get F.SCN_FRAMECNT_COUNT + 1) % 2 ^ 32 else s.get F.SCN_FRAMECNT_COUNT)
        ∧ (index ≠ 0 → t.mem = s.mem) ∧ t.cores = s.cores ∧ t.lnk = s.lnk ∧ t.tim = s.tim ∧ t.nvj = s.nvj)
    ∧ (s.isTile = false → Answers .loopWindowEnd s (· = s))
    ∧ (s.isTile = true → Answers .loopWindowEnd s fun t =>
        (∀ k < 8, ∀ c < 3, (t.rd (.COR_WEXP k c)).toNat = min (2 ^ 32 - 1) (e.getD (3 * k + c) 0 / 4096))
        ∧ t.on ⟨.COR_EV, 5, 1⟩ = true ∧ t.cor.window = List.replicate 24 0
        ∧ t.cor.windowDark = s.on F.SCN_STAT_DARK ∧ t.mem = s.mem ∧ t.cores = s.cores ∧ t.scn = s.scn
        ∧ (¬ loops → Changes (⟨.COR_EV, 5, 1⟩ :: wexp) [341] { s with cor := t.cor } t)
        ∧ (loops → WordsKept [8, 12] s t ∧ ∀ c < 3,
            s.get F.COR_LOOPLIM_MIN ≤ s.get F.COR_LOOPLIM_MAX → t.get (F.COR_LOOP_GAIN c) = s.get (F.COR_LOOP_GAIN c)
            ∨ (s.get F.COR_LOOPLIM_MIN ≤ t.get (F.COR_LOOP_GAIN c)
              ∧ t.get (F.COR_LOOP_GAIN c) ≤ s.get F.COR_LOOPLIM_MAX))
        ∧ (loops → (t.on F.COR_STAT_LOOPLIM = true ↔ ∃ c < 3,
            t.get (F.COR_LOOP_GAIN c) ≤ s.get F.COR_LOOPLIM_MIN ∨ s.get F.COR_LOOPLIM_MAX ≤ t.get (F.COR_LOOP_GAIN c))))

/-! ### Greyscale and scan -/

/-- R336, R337: over any run of consecutive visits of a lamp, from whatever residual below 2^s, the refresh values of a
code that K planes can show add up to the visits' share of the code with an error below 1; a larger code shows the
highest value at every visit. -/
def Obligations.RefreshValuesAverageTheLampCode : Prop :=
  ∀ (k code residual visits : Nat), 4 ≤ k → k ≤ 18 → residual < 2 ^ (18 - k) →
    let step := 2 ^ (18 - k)
    let total := (refreshSum k code residual visits).1
    (code / 4 ≤ (2 ^ k - 1) * step →
      total * step < visits * (code / 4) + step ∧ visits * (code / 4) < total * step + step)
    ∧ ((2 ^ k - 1) * step < code / 4 → total = visits * (2 ^ k - 1))
    ∧ (refreshSum k code residual visits).2 < step

/-- R336, R339, R341 to R345, R347, R350, R361, R369, Table 13.2: what each instruction of a scan program does to its
group. LINE ends the visit and begins the next, forming the refresh values of its lamps and writing their residuals, or
counts an underrun; SLOT and DIAG send their streams and light the group, but in a visit whose data was not ready; BLANK
takes time; PRECHG and ROWSEL send row frames; LOOP repeats words; END begins the tail with the GAIN streams, of the
program that follows after the last refresh before a switch; preamble words build the head. An instruction out of place
or with a field outside Table 13.2 halts the group, with the word's offset in its slot. A group that does not run executes
nothing. -/
def Obligations.ScanInstructionsRunTheBody : Prop :=
  ∀ (s : State) (g : Fin 16) (usei ready low : Bool) (l n lines : BitVec 6) (j : BitVec 5) (sp col : BitVec 2)
    (d : BitVec 26) (len : BitVec 11) (value np : Byte) (t0 : BitVec 12),
    s.memSound = true →
    let x := s.group g
    let runs := s.isTile = true ∧ s.get (F.SCN_GSTAT_STATE g) = 1
    let tile := s.isTile = true ∧ s.groupUsed g = true
    let ports := s.groupPorts g
    let geo := s.groupGeometry g
    let tsh := s.groupShift g
    let becomes (y : Group) (out : List Sent) (t : State) : Prop :=
      t = { s with scn := { s.scn with groups := s.scn.groups.set g y }, sent := s.sent ++ out }
    let faultsAt (word : Nat) (c : Instr) (code : Nat) : Prop := Answers c s fun t =>
      t.get (F.SCN_GSTAT_STATE g) = 2 ∧ t.get (F.SCN_GSTAT_ERRCODE g) = code
      ∧ t.get (F.SCN_GSTAT_ERRWORD g) = word % 2 ^ (F.SCN_GSTAT_ERRWORD g).n
      ∧ t.on (F.SCN_GSTAT_EVHALT g) = true ∧ t.get (F.SCN_GSTAT_ERRSLOT g) = s.get (F.SCN_GSTAT_INFORCE g)
      ∧ (t.group g).line = none ∧ t.mem = s.mem ∧ t.cores = s.cores ∧ t.sent = s.sent ∧ WordsKept [9, 12] s t
    let faults := faultsAt (x.base + x.pos)
    let head := if x.head.n = 0 then x.base else 0
    let lit := x.settle true tsh
    let dark := x.settle false tsh
    let light (on : Nat) : List Sent :=
      if s.groupDark g then [] else [.light g (((lit.elapsed + 15) * 8 : Nat) + s.oeTrim g) on]
    let first := s.scn.edge + lit.elapsed + 15
    let pulse (on : Nat) := if s.groupDark g then lit.pulse else some (first, first + on)
    let rowFrame (code : BitVec 8) : Sent := .rowFrame g (1#1 ++ code ++ 1#1)
    let row := if usei then l.toNat + ((x.loop.map (·.i)).getD 0) else l.toNat
    let next := if s.refreshes ≤ s.scn.boundary then s.comingHead g else x.head
    let gains : List Sent := next.gains.flatMap fun e => ports.map fun p => .stream p (commandWord 1 (e.1 * 256 + e.2)) []
    let at' (p ch : Nat) : Nat := p * geo.perPort + row * geo.cpl + ch
    let was (p ch : Nat) : Nat := leNat (s.bytes (residualAddr (at' p ch)) 2) % 2 ^ 14
    let new (p ch : Nat) : Nat × Nat := refreshValue x.head.k (s.codeAt s.half (at' p ch)) (was p ch)
    let line := Instr.line g usei l ready
    let slot := Instr.slot g j sp
    let word (c : Instr) (f : ScanHead → ScanHead × Bool) : Prop := tile →
      ((f x.head.fresh).2 = true → Answers c s (becomes { x with
        head := (f x.head.fresh).1, base := head + 1, pos := 0 } []))
      ∧ ((f x.head.fresh).2 = false → faultsAt head c 3)
    (runs →
      (x.stopping = true → Answers line s fun t =>
        t.get (F.SCN_GSTAT_STATE g) = 0 ∧ (t.group g).line = none ∧ t.mem = s.mem ∧ t.sent = s.sent)
      ∧ (x.stopping = false → x.head.lines ≤ row → faults line 3)
      ∧ (x.stopping = false → row < x.head.lines → ready = false → Answers line s fun t =>
          (t.group g).line = some row ∧ (t.group g).ready = false ∧ (t.group g).pos = x.next.pos
          ∧ Counted F.SCN_UNDERCNT_COUNT 1 s t ∧ t.on ⟨.SCN_EV, 3, 1⟩ = true ∧ t.mem = s.mem ∧ t.sent = s.sent)
      ∧ (x.stopping = false → row < x.head.lines → ready = true → (∀ p ∈ ports, (p + 1) * geo.perPort ≤ 786432) →
          Answers line s fun t =>
            (t.group g).line = some row ∧ (t.group g).ready = true ∧ (t.group g).pos = x.next.pos
            ∧ (t.group g).values = ports.map (fun p => (List.range geo.cpl).map fun ch => (new p ch).1)
            ∧ (∀ p ∈ ports, ∀ ch < geo.cpl, leNat (t.bytes (residualAddr (at' p ch)) 2) = (new p ch).2 % 65536)
            ∧ (∀ a, (∀ p ∈ ports, ∀ ch < geo.cpl, a ≠ residualAddr (at' p ch) ∧ a ≠ residualAddr (at' p ch) + 1) →
              t.byte a = s.byte a)
            ∧ t.sent = s.sent ∧ t.cores = s.cores)
      ∧ (x.line = none → faults slot (3 : Nat) ∧ faults (.diag g d) 3 ∧ faults (.rowsel g) 3)
      ∧ (x.line ≠ none → (17 < j.toNat → faults slot 2) ∧ (j.toNat ≤ 17 → x.head.k ≤ j.toNat → faults slot 3))
      ∧ (∀ m, x.line = some m →
          (j.toNat ≤ 17 → j.toNat < x.head.k →
            let on := x.head.on j.toNat sp.toNat
            let y : Group := { lit with lit := some on }
            (x.ready = true → Answers slot s (becomes (Group.next { y with pulse := pulse on }) ((ports.zipIdx.map fun e => Sent.stream e.1
              (commandWord 0 (b2n (x.head.low j.toNat) * 512 + m)) ((x.values.getD e.2 []).map fun q => bit q j.toNat))
                ++ light on)))
            ∧ (x.ready = false → Answers slot s (becomes y.next [])))
          ∧ Answers (.diag g d) s (becomes (Group.next { lit with
              lit := some d.toNat, pulse := if s.scn.diag && x.ready then pulse d.toNat else lit.pulse })
              ((ports.map fun p => Sent.stream p (commandWord 0 (512 + m)) (List.replicate geo.cpl s.scn.diag))
                ++ if s.scn.diag && x.ready then light d.toNat else []))
          ∧ Answers (.rowsel g) s (becomes x.next [rowFrame (BitVec.ofNat 8 m)]))
      ∧ (d ≠ 0 → Answers (.blank g d) s (becomes (Group.next { dark with elapsed := dark.elapsed + d.toNat }) []))
      ∧ (d = 0 → faults (.blank g d) 2)
      ∧ Answers (.prechg g) s (becomes x.next [rowFrame 0xFF])
      ∧ (len ≠ 0 → x.loop = none → Answers (.loop g n len) s (becomes (Group.next
          { x with loop := some ⟨x.pos + 1, x.pos + len.toNat, n.toNat + 1, 0⟩ }) []))
      ∧ (len = 0 → faults (.loop g n len) 2)
      ∧ (len ≠ 0 → x.loop ≠ none → faults (.loop g n len) 3)
      ∧ Answers (.endScan g) s (fun t =>
          t.group g = { dark with
            pos := 0, loop := none, line := none, reads := 0, stopping := false, held := x.held || s.lineHolds }
          ∧ t.sent = s.sent ++ (if x.stopping then [] else gains) ∧ t.mem = s.mem ∧ t.cores = s.cores ∧ WordsKept [9, 12] s t
          ∧ t.get (F.SCN_GSTAT_STATE g) = (if x.stopping then 0 else 1)))
    ∧ (¬ runs → ∀ c ∈ [line, slot, .blank g d, .prechg g, .diag g d, .rowsel g, .loop g n len, .endScan g],
        Answers c s (· = s))
    ∧ (j.toNat ≤ 17 → word (.plane g j low) fun h => h.plane j.toNat low)
    ∧ (tile → 17 < j.toNat → faultsAt head (.plane g j low) 2)
    ∧ word (.gain g col value) (fun h => h.gain col.toNat value.toNat)
    ∧ (50 ≤ t0.toNat → word (.sync g np lines t0) fun h =>
        ({ h with n := np.toNat + 1, lines := lines.toNat + 1, t0 := t0.toNat }, h.planesOk))
    ∧ (tile → t0.toNat < 50 → faultsAt head (.sync g np lines t0) 2)
    ∧ (¬ tile → ∀ c ∈ [Instr.plane g j low, .gain g col value, .sync g np lines t0], Answers c s (· = s))

/-- R344, R367, R368, R371 to R374, R376, R377, Tables 14.2, 14.5: READBK of flags reads the rotation's entry and
records the codes of its lamps in the lamp state map; READBK of headroom reads the group's drivers and gathers their
flags; a response without its presence bit counts for each port addressed; with RBEN 0 or a shift too short nothing is
sent. A clear of the map writes 0 to every byte of it. -/
def Obligations.ReadbackFillsTheLampStateMap : Prop :=
  ∀ (s : State) (g : Fin 16) (present : Bool) (bits : BitVec 16),
    s.memSound = true →
    let x := s.group g
    let runs := s.isTile = true ∧ s.get (F.SCN_GSTAT_STATE g) = 1
    let geo := s.groupGeometry g
    let tsh := s.groupShift g
    let ports := s.groupPorts g
    let rot := s.rotationOf g
    let e := rot.getD ((x.pointer + x.reads) % rot.length) (8 * g, 0, 0)
    let on := s.on F.LMP_CFG_RBEN = true
    let dark := x.settle false tsh
    let flags := Instr.readbk g false present bits
    let room := Instr.readbk g true present bits
    let lamp (m i : Nat) : Nat := s.lampByte (geo.lamp e.1 m (48 * e.2.1 + 8 * e.2.2 + i))
    let code (i : Nat) : Nat := 2 * b2n (bits.getLsbD (2 * i)) + b2n (bits.getLsbD (2 * i + 1))
    let counted (i : Nat) : Prop := 48 * e.2.1 + 8 * e.2.2 + i < geo.cpl ∧ code i ≠ 0
    let timed (reads : Nat) (t : State) : Prop := t.group g = Group.next { dark with elapsed := dark.elapsed + tsh, reads := reads }
    let still (t : State) : Prop := t.mem = s.mem ∧ t.cores = s.cores
    let n := 3 * (s.cmp.dims.getD (0, 0)).1 * (s.cmp.dims.getD (0, 0)).2
    (¬ runs → Answers flags s (· = s) ∧ Answers room s (· = s))
    ∧ (runs → x.line = none → ∀ c ∈ [flags, room], Answers c s fun t =>
        t.get (F.SCN_GSTAT_STATE g) = 2 ∧ t.get (F.SCN_GSTAT_ERRCODE g) = 3
        ∧ t.get (F.SCN_GSTAT_ERRWORD g) = (x.base + x.pos) % 2 ^ (F.SCN_GSTAT_ERRWORD g).n ∧ still t ∧ t.sent = s.sent)
    ∧ (runs → ∀ m, x.line = some m →
        (¬ on → Answers room s (fun t => timed x.reads t ∧ t.sent = s.sent ∧ t.regs = s.regs ∧ still t)
          ∧ Answers flags s (fun t => timed (x.reads + 1) t ∧ t.sent = s.sent ∧ t.regs = s.regs ∧ still t))
        ∧ (on → tsh < 280 → Answers room s fun t => timed x.reads t ∧ t.sent = s.sent ∧ still t
            ∧ t.on F.LMP_STAT_RBSHORT = true)
        ∧ (on → tsh < 800 → Answers flags s fun t => timed (x.reads + 1) t ∧ t.sent = s.sent ∧ still t
            ∧ t.on F.LMP_STAT_RBSHORT = true)
        ∧ (on → 280 ≤ tsh → Answers room s fun t => timed x.reads t ∧ still t
            ∧ t.sent = s.sent ++ ports.map (fun p => .stream p (commandWord 3 0) [])
            ∧ (present = true → t.get (F.LMP_HR_SHORT g) = s.get (F.LMP_HR_SHORT g) ||| (bits.toNat % 8)
              ∧ t.scn.headroom = (g.val, bits.toNat % 8) :: s.scn.headroom)
            ∧ (present = false → t.on (F.LMP_HR_NORESP g) = true ∧ ∀ p ∈ ports,
              Counted (F.LMP_PCNT_NORESP p) 1 s t ∧ t.on (F.LMP_PSTAT_EVNORESP p) = true))
        ∧ (on → 800 ≤ tsh → rot ≠ [] → Answers flags s fun t => timed (x.reads + 1) t ∧ t.cores = s.cores
            ∧ t.sent = s.sent ++ [.stream e.1 (commandWord 2 (e.2.1 * 64 + e.2.2)) []]
            ∧ (present = false → t.mem = s.mem ∧ Counted (F.LMP_PCNT_NORESP e.1) 1 s t
              ∧ t.on (F.LMP_PSTAT_EVNORESP e.1) = true)
            ∧ ((present = false ∨ s.mapLive = false) → t.mem = s.mem)
            ∧ (∀ a, (∀ i < 8, a ≠ lamp m i) → t.byte a = s.byte a)
            ∧ (present = true → s.mapLive = true → s.poison = [] → s.soft = [] → (∀ ch, s.chFailed ch = false) →
              ∀ i < 8, counted i → s.inMemory (lamp m i) 1 = true →
                (t.byte (lamp m i)).toNat = code i + 4 + (s.byte (lamp m i)).toNat / 8 % 2 * 8)))
    ∧ (s.isTile = true → Answers .mapClear s (Sets [(F.LMP_STAT_CLEARING, 1)] [] s))
    ∧ (s.isTile = false → Answers .mapClear s (· = s))
    ∧ (s.on F.LMP_STAT_CLEARING = false → Answers .mapClearDone s (· = s))
    ∧ (s.on F.LMP_STAT_CLEARING = true → Answers .mapClearDone s fun t =>
        t.on F.LMP_STAT_CLEARING = false ∧ t.cores = s.cores
        ∧ (∀ a, (∀ i < n, a ≠ s.lampByte i) → t.byte a = s.byte a)
        ∧ (s.poison = [] → s.soft = [] → (∀ ch, s.chFailed ch = false) →
            ∀ i < n, s.inMemory (s.lampByte i) 1 = true → t.byte (s.lampByte i) = 0))

/-- R336, R345 to R347, R353, R354, R356, R369, Tables 13.3, 13.4: START brings the slot it names into force, checks it
and runs the group, from its first word with a cleared rotation and residuals of 0, after the streams that reset its
drivers and set their gains, or halts it with the fault found; STOP stops it at the end of its line visit; DARK holds the
lamps dark and cuts the ON pulses in progress, a trip hold is released unless its condition persists, and a fade is armed. In sender role, and for a group
without lamps, nothing happens. -/
def Obligations.GroupsStartStopAndHold : Prop :=
  ∀ (s : State) (g : Fin 16) (slot dark shape : Bool) (target : BitVec 16) (frames : BitVec 12),
    let waits (c : Instr) : Prop := Answers c s (· = s)
    let x := s.group g
    let tile := s.isTile = true
    let used := s.groupUsed g = true
    let runs := s.get (F.SCN_GSTAT_STATE g) = 1
    let start := Instr.groupStart g slot
    let stop := Instr.groupStop g
    let k := b2n slot
    let checked := s.checkSlot g k s.cmp.dims s.period (s.otherRunning g)
    let slotField := F.SCN_GCTL_SLOT g
    let go := Instr.fadeGo target frames shape
    let ports := s.groupPorts g
    let perPort := (s.groupGeometry g).perPort
    let now := s.tim.ticks * 40 + 1
    (¬ tile → waits start ∧ waits stop ∧ waits (.darkWrite dark) ∧ waits .tripRelease ∧ waits go)
    ∧ (tile → (¬ used ∨ runs) → Answers start s (Sets [(slotField, k)] [] s))
    ∧ (tile → used → ¬ runs → x.sliceHold = true → Answers start s (Sets [(slotField, k)] []
        { s with scn := { s.scn with groups := s.scn.groups.set g { x with startHeld := some slot } } }))
    ∧ (tile → used → ¬ runs → x.sliceHold = false → ∀ c w, checked = .error (c, w) → Answers start s fun t =>
        t.get (F.SCN_GSTAT_STATE g) = 2 ∧ t.get (F.SCN_GSTAT_ERRCODE g) = c % 2 ^ (F.SCN_GSTAT_ERRCODE g).n
        ∧ t.get (F.SCN_GSTAT_ERRWORD g) = w % 2 ^ (F.SCN_GSTAT_ERRWORD g).n ∧ t.get (F.SCN_GSTAT_ERRSLOT g) = k
        ∧ t.get (F.SCN_GSTAT_INFORCE g) = k ∧ (t.group g).inForce = true ∧ t.on (F.SCN_GSTAT_EVHALT g) = true
        ∧ t.mem = s.mem ∧ t.cores = s.cores ∧ t.sent = s.sent ∧ WordsKept [9, 12] s t)
    ∧ (tile → used → ¬ runs → x.sliceHold = false → ∀ p, checked = .ok p → Answers start s fun t =>
        t.get (F.SCN_GSTAT_STATE g) = 1 ∧ t.get (F.SCN_GSTAT_INFORCE g) = k ∧ (t.group g).head = p.head
        ∧ (t.group g).base = p.base ∧ (t.group g).pos = 0 ∧ (t.group g).loop = none
        ∧ (t.group g).line = none ∧ (t.group g).pointer = 0 ∧ (t.group g).inForce = true
        ∧ (s.cmp.dims ≠ none → (t.group g).duration = p.duration)
        ∧ t.get (F.SCN_GTIME_NS g) = (t.group g).duration * 160 / 1000 % 2 ^ (F.SCN_GTIME_NS g).n
        ∧ t.sent = s.sent ++ ports.map (fun q => .stream q (commandWord 4 0) [])
          ++ p.head.gains.flatMap (fun e => ports.map fun q => .stream q (commandWord 1 (e.1 * 256 + e.2)) [])
        ∧ (s.memSound = true → ∀ j < 786432, (s.cmp.dims = none ∨ ∃ q ∈ ports, j / perPort = q) →
            leNat (t.bytes (residualAddr j) 2) = 0)
        ∧ (∀ a, a < residualAddr 0 → t.byte a = s.byte a)
        ∧ t.cores = s.cores ∧ WordsKept [9, 10, 12] s t)
    ∧ (tile → (¬ used ∨ ¬ runs) → waits stop)
    ∧ (tile → used → runs → ∀ m, x.line = some m → Answers stop s
        (· = { s with scn := { s.scn with groups := s.scn.groups.set g { x with stopping := true } } }))
    ∧ (tile → used → runs → x.line = none → Answers stop s fun t =>
        t.get (F.SCN_GSTAT_STATE g) = 0 ∧ t.group g = x ∧ t.mem = s.mem ∧ WordsKept [9, 12] s t)
    ∧ (tile → Answers (.darkWrite dark) s fun t =>
        t.on F.SCN_CTL_DARK = dark ∧ t.scn.darkHold = (dark || s.scn.darkHold)
        ∧ (dark = false → t.scn.groups = s.scn.groups ∧ t.sent = s.sent)
        ∧ (dark = true → t.on F.SCN_STAT_DARK = true
          ∧ (∀ h < 16, t.group h = { s.group h with pulse := none })
          ∧ t.sent = s.sent ++ (List.range 16).filterMap (fun h => (s.group h).pulse.bind fun e =>
              if now < e.2 then some (.cut h ((now : Int) - s.scn.edge)) else none)) ∧ t.mem = s.mem ∧ t.cores = s.cores ∧ WordsKept [9, 12] s t)
    ∧ (tile → s.tripCondition = true → waits .tripRelease)
    ∧ (tile → s.tripCondition = false → Answers .tripRelease s
        (· = { s with scn := { s.scn with releasing := s.scn.tripHold } }))
    ∧ (tile → Answers go s fun t =>
        t.scn = { s.scn with armedFade := some (target.toNat, max 1 frames.toNat, shape) }
        ∧ t.on F.SCN_FADESTAT_ARMED = true ∧ t.get F.SCN_FADECTL_TARGET = target.toNat
        ∧ t.get F.SCN_FADECTL_FRAMES = frames.toNat ∧ t.on F.SCN_FADECTL_SHAPE = shape
        ∧ Changes [F.SCN_FADECTL_TARGET, F.SCN_FADECTL_FRAMES, F.SCN_FADECTL_SHAPE, F.SCN_FADESTAT_ACTIVE,
            F.SCN_FADESTAT_ARMED, F.SCN_FADESTAT_REMAIN] [] { s with scn := t.scn } t)

/-! ### Surfaces -/

/-- R258 to R262, R267 to R271, Tables 10.3 to 10.6: a write to SRF.CMD begins a command, which ends within 2 µs, 312 ticks;
while one is in hand any other sets LOST and does nothing. The codec commands end with a RESULT of Table 10.5, BUSY 0 and
EVCMD, and one that is refused changes nothing else. CREATE copies a sound descriptor; DESTROY takes a handle whose slots are free; OPEN
gives a later generation of a raw handle a slot with an empty presence map; SEAL and its completion write the check codes
and make the generation COMPLETE; FREE frees a slot, or defers it while it is in use; QUERY shows the handle; FORGET
clears its records. An unknown OP gives BADOP. A release fence frees a RELEASING slot that nothing uses and,
on a tile, from whose handle a composition of a newer generation has finished. -/
def Obligations.CodecCommandsManageHandlesAndSlots : Prop :=
  ∀ (s : State) (h : BitVec 12) (gen : BitVec 16) (value : Word),
    s.memSound = true →
    let g := gen.toNat
    let hn := h.toNat
    let result := F.SRF_CMDSTAT_RESULT
    let ev (b : Nat) : Fld := ⟨.SRF_EV, b, 1⟩
    let pages := [F.SRF_OCCPEND_PAGES, F.SRF_OCCPEAK_PAGES]
    let busy := F.SRF_CMDSTAT_BUSY
    let runs (c : Instr) (P : State → Prop) : Prop := s.codec = none → Answers c s P
    let refused (c : Instr) (r : Nat) : Prop := runs c (Sets [(busy, 0), (result, r), (ev 4, 1)] [276] s)
    let lost := Sets [(F.SRF_CMDSTAT_LOST, 1)] [] s
    let handle := s.handle hn
    let put (x : Handle) : List (Nat × Handle) := handlePut hn x s.srf
    let ends (r : Nat) (l : List (Nat × Handle)) (t : State) : Prop := t.get result = r ∧ t.on (ev 4) = true
      ∧ t.on busy = false ∧ Changes (busy :: result :: ev 4 :: pages) [276] { s with srf := l } t
    let freed (x : Handle) (j r : Nat) (t : State) : Prop := t.get result = r ∧ t.on (ev 4) = true
      ∧ t.srf = put (x.modSlot j fun _ => Slot.empty) ∧ t.mem = s.mem ∧ t.cores = s.cores ∧ t.lnk = s.lnk
    let stored (a n : Nat) (t : State) : Prop := (∀ b, b < a ∨ a + n ≤ b → t.byte b = s.byte b)
      ∧ t.cores = s.cores ∧ t.lnk = s.lnk ∧ t.nvj = s.nvj
    let clean := s.poison = [] ∧ s.soft = [] ∧ ∀ ch, s.chFailed ch = false
    let slot (x : Handle) (j : Nat) : Slot := x.slots.getD j Slot.empty
    let st (x : Handle) (j : Nat) : Nat := (slot x j).st
    let passed (x : Handle) (j : Nat) : Prop := s.genInUse hn x (slot x j) = false
      ∧ (s.isTile = false ∨ ∃ d, x.done = some d ∧ (slot x j).olderThan d = true)
    let entry := s.get F.SRF_HTBASE_ADDR * 4096 + 32 * hn
    let fits (x : Handle) : Prop :=
      (s.isTile = true ∨ x.whole = true) ∧ x.base + x.slots.length * x.slotSize ≤ s.dramBytes
    let room (x : Handle) : Prop := s.slotTotal + x.slots.length ≤ 16384
    let later (x : Handle) : Prop := ∀ o, x.opened = some o → genLater g o = true
    let make := Instr.create h
    let opens := Instr.openGen h gen
    let closing := Instr.seal h gen
    let sealed := Instr.sealComplete h gen
    let free := Instr.freeGen h gen
    let fence := Instr.releaseFence h gen
    (s.codec ≠ none →
      ∀ c ∈ [make, .destroy h, opens, closing, free, .query h, .forget h, .codecBadop value], Answers c s lost)
    ∧ (∀ a : BitVec 40, Reg.ofAddr a.toNat = some .SRF_CMD →
        (s.codec ≠ none → Answers (.dswWrite a value) s lost)
        ∧ (s.codec = none → ∃ n ≤ 312,
            let u := { s with codec := some (value, s.tim.ticks + n), freeCtr := s.freeCtr + 1 }
            (n ≠ 0 → Answers (.dswWrite a value) s (Sets [(busy, 1)] [] u))
            ∧ (n = 0 → Answers (.dswWrite a value) s
                (· = State.srfDecide { u.set busy 1 with codec := none } value))))
    ∧ (∀ v d, s.codec = some (v, d) → ∀ k, d ≤ s.tim.ticks + k → Answers (.timeTick k) s fun t =>
        let u := State.srfDecide { s with codec := none, tim := t.tim, scn := t.scn } v
        t.codec = none ∧ t.on busy = false ∧ t.on (ev 4) = true ∧ t.get result = u.get result
        ∧ t.srf = u.srf ∧ t.mem = u.mem)
    ∧ (handle ≠ none → refused make 2)
    ∧ (handle = none → inDram entry = false → refused make 3)
    ∧ (handle = none → inDram entry = true → s.loadData entry 32 = none → runs make fun t =>
        t.get result = 3 ∧ t.on (ev 4) = true ∧ t.srf = s.srf ∧ t.mem = s.mem ∧ t.cores = s.cores)
    ∧ (handle = none → inDram entry = true → ∀ l, s.loadData entry 32 = some l → runs make fun t =>
        t.on (ev 4) = true ∧ t.mem = s.mem ∧ t.cores = s.cores ∧ WordsKept [4, 6, 12, 14] s t
        ∧ (handleOf l = none → t.get result = 3 ∧ t.srf = s.srf)
        ∧ (∀ x, handleOf l = some x →
            (¬ fits x → t.get result = 3 ∧ t.srf = s.srf) ∧ (fits x → ¬ room x → t.get result = 7 ∧ t.srf = s.srf)
            ∧ (fits x → room x → t.get result = 0 ∧ t.srf = put x)))
    ∧ (handle = none → ∀ c ∈ [Instr.destroy h, closing, free, .query h, .forget h, opens],
        (s.isTile = false ∨ (c ≠ opens ∧ c ≠ closing)) → refused c 2)
    ∧ (s.isTile = true → refused opens 6 ∧ refused closing 6)
    ∧ (handle = none → Answers sealed s (· = s) ∧ Answers fence s (· = s))
    ∧ (∀ x, handle = some x →
        ((∃ e ∈ x.slots, e.st ≠ 0) → refused (.destroy h) 2)
        ∧ ((∀ e ∈ x.slots, e.st = 0) → runs (.destroy h) (ends 0 (s.srf.filter fun e => e.1 != hn)))
        ∧ (s.isTile = false → (fmtRaw x.fmt = false ∨ ¬ later x) → refused opens 2)
        ∧ (s.isTile = false → fmtRaw x.fmt = true → later x → s.slotFor hn x = none → refused opens 4)
        ∧ (s.isTile = false → fmtRaw x.fmt = true → later x → ∀ j, s.slotFor hn x = some j → runs opens fun t =>
            t.get result = 0 ∧ t.get F.SRF_CMDSTAT_SLOT = j % 2 ^ F.SRF_CMDSTAT_SLOT.n ∧ t.on (ev 4) = true
            ∧ t.srf = put { x with
                slots := modAt j (fun _ => ⟨1, g, x.era, false⟩) x.slots, opened := newestGen x.opened g }
            ∧ stored (x.mapAddr j) ((x.blocks + 7) / 8) t
            ∧ (clean → s.inMemory (x.mapAddr j) ((x.blocks + 7) / 8) = true → t.missingBlocks x j = x.blocks))
        ∧ (x.find g = none → (s.isTile = false → refused closing 2) ∧ refused free 5
            ∧ Answers sealed s (· = s) ∧ Answers fence s (· = s))
        ∧ ((∃ e ∈ x.slots, e.st = 1 ∨ e.st = 2) → refused (.forget h) 2)
        ∧ ((∀ e ∈ x.slots, e.st ≠ 1 ∧ e.st ≠ 2) → runs (.forget h) (ends 0 (put x.forget)))
        ∧ (∀ j, x.find g = some j →
            (s.isTile = false → fmtRaw x.fmt = true → st x j = 1 →
              runs closing (ends 0 (put (x.modSlot j fun e => { e with st := 2 }))))
            ∧ (s.isTile = false → (fmtRaw x.fmt = false ∨ st x j ≠ 1) → refused closing 2)
            ∧ (st x j ≠ 2 → Answers sealed s (· = s))
            ∧ (st x j = 2 → fmtRaw x.fmt = true → s.inMemory (x.slotAddr j) x.slotSize = true → Answers sealed s fun t =>
                t.srf = put { x.modSlot j (fun e => { e with st := 3 }) with used := newestUsed x.used (g, (slot x j).era) }
                ∧ stored (x.slotAddr j) x.slotSize t
                ∧ (clean → ∀ i < x.blocks, t.present x j i = true
                  ∧ ∀ l, s.blockData x j i = some l → leNat (t.bytes (x.codeAddr j i) 2) = (crc16 l).toNat))
            ∧ (st x j = 5 → refused free 5)
            ∧ (st x j = 2 → runs free (freed x j 0))
            ∧ (st x j = 1 → runs free fun t => freed x j 0 t
                ∧ (s.isTile = false → ∀ i < 16, s.get (F.ING_SHANDLE_HANDLE i) = hn →
                  (∃ f ∈ (s.stream i).frames, f.held = true ∧ f.gen = g) →
                  Counted (F.ING_SFRDROP_COUNT i) 1 s t ∧ ∀ f ∈ (t.stream i).frames, f.gen = g → f.held = false))
            ∧ (st x j ∉ [1, 2, 5] → ((s.isTile = true ∧ st x j = 3) ∨ s.genInUse hn x (slot x j) = false) →
                runs free (freed x j 0))
            ∧ (st x j ∉ [1, 2, 5] → ¬ (s.isTile = true ∧ st x j = 3) → s.genInUse hn x (slot x j) = true →
                runs free (ends 1 (put (x.modSlot j fun e => { e with st := 5 }))))
            ∧ (st x j = 5 → passed x j → Answers fence s fun t =>
                Changes (F.SRF_FREEDCNT_COUNT :: ev 2 :: pages) [274]
                  { s with srf := put (x.modSlot j fun _ => Slot.empty) } t
                ∧ Counted F.SRF_FREEDCNT_COUNT 1 s t ∧ t.on (ev 2) = true)
            ∧ ((st x j ≠ 5 ∨ ¬ passed x j) → Answers fence s (· = s)))
        ∧ runs (.query h) (fun t => t.srf = s.srf ∧ t.mem = s.mem ∧ t.get result = 0 ∧ WordsKept [6, 12] s t
            ∧ t.rd .SRF_QSTAT = BitVec.ofNat 32 (1 + 2 * x.fmt + 16 * (x.slots.length - 1) + 128 * b2n x.reclaim)
            ∧ (∀ j < 4, t.rd (.SRF_QGEN j) = BitVec.ofNat 32
              ((x.slots.getD (2 * j) Slot.empty).gen + (x.slots.getD (2 * j + 1) Slot.empty).gen * 65536))
            ∧ t.rd .SRF_QNEWEST = BitVec.ofNat 32 (x.opened.getD 0 + (x.used.map (·.1)).getD 0 * 65536)
            ∧ t.rd .SRF_QRETR = BitVec.ofNat 32 (x.retracted.getD 0 + b2n x.retracted.isSome * 65536)
            ∧ ((∀ e ∈ x.slots, e.st < 8) → ∀ j < 8, getBits (t.rd .SRF_QSLOTS) (3 * j) 3 = st x j)))
    ∧ (getBits value 0 4 ∉ [1, 2, 3, 4, 5, 6, 7] → refused (.codecBadop value) 8)
    ∧ (let alike (i : Nat) (c : Instr) : Prop := getBits value 0 4 = i → getBits value 4 12 = hn → getBits value 16 16 = g →
          s.codec = none → exec (.codecBadop value) s = exec c s
      alike 1 make ∧ alike 2 (.destroy h) ∧ alike 3 opens ∧ alike 4 closing ∧ alike 5 free ∧ alike 6 (.query h) ∧ alike 7 (.forget h))

/-! ### Source ingest -/

/-- R39, R44, R218 to R225, R228, R231, R233, R234, R244: a frame on a source port of a sender, and the codewords before it
that the FEC of a 100GBASE-R quad could not correct, which count in ING.QFEC. A port that its quad's mode does
not have receives nothing; a bad frame, a frame for another address, a bad packet and a datagram that nothing takes count
in ING.PDROP; an ARP request for the port's address is answered; a query's version is remembered. A datagram for the host
channel with a bad message counts in HST.SEQERR. While the boot waits on the network, port 0 takes UDP messages to port
30,720 alone. A packet of a stream that does not fit it, or comes too late, counts in
SBADPKT; a second copy counts in SDUP; the first packet of a later frame opens a generation for it, and pixels of an open
frame are staged, in its staging slot of the DRAM; one that is not later counts once in SFRDROP. -/
def Obligations.SourceFramesReachHostsPtpAndStreams : Prop :=
  ∀ (s : State) (i : Fin 8) (bytes : List Byte) (lost : Nat),
    let c := Instr.ethernetFrame i ⟨bytes, lost⟩
    let q := i.val / 4
    let fec := F.ING_QFEC_COUNT q
    let u := if s.get (F.ING_QCFG_MODE q) = 1 then s.set fec (min (2 ^ fec.n - 1) (s.get fec + lost)) else s
    let port := s.sourcePort i = true ∧ s.isTile = false
    let normal := port ∧ s.bootNet = false
    let dropped := Answers c s (Sets [(F.ING_PDROP_COUNT i, min (2 ^ (F.ING_PDROP_COUNT i).n - 1)
      (s.get (F.ING_PDROP_COUNT i) + 1))] [] u)
    let counts (f : Fld) (t : State) : Prop := Sets [(f, min (2 ^ f.n - 1) (s.get f + 1))] [] u t
    let ours := s.hostPort i = true ∨ ¬ (s.on F.HST_HCCFG_EN = true ∧ s.get F.HST_HCCFG_PORT = i)
    let asks (l : List Byte) : Prop := beAt l 0 8 = 0x0001080006040001 ∧ BitVec.ofNat 32 (beAt l 24 4) = s.portIp i
      ∧ s.maySend i = true ∧ ours
    let udp (f : EtherFrame) (p : IpPacket) (d : Datagram) : Prop := normal ∧ parseEther bytes = some f
      ∧ s.macAccepted i f = true ∧ f.type = 0x0800 ∧ parseIp f.payload = some p ∧ p.proto ≠ 2 ∧ parseUdp p = some d
    let toHost (p : IpPacket) (d : Datagram) : Prop := s.hostPort i = true ∧ p.dst = s.rd .HST_IPADDR
      ∧ d.dport = s.get F.HST_HCPORT_PORT
    let toPtp (d : Datagram) : Prop := s.ptpPort i = true ∧ (d.dport = 319 ∨ d.dport = 320)
    let path (k : Nat) (b : Bool) : Fld := if b then F.ING_SSTAT_PATHB k else F.ING_SSTAT_PATHA k
    let live (k : Nat) (b : Bool) (t : State) : Prop := t.on (path k b) = true
      ∧ (s.get (F.ING_SSTAT_STATE k) = 3 → t.get (F.ING_SSTAT_STATE k) = 2) ∧ WordsKept [5] s t
    (¬ port → Answers c s (· = s))
    ∧ (port → parseEther bytes = none → dropped)
    ∧ (∀ f, normal → parseEther bytes = some f →
        (s.macAccepted i f = false → dropped)
        ∧ (s.macAccepted i f = true → f.type ≠ 0x0806 → f.type ≠ 0x0800 → dropped)
        ∧ (s.macAccepted i f = true → f.type = 0x0800 → parseIp f.payload = none → dropped)
        ∧ (s.macAccepted i f = true → f.type = 0x0806 →
          (asks f.payload → Answers c s (· = { u with sent := s.sent ++ [.ethernet i (etherFrame
            (BitVec.ofNat 48 (beAt f.payload 8 6)) (s.portMac i) 0x0806 ([0, 1, 8, 0, 6, 4, 0, 2]
              ++ beBytes 6 (s.portMac i).toNat ++ beBytes 4 (s.portIp i).toNat ++ slice f.payload 8 10))] }))
          ∧ (¬ asks f.payload → Answers c s (· = u)))
        ∧ (∀ p, s.macAccepted i f = true → f.type = 0x0800 → parseIp f.payload = some p →
          let member := p.dst ∈ s.groups i ∨ p.dst = 0xE0000001
          let v2 := s.ing.igmpV2.filter (· != i.val)
          (p.proto ≠ 2 → parseUdp p = none → dropped)
          ∧ (p.proto = 2 → (¬ member ∨ inetSum p.payload ≠ 0) → dropped)
          ∧ (p.proto = 2 → member → inetSum p.payload = 0 → beAt p.payload 0 1 = 0x11 → Answers c s
            (· = { u with ing := { s.ing with igmpV2 := if p.payload.length < 12 then i.val :: v2 else v2 } }))
          ∧ (p.proto = 2 → member → inetSum p.payload = 0 → beAt p.payload 0 1 ≠ 0x11 → Answers c s (· = u))))
    ∧ (∀ f, port → s.bootNet = true → parseEther bytes = some f →
        let boots (p : IpPacket) (d : Datagram) : Prop := parseIp f.payload = some p ∧ parseUdp p = some d ∧ i = 0
          ∧ f.type = 0x0800 ∧ d.dport = 30720
        ((∀ p d, ¬ boots p d) → dropped)
        ∧ (∀ p d, boots p d → Answers c s (· = u.hostDatagram ⟨i, f.src, p.src, BitVec.ofNat 16 d.sport,
            if p.dst = 0xFFFFFFFF then 0 else p.dst, s.bootMac⟩ d.data)))
    ∧ (∀ f p d, udp f p d →
        (toHost p d → hostMessageGood d.data = false → Answers c s (counts F.HST_SEQERR_COUNT))
        ∧ (toHost p d → Answers c s (· = u.hostDatagram
            ⟨i, f.src, p.src, BitVec.ofNat 16 d.sport, p.dst, s.portMac i⟩ d.data))
        ∧ (¬ toHost p d → toPtp d → Answers c s (· = u.ptpMessage i (s.sourceRx i) d.data))
        ∧ (¬ toHost p d → ¬ toPtp d → s.flowOf i p.dst d.dport = none → dropped)
        ∧ (¬ toHost p d → ¬ toPtp d → ∀ k b, s.flowOf i p.dst d.dport = some (k, b) →
          (parseRtp d.data = none → Answers c s (counts (F.ING_SBADPKT_COUNT k)))
          ∧ (∀ r, parseRtp d.data = some r →
            let check := (s.stream k).seqCheck r.seq
            let m := unwrapStamp s.now r.stamp
            let opened := (s.openFrames k).find? fun f => f.m == m
            let stamped := (s.openFrames k).find? fun f => f.m % 2 ^ 32 == r.stamp
            let px := r.rows.flatMap (s.segment k)
            let fresh := s.rtpOk k r = true ∧ check = 0
            let valid := s.on F.TIM_STAT_VALID = true
            let later := ∀ g, (s.stream k).lastGen = some g → genLater (s.frameGen k m) g = true
            let size := s.streamW k * ((s.streamH k + 7) / 8 * 8) * 4
            let base (fr : OpenFrame) : Nat := s.get (F.ING_SSTAGE_ADDR k) * 4096 + fr.slot * size
            let seen (t : State) : Prop := (t.stream k).seqs = (r.seq :: (s.stream k).seqs).take 4096
            (s.rtpOk k r = false → Answers c s (counts (F.ING_SBADPKT_COUNT k)))
            ∧ (s.rtpOk k r = true → check = 1 → Answers c s fun t =>
              live k b t ∧ Counted (F.ING_SDUP_COUNT k) 1 s t ∧ t.mem = s.mem ∧ t.ing = s.ing)
            ∧ (s.rtpOk k r = true → check = 2 → Answers c s fun t =>
              live k b t ∧ Counted (F.ING_SBADPKT_COUNT k) 1 s t ∧ t.mem = s.mem ∧ t.ing = s.ing)
            ∧ (k < 16 → fresh → ¬ valid → stamped = none → Answers c s fun t =>
              live k b t ∧ Counted (F.ING_SBADPKT_COUNT k) 1 s t ∧ t.mem = s.mem ∧ seen t)
            ∧ (k < 16 → fresh → ∀ fr, (if s.on F.TIM_STAT_VALID then opened else stamped) = some fr →
              fr.pixels = [] → px.length < s.streamW k * s.streamH k → Answers c s fun t =>
                live k b t ∧ seen t
                ∧ (∃ fr' ∈ (t.stream k).frames, fr'.m = fr.m ∧ fr'.pixels = px ∧ fr'.closed = false)
                ∧ (s.memSound = true → ∀ a, a < base fr ∨ base fr + size ≤ a → t.byte a = s.byte a))
            ∧ (k < 16 → fresh → valid → opened = none → m ∉ (s.stream k).refused → later → Answers c s fun t =>
              (t.stream k).lastGen = some (s.frameGen k m) ∧ t.get (F.ING_SSTAT_STATE k) = 2
              ∧ (∀ f ∈ (t.stream k).frames, f.m ≠ m → f.later.isSome = true) ∧ t.cores = s.cores ∧ t.nvj = s.nvj)
            ∧ (k < 16 → fresh → valid → opened = none → (m ∈ (s.stream k).refused ∨ ¬ later) → Answers c s fun t =>
              live k b t ∧ Counted (F.ING_SBADPKT_COUNT k) 1 s t ∧ m ∈ (t.stream k).refused
              ∧ (m ∉ (s.stream k).refused → Counted (F.ING_SFRDROP_COUNT k) 1 s t)
              ∧ (m ∈ (s.stream k).refused → t.get (F.ING_SFRDROP_COUNT k) = s.get (F.ING_SFRDROP_COUNT k))))))

/-- R219, R224, R229, R230, R233, R234, R238 to R240, R242, R243, R245, R246: a stream whose format and rate fit, and whose
handle the codec accepts, is enabled, and any other is refused; disabling abandons its frames; a lost stream and a silent
path set their events; an open frame closes SKEW milliseconds after the first packet of a later one, complete, filled or abandoned; a block row that is
present or closed is encoded into the generation's slot; a generation whose rows are written completes with EVFRAME; a
read of SLAST latches the capture instant. A quad's mode changes while its lanes are off. Reports, delay requests and a
transmitter's timeout follow their timers. -/
def Obligations.StreamsOpenCloseAndComplete : Prop :=
  ∀ (s : State) (i : Fin 16) (p : Fin 8) (q : Fin 2) (gen : BitVec 16) (row : BitVec 10) (pathB : Bool) (value : Word),
    s.memSound = true →
    let waits (c : Instr) : Prop := Answers c s (· = s)
    let tile := s.isTile = true
    let on := s.streamOn i = true
    let rate := s.streamRate i
    let sum := s.get F.ING_RATESUM_KPXS
    let fits := s.streamFits i = true ∧ rate ≤ 2000000 ∧ sum + rate ≤ 4000000 ∧ s.codecAccepts i = true
    let path := if pathB then F.ING_SSTAT_PATHB i else F.ING_SSTAT_PATHA i
    let rowOf := (s.stream i).frames.find? fun f => f.held && f.gen == gen.toNat
    let done := (s.stream i).frames.find? fun f => f.held && f.closed && f.gen == gen.toNat
    let handoff := Instr.blockRowHandoff i gen row
    let complete := Instr.generationComplete i gen
    let ready (f : OpenFrame) : Prop := row.toNat < s.blockRows i ∧ row.toNat ∉ f.rows
      ∧ (f.closed = true ∨ s.rowPresent i f row.toNat = true)
    let clean := s.poison = [] ∧ s.soft = [] ∧ ∀ ch, s.chFailed ch = false
    let block (f : OpenFrame) (x : Handle) (bx : Nat) : List Byte := encodeBlock x.fmt ((List.range 64).map fun k =>
      s.framePixel i f (min (s.streamW i - 1) (8 * bx + k % 8)) (min (s.streamH i - 1) (8 * row.toNat + k / 8)))
    let skew := Instr.frameCloseSkew i
    let due := (s.openFrames i).find? fun f => match f.later with
      | some at' => decide (at' + s.get (F.ING_SCTL_SKEW i) * 156250 ≤ s.tim.ticks)
      | none => false
    let closes (f : OpenFrame) (t : State) : Prop :=
      (t.stream i).frames = (s.stream i).frames.map fun e =>
        if e.m = f.m then { e with closed := true, inc := if s.frameFull i f then e.inc else true } else e
    let removes (f : OpenFrame) (t : State) : Prop :=
      (t.stream i).frames = (s.stream i).frames.filter fun e => e.m != f.m
    let still (t : State) : Prop := t.mem = s.mem ∧ t.cores = s.cores ∧ t.lnk = s.lnk
    let quadOff := ∀ k < 4, s.on (F.LAN_CTL_EN (4 * q + k)) = false
    let mode := getBits value 0 2
    let cap := (s.stream i).cap
    ((tile ∨ on) → waits (.streamEnable i))
    ∧ (¬ tile → ¬ on → ¬ fits → Answers (.streamEnable i) s (Sets [(F.ING_SSTAT_REFUSED i, 1)] [] s))
    ∧ (¬ tile → ¬ on → fits → Answers (.streamEnable i) s fun t =>
        Sets [(F.ING_SCTL_EN i, 1), (F.ING_SSTAT_REFUSED i, 0), (F.ING_SSTAT_STATE i, 1), (F.ING_RATESUM_KPXS, sum + rate)]
          [] { s with sent := t.sent } t)
    ∧ ((tile ∨ ¬ on) → waits (.streamDisable i))
    ∧ (¬ tile → on → Answers (.streamDisable i) s fun t =>
        t.on (F.ING_SCTL_EN i) = false ∧ t.get (F.ING_SSTAT_STATE i) = 0 ∧ t.on (F.ING_SSTAT_PATHA i) = false
        ∧ t.on (F.ING_SSTAT_PATHB i) = false ∧ t.get F.ING_RATESUM_KPXS = sum - rate ∧ (t.stream i).frames = []
        ∧ (t.stream i).lastGen = none ∧ (t.stream i).refused = [] ∧ still t ∧ WordsKept [5, 6, 12] s t)
    ∧ (¬ on → waits (.streamLoss i) ∧ waits (.pathSilence i pathB))
    ∧ (s.get (F.ING_SSTAT_STATE i) = 3 → waits (.streamLoss i))
    ∧ (on → s.get (F.ING_SSTAT_STATE i) ≠ 3 → Answers (.streamLoss i) s fun t =>
        t.get (F.ING_SSTAT_STATE i) = 3 ∧ t.on (F.ING_SSTAT_EVLOSS i) = true ∧ t.on (F.ING_SSTAT_PATHA i) = false
        ∧ t.on (F.ING_SSTAT_PATHB i) = false ∧ (∀ f ∈ (t.stream i).frames, f.closed = true)
        ∧ (t.stream i).lastGen = none ∧ still t ∧ WordsKept [5, 6, 12] s t)
    ∧ (on → s.on path = false → waits (.pathSilence i pathB))
    ∧ (on → s.on path = true → Answers (.pathSilence i pathB) s
        (Sets [(path, 0), (F.ING_SSTAT_EVPATH i, 1)] [241 + 2 * i.val] s))
    ∧ (due = none → waits skew)
    ∧ (∀ f, due = some f → Answers skew s fun t => still t
        ∧ (f.held = false → removes f t)
        ∧ (f.held = true → s.frameFull i f = true → closes f t)
        ∧ (f.held = true → s.frameFull i f = false → t.on (F.ING_SSTAT_EVERR i) = true
            ∧ (s.on (F.ING_SCTL_INCPOL i) = false → closes f t)
            ∧ (s.on (F.ING_SCTL_INCPOL i) = true → removes f t ∧ Counted (F.ING_SFRDROP_COUNT i) 1 s t)))
    ∧ (rowOf = none → waits handoff)
    ∧ (∀ f, rowOf = some f → (¬ ready f ∨ s.frameSlot i f = none) → waits handoff)
    ∧ (∀ f, rowOf = some f → ready f → ∀ x j, s.frameSlot i f = some (x, j) → Answers handoff s fun t =>
        (∀ e ∈ (t.stream i).frames, e.m = f.m → row.toNat ∈ e.rows)
        ∧ (∀ a, a < x.slotAddr j ∨ x.slotAddr j + x.slotSize ≤ a → row.toNat < x.wh → x.bw ≤ x.ww → t.byte a = s.byte a)
        ∧ (clean → fmtRaw x.fmt = false → 1 ≤ x.fmt → row.toNat < x.wh → x.bw ≤ x.ww →
            s.inMemory (x.slotAddr j) x.slotSize = true → ∀ bx < x.bw,
            t.bytes (x.blockAddr j (row.toNat * x.ww + bx)) (blockBytes x.fmt) = block f x bx
            ∧ t.present x j (row.toNat * x.ww + bx) = true)
        ∧ t.srf = s.srf ∧ t.cores = s.cores ∧ t.lnk = s.lnk)
    ∧ (done = none → waits complete)
    ∧ (∀ f, done = some f → s.frameSlot i f = none → Answers complete s fun t => removes f t ∧ still t)
    ∧ (∀ f, done = some f → ∀ x j, s.frameSlot i f = some (x, j) → Answers complete s fun t =>
        removes f t ∧ t.cores = s.cores ∧ t.lnk = s.lnk ∧ t.on (F.ING_SSTAT_EVFRAME i) = true
        ∧ t.srf = handlePut (s.get (F.ING_SHANDLE_HANDLE i))
          { x.modSlot j (fun e => { e with st := 3 }) with used := newestUsed x.used (f.gen, (x.slots.getD j Slot.empty).era) } s.srf
        ∧ t.rd (.ING_SLAST i) = BitVec.ofNat 32 (f.gen + b2n f.inc * 65536) ∧ (t.stream i).cap = f.m
        ∧ ((s.stream i).latched = false → t.rd (.ING_SCAPLO i) = BitVec.ofNat 32 f.m
            ∧ t.rd (.ING_SCAPHI i) = BitVec.ofNat 32 (f.m / 2 ^ 32)))
    ∧ (tile → waits (.slastRead i))
    ∧ (¬ tile → Answers (.slastRead i) s fun t => (t.stream i).latched = true
        ∧ t.rd (.ING_SCAPLO i) = BitVec.ofNat 32 cap ∧ t.rd (.ING_SCAPHI i) = BitVec.ofNat 32 (cap / 2 ^ 32)
        ∧ Changes [(Reg.ING_SCAPHI i).whole, (Reg.ING_SCAPLO i).whole] [] { s with ing := t.ing } t)
    ∧ ((tile ∨ ¬ quadOff) → waits (.qcfgWrite q value))
    ∧ (¬ tile → quadOff → Answers (.qcfgWrite q value) s (Sets ((F.ING_QCFG_MODE q, mode) ::
        (List.range 4).map fun k => (F.LAN_CTL_RATE (4 * q + k), if mode = 3 then 1 else 0)) [] s))
    ∧ ((tile ∨ s.groups p = [] ∨ s.maySend p = false ∨ s.sourcePort p = false) → waits (.igmpReport p))
    ∧ (¬ tile → s.groups p ≠ [] → s.maySend p = true → s.sourcePort p = true → Answers (.igmpReport p) s fun t =>
        ∃ l : List Sent, t = { s with sent := s.sent ++ l }
          ∧ l.length = (if p.val ∈ s.ing.igmpV2 then (s.groups p).length else 1))
    ∧ (s.ing.ptp.selected = none → waits .delayReqSend ∧ waits .ptpAnnounceTimeout)
    ∧ (∀ n k, s.ing.ptp.selected = some (n, k) →
        (s.maySend n = false → waits .delayReqSend)
        ∧ (s.maySend n = true → Answers .delayReqSend s fun t =>
          t.ing = { s.ing with ptp := { s.ing.ptp with
            request := some (s.ing.ptp.nextSeq, s.sourceTx n), nextSeq := (s.ing.ptp.nextSeq + 1) % 65536 } }
          ∧ t = { s with ing := t.ing, sent := t.sent })
        ∧ Answers .ptpAnnounceTimeout s fun t =>
          t.ing.ptp.heard = s.ing.ptp.heard.filter (fun e => e.key != (n, k)) ∧ t.ing.ptp.selected ≠ some (n, k)
          ∧ still t ∧ WordsKept [3, 5, 12] s t)

/-! ### The sender pair -/

/-- R381, R382, R384, R387 to R391, R394, R396 to R398, R401, Tables 15.1 to 15.4: a sender of a pair becomes lead or
shadow by a write where the last heartbeats allow it; heartbeats are sent, accepted and missed; an outranked lead is
deposed; a shadow takes over with a higher PEPOCH and every ring that is up, and adopts the mirrored tags; a handover is
armed, takes place at its time if the shadow was ready 100 µs before, and is refused if not, or ends with its lead. A
shadow keeps the lead's host records, mirrored tags and checkpoints, and a lead by handover the records up to the last;
FWD hands cells on; a lone token counts as a mismatch. Of two leads with equal PEPOCH the one with the lower device
identity stays; the partner's is a constant of Config (log entry 8). -/
def Obligations.ThePairKeepsOneLeadAndItsMirror : Prop :=
  ∀ (s : State) (role : BitVec 2) (ready ho out xfer toLead : Bool) (epoch bseq sec ns : Word) (chain : Fin 8)
    (tag : BitVec 12) (tgen : BitVec 4) (position : BitVec 7) (req : Byte) (hostTag seq : BitVec 16) (addr : BitVec 40)
    (words off : BitVec 24) (pages : BitVec 13) (units data inner : List (BitVec 64)),
    s.memSound = true →
    let waits (c : Instr) : Prop := Answers c s (· = s)
    let ev (b : Nat) : Fld := ⟨.MIR_EV, b, 1⟩
    let sender := s.isTile = false ∧ s.paired = true
    let own := s.get F.MIR_STAT_ROLE
    let lead := own = 1
    let shadow := own = 2
    let leadHeard := s.hbRecent s.mir.lastLead = true
    let mirrors := s.isTile = false ∧ shadow
    let higher := max (s.rd .MIR_PEPOCH).toNat s.mir.partnerEpoch.toNat + 1
    let beat := Instr.heartbeat role ready ho epoch bseq sec ns
    let heard (t : State) : Prop := t.mir.lastHb = some s.tim.ticks ∧ t.mir.partnerEpoch = epoch
      ∧ t.mir.partnerReady = ready ∧ (role = 1 → t.mir.lastLead = some s.tim.ticks) ∧ t.on F.MIR_STAT_PARTNER = true
      ∧ t.get F.MIR_STAT_PROLE = role.toNat ∧ t.mem = s.mem ∧ t.cores = s.cores
    let rises (v : State) (handed : Bool) (t : State) : Prop := t.get F.MIR_STAT_ROLE = 1 ∧ t.rd .MIR_PEPOCH = s.rd .MIR_PEPOCH + 1
      ∧ t.get F.MIR_STAT_READYAT = v.get F.MIR_STAT_READY ∧ t.on F.MIR_STAT_READY = false
      ∧ t.get F.TIM_CFG_SRC = s.get F.MIR_CFG_TSRC ∧ t.on ⟨.TIM_EV, 5, 1⟩ = true
      ∧ t.on F.TIM_STAT_VALID = s.on F.TIM_STAT_VALID ∧ t.tim = s.tim
      ∧ (∀ r < 8, s.up r = true → t.rd (.LNK_EPOCH r) = s.rd (.LNK_EPOCH r) + 1 ∧ (t.port r).announcing = true
        ∧ t.on (F.LNK_RING_SPLIT r) = s.on F.LNK_CFG_BEND)
      ∧ (∀ r < 8, s.up r = false → t.rd (.LNK_EPOCH r) = s.rd (.LNK_EPOCH r))
      ∧ t.mir.tags = [] ∧ t.mir.handover = none ∧ t.mir.hostLate = handed ∧ Counted F.MIR_TAKES_COUNT 1 s t ∧ t.on (ev 0) = true
      ∧ t.mem = s.mem ∧ t.cores = s.cores
    let abandons (t : State) : Prop := s.mir.handover ≠ none → t.get F.MIR_STAT_HORES = 4 ∧ t.on (ev 6) = true
      ∧ t.on F.MIR_STAT_HOARMED = false
    let takes (t : State) : Prop := rises s false t ∧ abandons t
      ∧ (∀ m ∈ s.mir.tags, ∃ e ∈ t.lnk.tags, e.chain = m.chain ∧ e.tag = m.tag ∧ e.probing = true)
    let auto := shadow ∧ s.on F.MIR_CFG_AUTOTAKE = true
    let row := F.MIR_HRHEAD_SLOT
    let room := s.on F.MIR_HRBASE_EN = true ∧ (s.get row + 1) % 64 ≠ s.get F.MIR_HRTAIL_SLOT
    let u (i : Nat) : BitVec 64 := units.getD i 0
    let mt : MirTag := ⟨chain, tag.toNat, tgen.toNat, position.toNat, req.toNat, hostTag.toNat, addr.toNat, words.toNat, xfer⟩
    let rest := s.mir.tags.filter fun e => !(e.chain == chain.val && e.tag == tag.toNat)
    let partner := s.get F.MIR_STAT_PROLE = 2 ∧ s.on F.MIR_STAT_PARTNER = true ∧ s.mir.partnerReady = true
    let records := s.isTile = false ∧ (shadow ∨ (lead ∧ s.mir.hostLate = true))
    let remain := uf (u 1) 32 16
    let slotAt := s.get F.MIR_HRBASE_ADDR * 4096 + s.get row * 2048
    let held := 0 < remain
    let clean := s.poison = [] ∧ s.soft = [] ∧ ∀ ch, s.chFailed ch = false
    let journal := Instr.journal out chain tag tgen position req hostTag addr words xfer
    let record := Instr.hostrec units
    let part := Instr.ckdata seq off data
    let last := Instr.ckdone seq pages
    let ckAt := s.get F.MIR_CKDST_ADDR * 4096 + seq.toNat % 2 * 0x1000000 + off.toNat
    let had := match s.mir.ckRx with
      | some (q, n) => if q = seq.toNat then n else 0
      | none => 0
    let fwd := Instr.fwd chain toLead inner
    ((¬ sender ∨ own = 3 ∨ leadHeard) → waits .becomeLead)
    ∧ (sender → own ≠ 3 → ¬ leadHeard → Answers .becomeLead s fun t => t.get F.MIR_STAT_ROLE = 1
        ∧ t.on F.MIR_STAT_READY = false ∧ (t.rd .MIR_PEPOCH).toNat = higher % 2 ^ 32
        ∧ Changes [F.MIR_STAT_ROLE, F.MIR_STAT_READY, (Reg.MIR_PEPOCH).whole] [] s t)
    ∧ ((¬ sender ∨ ¬ leadHeard) → waits .becomeShadow)
    ∧ (sender → leadHeard → Answers .becomeShadow s fun t => t.get F.MIR_STAT_ROLE = 2
        ∧ abandons t ∧ Changes (F.MIR_STAT_ROLE :: F.MIR_STAT_READY
            :: if s.mir.handover = none then [] else [F.MIR_STAT_HOARMED, F.MIR_STAT_HORES, ev 6])
          (if s.mir.handover = none then [] else [202]) { s with
            mir := { s.mir with handover := none, hostLate := false, lastMatch := [], tokens := [], runs := [] } } t)
    ∧ (¬ auto → waits (.takeover none))
    ∧ (auto → Answers (.takeover none) s takes)
    ∧ (∀ r : Fin 8, let named := s.on F.MIR_CFG_SILEN = true ∧ s.up r = true ∧ s.split r = false
        (auto → named → Answers (.takeover (some r)) s takes) ∧ ((¬ auto ∨ ¬ named) → waits (.takeover (some r))))
    ∧ (¬ lead → waits .handover)
    ∧ (lead → Answers .handover s (Sets [(F.MIR_STAT_HOARMED, 1)] [] { s with mir := { s.mir with
        handover := some (s.handoverTime (s.rd .MIR_HOSEC).toNat (s.get F.MIR_HONS_NS), none) } }))
    ∧ (s.mir.handover = none → waits .handoverAtTh)
    ∧ (∀ th since, s.mir.handover = some (th, since) →
        let ready := ∃ at', since = some at' ∧ at' + 100000 * 65536 ≤ th
        let ends (res : Nat) : Prop := Answers .handoverAtTh s (Sets
          [(F.MIR_STAT_HOARMED, 0), (F.MIR_STAT_HORES, res), (ev 6, 1)] [202] { s with mir := { s.mir with handover := none } })
        ((s.now < th ∨ (¬ lead ∧ ¬ shadow)) → waits .handoverAtTh)
        ∧ (th ≤ s.now → (lead ∨ shadow) → since = none → ends 2)
        ∧ (th ≤ s.now → (lead ∨ shadow) → ∀ at', since = some at' → th < at' + 100000 * 65536 → ends 3)
        ∧ (th ≤ s.now → lead → ready → Answers .handoverAtTh s fun t => t.get F.MIR_STAT_ROLE = 2
          ∧ t.get F.MIR_STAT_HORES = 1 ∧ t.on (ev 6) = true ∧ t.mir.handover = none ∧ t.mem = s.mem ∧ t.lnk = s.lnk)
        ∧ (th ≤ s.now → shadow → ready → Answers .handoverAtTh s fun t => rises s true t
          ∧ t.get F.MIR_STAT_HORES = 1 ∧ t.on (ev 6) = true ∧ t.lnk.tags = s.lnk.tags))
    ∧ ((own = 0 ∨ s.up 8 = false) → waits .heartbeatSend)
    ∧ (own ≠ 0 → s.up 8 = true → Answers .heartbeatSend s fun t =>
        t = { s with mir := { s.mir with hbSeq := s.mir.hbSeq + 1, handover := t.mir.handover }, lnk := t.lnk }
        ∧ PortsKept [8] s t ∧ ((¬ lead ∨ s.mir.handover = none) → t.mir.handover = s.mir.handover)
        ∧ (lead → ∀ th since, s.mir.handover = some (th, since) →
          t.mir.handover = some (th, since.or (if partner then some s.now else none)))
        ∧ (s.on F.PWR_STAT_MIDNIGHT = false → (t.port 8).vc1 = (s.port 8).vc1 ++ [⟨(Cell.pair [
            headUnit 0x30 3 [(46, own), (45, s.get F.MIR_STAT_READY), (44, b2n (s.on F.MIR_STAT_HOARMED)),
              (0, (s.rd .MIR_PEPOCH).toNat)], unitOf [(32, (s.mir.hbSeq + 1) % 2 ^ 32)],
            unitOf [(32, (s.rd .MIR_HOSEC).toNat), (0, s.get F.MIR_HONS_NS)]]).units, none, false, none⟩]))
    ∧ (¬ sender → waits beat)
    ∧ (sender → ¬ lead → ¬ shadow → Answers beat s heard)
    ∧ (sender → lead → (role ≠ 1 ∨ epoch.toNat < (s.rd .MIR_PEPOCH).toNat) → Answers beat s fun t =>
        heard t ∧ t.get F.MIR_STAT_ROLE = 1 ∧ t.mir.hostLate = (s.mir.hostLate && decide (role = 1)))
    ∧ (sender → lead → role = 1 → (s.rd .MIR_PEPOCH).toNat < epoch.toNat → Answers beat s fun t => heard t
        ∧ t.get F.MIR_STAT_ROLE = 3 ∧ t.on (ev 1) = true ∧ abandons t ∧ (∀ p < 8, (t.port p).announcing = false ∧ t.queue p = []))
    ∧ (sender → lead → role = 1 → epoch = s.rd .MIR_PEPOCH → Answers beat s fun t => heard t
        ∧ t.get F.MIR_STAT_ROLE = if Config.partnerId.toNat < s.devid.toNat then 3 else 1)
    ∧ (sender → shadow → role = 1 → Answers beat s fun t => heard t ∧ t.get F.MIR_STAT_ROLE = 2
        ∧ (ho = false → t.mir.handover = s.mir.handover)
        ∧ (ho = true → let th := s.handoverTime sec.toNat ns.toNat
          (∀ at', s.mir.handover = some (th, some at') → t.mir.handover = some (th, some at'))
          ∧ ((∀ at', s.mir.handover ≠ some (th, some at')) →
            t.mir.handover = some (th, if s.on F.MIR_STAT_READY then some s.now else none))))
    ∧ (sender → shadow → role ≠ 1 → (s.mir.handover ≠ none ∨ ¬ auto) → Answers beat s fun t =>
        heard t ∧ t.get F.MIR_STAT_ROLE = 2)
    ∧ (sender → shadow → role ≠ 1 → s.mir.handover = none → auto → Answers beat s fun t =>
        t.get F.MIR_STAT_ROLE = 1 ∧ t.rd .MIR_PEPOCH = s.rd .MIR_PEPOCH + 1 ∧ t.mir.tags = [])
    ∧ (s.isTile = true → waits .heartbeatMiss)
    ∧ (s.isTile = false → Answers .heartbeatMiss s fun t => Counted F.MIR_HBMISS_COUNT 1 s t
        ∧ (s.hbRecent s.mir.lastHb = false → t.on F.MIR_STAT_PARTNER = false)
        ∧ Changes [F.MIR_HBMISS_COUNT, F.MIR_STAT_PARTNER, ev 2]
          (if s.hbRecent s.mir.lastHb = false ∧ s.on F.MIR_STAT_PARTNER = true then [198] else []) { s with
            mir := { s.mir with hostLate := s.mir.hostLate && s.hbRecent s.mir.lastHb }, sent := t.sent } t)
    ∧ (¬ mirrors → ∀ c ∈ [journal, part, last], waits c) ∧ (¬ records → waits record)
    ∧ (records → Answers record s fun t => t.on F.HST_STAT_LEASED = decide held
        ∧ t.get F.HST_STAT_CARRIER = (if held then 2 else 0)
        ∧ t.get F.HST_LEASE_ID = uf (u 1) 48 16 ∧ (t.rd .HST_HOLDER).toNat = (if held then uf (u 2) 32 32 else 0)
        ∧ t.get F.HST_HOLDPORT_PORT = (if held then uf (u 2) 16 16 else 0) ∧ t.hst.expected = some (uf (u 1) 0 32)
        ∧ t.hst.expiry = s.tim.ticks + remain * 156250 ∧ t.cores = s.cores ∧ t.lnk = s.lnk
        ∧ (∃ q, t.hst.holderPeer = some q ∧ q.ip.toNat = uf (u 2) 32 32 ∧ q.udp.toNat = uf (u 2) 16 16)
        ∧ (room → t.get row = (s.get row + 1) % 64 ∧ t.on (ev 4) = true
          ∧ (clean → s.inMemory slotAt (8 * units.length) = true → leAt (t.bytes slotAt 8) 4 4 = uf (u 0) 0 32)
          ∧ ∀ a, (a < slotAt ∨ slotAt + 8 + 8 * units.length ≤ a) → t.byte a = s.byte a)
        ∧ (¬ room → t.get row = s.get row ∧ t.mem = s.mem ∧ Counted F.MIR_HRDROP_COUNT 1 s t
          ∧ t.on F.MIR_STAT_HOSTGAP = true ∧ (shadow → t.on F.MIR_STAT_READY = false)))
    ∧ (mirrors → Answers journal s
        (· = { s with mir := { s.mir with tags := if out then rest ++ [mt] else rest } }))
    ∧ (mirrors → Answers part s fun t => t.mir = { s.mir with ckRx := some (seq.toNat, had + 8 * data.length) }
        ∧ (∀ a, a < ckAt ∨ ckAt + 8 * data.length ≤ a → t.byte a = s.byte a) ∧ t.cores = s.cores ∧ t.lnk = s.lnk
        ∧ (s.poison = [] → s.soft = [] → (∀ ch, s.chFailed ch = false) → s.inMemory ckAt (8 * data.length) = true →
          t.bytes ckAt (8 * data.length) = unitsToBytes data))
    ∧ (mirrors → s.mir.ckRx = some (seq.toNat, pages.toNat * 4096) → Answers last s (Sets
        [(F.MIR_CKSTAT_SEQ, seq.toNat), (ev 5, 1)] [201] { s with mir := { s.mir with ckRx := none } }))
    ∧ (mirrors → s.mir.ckRx ≠ some (seq.toNat, pages.toNat * 4096) → waits last)
    ∧ ((s.isTile = true ∨ ¬ lead ∨ s.on F.MIR_CKSTAT_BUSY = true) → waits .ckgo)
    ∧ (s.isTile = false → lead → s.on F.MIR_CKSTAT_BUSY = false →
        (s.up 8 = true → Answers .ckgo s (Sets [(F.MIR_CKSTAT_BUSY, 1)] [] { s with mir := { s.mir with
          ckTx := some ((s.get F.MIR_CKSTAT_SEQ + 1) % 65536, 0) } }))
        ∧ (s.up 8 = false → Answers .ckgo s (Sets [(F.MIR_CKSTAT_FAIL, 1)] [] s)))
    ∧ (¬ sender → waits fwd)
    ∧ (sender → Cell.decode inner = none → Answers fwd s fun t => Counted (F.LNK_DROP_COUNT 8) 1 s t
        ∧ Changes [F.LNK_DROP_COUNT 8, F.LNK_PSTAT_EVTXN 8] [205] s t)
    ∧ (sender → ∀ x, Cell.decode inner = some x →
        (toLead = true → lead → Answers fwd s (· = s.senderUp chain x))
        ∧ (((toLead = true ∧ ¬ lead) ∨ (toLead = false ∧ ¬ shadow)) → waits fwd)
        ∧ (∀ r q, x = .request r q → toLead = false → shadow → s.up chain = true → s.on F.PWR_STAT_MIDNIGHT = false →
          Answers fwd s fun t => t = { s with lnk := { s.lnk with ports := t.lnk.ports } }
            ∧ (x.vc ≠ 2 → (t.port chain).vc1 = (s.port chain).vc1 ++ [⟨x.units, none, false, none⟩])
            ∧ (x.vc = 2 → (t.port chain).vc2 = (s.port chain).vc2 ++ [⟨x.units, none, false, none⟩])))
    ∧ (let found := s.mir.tokens.find? fun t => t.ring == chain.val
      (found = none → waits (.silentTokenTimeout chain))
      ∧ ∀ k, found = some k → Answers (.silentTokenTimeout chain) s fun t => t.mir = { s.mir with
            tokens := s.mir.tokens.erase k
            lastMatch := (chain.val, false) :: s.mir.lastMatch.filter fun e => e.1 != chain.val }
          ∧ Counted F.MIR_XCERR_COUNT 1 s t ∧ t.on (ev 3) = true ∧ t.on F.MIR_XCLAST_TOKEN = true
          ∧ t.get F.MIR_XCLAST_CHAIN = chain.val
          ∧ Changes [F.MIR_XCERR_COUNT, (Reg.MIR_XCLAST).whole, ev 3, F.MIR_STAT_READY] [199] { s with mir := t.mir } t)

/-! ### DRAM -/

/-- R403, R404, R406, R407, R410 to R414, R417 to R422, R558, Tables 16.1, 16.3: TRAIN starts both channels, or fails
them for a configuration that is not listed; a channel completes its training or fails with its step, and the second one
gives SIZE, the remaps of the repair map and READY, and leaves patterns in the first beats of row 0 and of the rows of a
power of two. A refresh that falls due is issued with those postponed, or postponed, or as the ninth issued alone; ZQCS
goes to every rank each 128 ms. The scrubber writes a corrected beat back, a
parity alert is replayed or fails the channel, neighbours of an activated row are activated, a row is repaired or
remapped, and self-refresh is entered, committed to and left. The content of DRAM after TRAIN, the patterns and a repaired
row are the model's choice (log entries 3 and 1). -/
def Obligations.DramTrainsKeepsAndRepairs : Prop :=
  ∀ (s : State) (ch : Fin 2) (beat : BitVec 30) (width ranks rank urgent replay done : Bool) (dens bg bank : BitVec 2)
    (meets fault : BitVec 3) (row : BitVec 17) (value : Word) (entry : BitVec 6),
    s.memSound = true →
    let waits (c : Instr) : Prop := Answers c s (· = s)
    let ev (c b : Nat) : Fld := ⟨.MEM_CHEV c, b, 1⟩
    let state := F.MEM_CHSTAT_STATE
    let cfg := (s.get F.MEM_CFG_WIDTH, s.get F.MEM_CFG_DENS, s.get F.MEM_CFG_RANKS)
    let listed := cfg ∈ [(0, 0, 0), (0, 0, 1), (0, 1, 0), (1, 1, 0), (1, 1, 1), (1, 2, 0)]
    let big := cfg ∈ [(0, 0, 1), (0, 1, 0), (1, 1, 1), (1, 2, 0)]
    let idle := s.get (state 0) = 0 ∧ s.get (state 1) = 0
    let div := 4 + min 2 (s.get F.MEM_CFG_RATE)
    let trained := Instr.trainingComplete ch width dens ranks meets fault
    let fails (n : Nat) : Prop :=
      Answers trained s (Sets [(state ch, 3), (F.MEM_CHSTAT_FAILSTEP ch, n), (ev ch 3, 1)] [355 + 8 * ch] s)
    let shape := s.get F.MEM_CFG_WIDTH = b2n width ∧ s.get F.MEM_CFG_RANKS ≤ b2n ranks
    let fits := s.get F.MEM_CFG_DENS ≤ dens.toNat
    let step := clampN 3 6 meets.toNat
    let ready := s.on F.MEM_STAT_READY = true
    let sr := s.get F.MEM_STAT_SR
    let scrub := Instr.patrolScrub ch beat
    let at' := beat.toNat * 8 / 4096 * 8192 + ch * 4096 + beat.toNat * 8 % 4096
    let scrubs := ready ∧ s.get F.MEM_SCRUB_HOURS ≠ 0 ∧ sr = 0 ∧ s.inMemory at' 8 = true
    let gate := F.CLK_DSTAT_GATED 1
    let wakes := sr ≠ 0 ∧ s.on F.CLK_STAT_COAST = false
    let reached := s.get (F.MEM_CETHR_COUNT ch) ≠ 0
      ∧ min (2 ^ (F.MEM_CECNT_COUNT ch).n - 1) (s.get (F.MEM_CECNT_COUNT ch) + 1) = s.get (F.MEM_CETHR_COUNT ch)
    let alert := Instr.parityAlert ch replay
    let chan (t : State) (x : DramChan) : Prop := t.dram[ch] = x ∧ ∀ c : Fin 2, c ≠ ch → t.dram[c] = s.dram[c]
    let replays := if replay = true then s.dram[ch].replays + 1 else 0
    let active := ready ∧ s.get F.MEM_NBR_PROB ≠ 0 ∧ sr = 0
    let phys (r : Nat) : Nat :=
      if r.testBit (s.get (F.MEM_ADJ_SEL ch)) then r ^^^ s.get (F.MEM_ADJ_MASK ch) else r
    let rows := 2 ^ (s.get F.MEM_CFG_DENS + 15)
    let permitted := s.bot.dawned = false ∨ s.get F.BOT_LCS_STATE = 1 ∨ s.get F.BOT_LCS_STATE = 3
    let word := (s.rd (.MEM_PPR ch) &&& 0xFF000000) ||| (value &&& 0x00FFFFFE)
    let repair := Instr.ppr ch value
    let pprBusy := F.MEM_CHSTAT_PPRBUSY ch
    let map := Instr.remap ch entry
    let mapGoes := s.get F.MEM_CFG_RSV = 1 ∧ s.on (F.MEM_REMAP_VALID ch entry.toNat) = false
      ∧ s.on (F.MEM_CHSTAT_RMBUSY ch) = false ∧ ready
    let first (c k g b p : Nat) : Nat := localAddr c (s.rowBase (p + b * 2 ^ 17 + g * 2 ^ 19 + k * 2 ^ 21))
    let patterned (t : State) : State :=
      { s with mem := t.mem, poison := t.poison, soft := t.soft, dram := t.dram, freeCtr := t.freeCtr }
    let zqDue (c : Fin 2) := s.dram[c].zqAt + 20000000 ≤ s.tim.ticks
    let zq (c : Fin 2) : List Sent :=
      if zqDue c then (List.range (s.get F.MEM_CFG_RANKS + 1)).map fun k => .zqcs c k else []
    let r := b2n rank
    let fitted := r ≤ s.get F.MEM_CFG_RANKS
    let due := (if s.on F.MEM_CFG_REF2X then 39000 else 78000) ≤ (s.tim.ticks - s.dram[ch].refreshed.getD r 0) * 64
    let owed := s.dram[ch].postponed.getD r 0
    let issued := if urgent = false then owed + 1 else if owed < 8 then 0 else 1
    let left := if urgent = false then 0 else if owed < 8 then owed + 1 else 8
    let srEnds (n : Nat) (t : State) : Prop := t.get F.MEM_STAT_SR = n ∧ t.on (ev 0 6) = true ∧ t.on (ev 1 6) = true
    (¬ idle → waits .train)
    ∧ (idle → ¬ listed → Answers .train s (Sets [(state 0, 3), (state 1, 3), (F.MEM_CHSTAT_FAILSTEP 0, 9),
        (F.MEM_CHSTAT_FAILSTEP 1, 9), (ev 0 3, 1), (ev 1 3, 1)] [355, 363] { s with ddrDiv := div }))
    ∧ (idle → listed → Answers .train s fun t => Sets [(state 0, 1), (state 1, 1)] []
          { s with ddrDiv := div, mem := t.mem, poison := t.poison, soft := t.soft } t
        ∧ ∀ a, inDram a = false → t.byte a = s.byte a)
    ∧ (s.get (state ch) ≠ 1 → waits trained)
    ∧ (s.get (state ch) = 1 → shape → fits → fault ≠ 0 → fails fault.toNat)
    ∧ (s.get (state ch) = 1 → shape → ¬ fits → fails (if fault = 0 then 7 else min fault.toNat 7))
    ∧ (s.get (state ch) = 1 → ¬ shape → fails (if fault = 0 then step else min fault.toNat step))
    ∧ (s.get (state ch) = 1 → shape → fits → fault = 0 →
        (s.get (state (1 - ch.val)) ≠ 2 → Answers trained s (Sets [(state ch, 2)] [] s))
        ∧ (s.get (state (1 - ch.val)) = 2 → Answers trained s fun t => t.get (state ch) = 2 ∧ t.on F.MEM_STAT_READY = true
          ∧ (∀ c : Fin 2, t.dram[c] = { s.dram[c] with
            postponed := [0, 0], refreshed := [s.tim.ticks, s.tim.ticks], zqAt := s.tim.ticks })
          ∧ (∀ a, (∀ c < 2, ∀ k < 2 ^ s.get F.MEM_CFG_RANKS, ∀ g < 2 ^ (2 - s.get F.MEM_CFG_WIDTH), ∀ b < 4,
              ∀ p ∈ 0 :: (List.range (s.get F.MEM_CFG_DENS + 15)).map (2 ^ ·),
              a < first c k g b p ∨ first c k g b p + 8 ≤ a) → t.byte a = s.byte a)
          ∧ (listed → t.get F.MEM_SIZE_MIB
            = ((if big then 0x4000 else 0x2000) - s.get F.MEM_CFG_RSV) % 2 ^ F.MEM_SIZE_MIB.n)
          ∧ t = { patterned t with regs := t.regs } ∧ WordsKept [4, 12, 14] s t
          ∧ (s.asr.map.dram = [] → Changes ([state ch, F.MEM_SIZE_MIB, F.MEM_STAT_READY, gate]
            ++ if wakes then [F.MEM_STAT_SR, ev 0 6, ev 1 6] else []) (if wakes then [358, 366] else []) (patterned t) t)
          ∧ (s.asr.map.dram.length ≤ 2 → (∀ c < 2, ∀ e < 64, s.on (F.MEM_REMAP_VALID c e) = false) →
            ∀ x ∈ s.asr.map.dram, ∃ e < 64, t.rd (.MEM_REMAP (bits x 22 1) e) = BitVec.ofNat 32 (x % 2 ^ 22 + 2 ^ 31))))
    ∧ ((¬ ready ∨ sr = 2) → waits .zqcs)
    ∧ (ready → sr ≠ 2 → Answers .zqcs s fun t => t = { s with dram := t.dram, sent := s.sent ++ zq 0 ++ zq 1 }
        ∧ ∀ c : Fin 2, t.dram[c] = { s.dram[c] with zqAt := if zqDue c then s.tim.ticks else s.dram[c].zqAt })
    ∧ ((¬ ready ∨ sr = 2 ∨ ¬ fitted ∨ ¬ due) → waits (.dramRefresh ch rank urgent))
    ∧ (ready → sr ≠ 2 → fitted → due → Answers (.dramRefresh ch rank urgent) s fun t =>
        t = { s with dram := t.dram, sent := s.sent ++ List.replicate issued (Sent.refresh ch r) }
        ∧ chan t { s.dram[ch] with
          postponed := modAt r (fun _ => left) s.dram[ch].postponed
          refreshed := modAt r (fun _ => s.tim.ticks) s.dram[ch].refreshed })
    ∧ (¬ scrubs → waits scrub)
    ∧ (scrubs → s.bad at' = false → at' ∉ s.soft → Answers scrub s (Sets [(gate, 0)] [] s))
    ∧ (scrubs → s.bad at' = false → at' ∈ s.soft → Answers scrub s fun t =>
        Changes [F.MEM_CECNT_COUNT ch, ev ch 0, gate] (if reached then [352 + 8 * ch] else [])
          { s with soft := s.soft.filter (· != at') } t
        ∧ Counted (F.MEM_CECNT_COUNT ch) 1 s t ∧ (reached → t.on (ev ch 0) = true))
    ∧ (scrubs → s.bad at' = true → Answers scrub s fun t =>
        Changes [F.MEM_UECNT_COUNT ch, F.MEM_ECCLOG_ADDR ch, F.MEM_ECCLOG_POISON ch, F.MEM_ECCLOG_VALID ch, ev ch 1, gate]
          [353 + 8 * ch] s t
        ∧ Counted (F.MEM_UECNT_COUNT ch) 1 s t ∧ t.get (F.MEM_ECCLOG_ADDR ch) = beat.toNat
        ∧ t.on (F.MEM_ECCLOG_VALID ch) = true ∧ t.on (ev ch 1) = true)
    ∧ (s.get (state ch) ≠ 2 → waits alert)
    ∧ (s.get (state ch) = 2 → replays < 4 → Answers alert s fun t => t = { s with dram := t.dram }
        ∧ chan t { s.dram[ch] with alert := true, replays := replays })
    ∧ (s.get (state ch) = 2 → 4 ≤ replays → Answers alert s fun t =>
        Sets [(state ch, 3), (F.MEM_CHSTAT_FAILSTEP ch, 8), (ev ch 3, 1)] [355 + 8 * ch] { s with dram := t.dram } t
        ∧ chan t { s.dram[ch] with alert := false, replays := 0 })
    ∧ (s.dram[ch].alert = false → waits (.parityAlertEnd ch))
    ∧ (s.dram[ch].alert = true → Answers (.parityAlertEnd ch) s fun t =>
        Changes [F.MEM_CAPAR_COUNT ch, ev ch 2] [354 + 8 * ch] { s with dram := t.dram } t
        ∧ chan t { s.dram[ch] with alert := false } ∧ Counted (F.MEM_CAPAR_COUNT ch) 1 s t ∧ t.on (ev ch 2) = true)
    ∧ (¬ active → waits (.neighbourRefresh ch rank bg bank row))
    ∧ (active → (s.get (F.MEM_ADJ_MASK ch)).testBit (s.get (F.MEM_ADJ_SEL ch)) = false →
        Answers (.neighbourRefresh ch rank bg bank row) s fun t => ∃ l : List Nat,
          Changes [F.MEM_NBRCNT_COUNT ch] []
            { s with sent := s.sent ++ l.map (Sent.activate ch (b2n rank) bg.toNat bank.toNat) } t
          ∧ Counted (F.MEM_NBRCNT_COUNT ch) 1 s t
          ∧ ∀ r, r ∈ l ↔ r < rows ∧ phys r < rows ∧ (phys r = phys row.toNat + 1 ∨ phys r + 1 = phys row.toNat))
    ∧ (s.on pprBusy = true → Answers repair s (Sets [((Reg.MEM_PPR ch).whole, word.toNat)] [] s))
    ∧ (s.on pprBusy = false → permitted → Answers repair s fun t =>
        let base := s.rowBase (pprRow word)
        Sets [((Reg.MEM_PPR ch).whole, word.toNat), (pprBusy, 1)] []
          { s with dram := t.dram, mem := t.mem, poison := t.poison, soft := t.soft, freeCtr := t.freeCtr } t
        ∧ chan t { s.dram[ch] with ppr := some word }
        ∧ (s.remaps ch = [] → ∀ a, (∀ p ∈ [base, base + 4096], a < localAddr ch p ∨ localAddr ch p + 4096 ≤ a) →
          t.byte a = s.byte a))
    ∧ (s.on pprBusy = false → ¬ permitted → Answers repair s fun t => Changes [(Reg.MEM_PPR ch).whole] [] s t
        ∧ t.get (F.MEM_PPR_RESULT ch) = 3 ∧ getBits (t.rd (.MEM_PPR ch)) 0 24 = getBits word 0 24)
    ∧ (s.dram[ch].ppr = none → waits (.pprComplete ch done))
    ∧ (∀ w, s.dram[ch].ppr = some w → Answers (.pprComplete ch done) s fun t =>
        t.on pprBusy = false ∧ t.get (F.MEM_PPR_RESULT ch) = (if done then 1 else 2) ∧ t.on (ev ch 5) = true
        ∧ chan t { s.dram[ch] with ppr := none } ∧ t.cores = s.cores ∧ t.lnk = s.lnk ∧ t.mem = s.mem
        ∧ t.asr.map = { s.asr.map with
          hppr := if done = true ∧ w.getLsbD 1 = true then min 15 (s.asr.map.hppr + 1) else s.asr.map.hppr })
    ∧ (¬ mapGoes → waits map)
    ∧ (mapGoes → Answers map s fun t =>
        let base := s.rowBase (s.rd (.MEM_REMAP ch entry.toNat)).toNat
        let mine (a : Nat) : Bool := inDram a && channelOf a == ch && channelAddr a / 8192 == base / 8192
        Sets [(F.MEM_CHSTAT_RMBUSY ch, 1)] [] { s with dram := t.dram, poison := t.poison, soft := t.soft } t
        ∧ (∀ a ∈ t.soft, mine a = false) ∧ t.poison = s.poison.map (fun x => if mine x.1 then (x.1, true) else x)
        ∧ chan t { s.dram[ch] with remap := some (entry.toNat, s.rd (.MEM_REMAP ch entry.toNat)) })
    ∧ (s.dram[ch].remap = none → waits (.remapComplete ch))
    ∧ (∀ e w, s.dram[ch].remap = some (e, w) → Answers (.remapComplete ch) s fun t =>
        t.on (F.MEM_CHSTAT_RMBUSY ch) = false ∧ t.rd (.MEM_REMAP ch e) = (w ||| 0x80000000) ∧ t.on (ev ch 4) = true
        ∧ chan t { s.dram[ch] with remap := none } ∧ t.mem = s.mem ∧ t.poison = s.poison ∧ t.soft = s.soft
        ∧ t.cores = s.cores
        ∧ (s.asr.map.dram.length < 2 → t.asr.map = { s.asr.map with
          dram := s.asr.map.dram ++ [w.toNat % 2 ^ 22 + ch * 2 ^ 22] })
        ∧ (2 ≤ s.asr.map.dram.length → t.asr = s.asr ∧ t.on ⟨.ASR_MAPSTAT, 18, 1⟩ = true))
    ∧ ((¬ ready ∨ sr ≠ 0) → waits .srEnter ∧ waits .srIdleEntry)
    ∧ (s.get F.MEM_SRCTL_IDLE = 0 → waits .srIdleEntry)
    ∧ (ready → sr = 0 → ∀ c ∈ [Instr.srEnter, .srIdleEntry], (c = .srIdleEntry → s.get F.MEM_SRCTL_IDLE ≠ 0) →
        Answers c s (Sets [(F.MEM_STAT_SR, 1), (ev 0 6, 1), (ev 1 6, 1)] [358, 366] s))
    ∧ (sr ≠ 1 → waits .srCommit)
    ∧ (sr = 1 → Answers .srCommit s fun t => srEnds 2 t
        ∧ Changes [F.MEM_STAT_SR, ev 0 6, ev 1 6, gate, F.CLK_DSTAT_GATED 2] [358, 366] s t
        ∧ (s.on ⟨.CLK_GATE, 1, 1⟩ = true → s.on (F.CLK_DSTAT_SWITCHING 1) = false → t.on gate = true))
    ∧ ((s.on F.CLK_STAT_COAST = true ∨ sr = 0) → Answers .srExit s (Sets [(gate, 0)] [] s))
    ∧ (s.on F.CLK_STAT_COAST = false → sr ≠ 0 → Answers .srExit s fun t => srEnds 0 t
        ∧ Changes [F.MEM_STAT_SR, ev 0 6, ev 1 6, gate] [358, 366] s t)

/-! ### Power -/

/-- R425 to R427, R430, R432 to R441, R485, Tables 17.2, 17.4: every command of the rails completes, with a next state, in
every state. SENDER_AVS_WINDOW on a sender shows the measurement and moves CODE, or sets ATMAX at VMAX, as R432 decides; on a tile it
changes nothing. AVSPCID_WRITE arms the preset; SPEED_MEASURE shows the speed. PWM_UPDATE takes one step of the rail's
control law and drives its phases at the new duty cycle where a phase serves the rail, and only shows the voltage elsewhere. SENSE_SAMPLE shows every sample, VINLOW and
its event; PHASE_CURRENT_LIMIT counts and flags at a phase current input, and changes nothing at another. LED_RAIL_ENABLE
goes on where nothing stands against it, LED_RAIL_DISABLE goes off, RAIL_FAULT turns a rail off that is on and
whose input reads above its limit, and holds the lamps; LED_SETPOINT_COMMAND gives a rail that is on the idle set point for
a dark refresh, else the forecast's, or VMAX for a half that is not complete. A power loss, by PFAIL_DETECT, by
VIN_FAIL_DETECT or by two low samples of VIN_SENSE, begins Midnight once: the lamps dark, the cores halted, the rails off,
CODE at PWR.MID and HALT_OK once the journal rests. -/
def Obligations.RailsFollowTheirMeasurementsAndMidnightStops : Prop :=
  ∀ (s : State) (slack speed measured : BitVec 16) (miss : Bool) (k : Fin 5) (i : Fin 16) (r : Fin 4) (index : Byte)
    (codes : List (BitVec 12)) (vin : BitVec 12) (value : Word),
    let waits (c : Instr) : Prop := Answers c s (· = s)
    let ev (b : Nat) : Fld := ⟨.PWR_EV, b, 1⟩
    let stat (b : Nat) : Fld := ⟨.PWR_STAT, b, 1⟩
    let tile := s.isTile = true
    let low := min 60 (s.get F.PWR_AVSLIM_VMIN)
    let high := min 60 (s.get F.PWR_AVSLIM_VMAX)
    let code := s.get F.PWR_VCORE_CODE
    let us := if miss = true then 0 else slack.toNat
    let shown := [(F.PWR_SLACK_US, us), (F.PWR_SLACK_MISS, b2n miss), (F.PWR_SLACKMIN_US, min us (s.get F.PWR_SLACKMIN_US))]
    let window := Instr.senderAvsWindow slack miss
    let decides := s.isTile = false ∧ s.on F.PWR_AVSCFG_EN = true ∧ s.on F.PWR_STAT_COLD = false
      ∧ s.on F.PWR_STAT_MIDNIGHT = false ∧ s.on F.ASR_STAT_SLICE = false
    let rail0 (v above : Nat) : PwrState := { s.pwr with
      above := above, loops := modAt 0 (fun l => { l with set := (600 + 5 * v : Nat) }) s.pwr.loops }
    let becomes (v above : Nat) : Prop := Answers window s (Sets
      (shown ++ [(F.PWR_STAT_ATMAX, 0), (F.PWR_VCORE_CODE, v), (F.PWR_STAT_ATMIN, b2n (decide (v = low)))]) []
      { s with pwr := rail0 v above })
    let rises (n : Nat) : Prop :=
      (code < high → becomes (clampN low high (code + n)) 0)
      ∧ (high ≤ code → Answers window s (Sets (shown ++ [(F.PWR_STAT_ATMAX, 1), (ev 0, 1)]) [368]
        { s with pwr := { s.pwr with above := 0 } }))
    let tight := slack.toNat < s.get F.PWR_AVSCFG_SLACKLO * 10
    let loose := s.get F.PWR_AVSCFG_SLACKHI * 10 < slack.toNat
    let held := max 1 (s.get F.PWR_AVSCFG_HOLDN) ≤ s.pwr.above + 1
    let update := Instr.pwmUpdate k measured
    let driven := (∃ p < 12, s.get (F.PWR_PHASE_RAIL p) = k.val + 1)
      ∧ (k.val = 0 ∨ (tile ∧ s.on (F.PWR_LEDMAP_EN (k.val - 1)) = true))
    let phases (j : Nat) := (List.range 12).filter fun p => decide (s.get (F.PWR_PHASE_RAIL p) = j + 1)
    let period := min 12500 (max 2000 (s.get (F.PWR_PER_PER k)))
    let drives (l : Loop) := (phases k).zipIdx.map fun e =>
      Sent.pwm e.1 (some (period, e.2 * period / (phases k).length, (period * l.duty / 4096).toNat))
    let mids (j : Nat) := (phases j).map fun p => Sent.pwm p none
    let shows (t : State) : Prop := k.val = 0 → t.get F.PWR_VCORE_MV = min 1023 measured.toNat
    let law (l : Loop) : Loop :=
      let e := l.set - measured.toNat
      ⟨l.set, clampI 0 3686 (l.duty + Int.fdiv ((s.get (F.PWR_COMP_KP k) : Int) * (e - l.last)
        + (s.get (F.PWR_COMP_KI k) : Int) * e) 65536), e⟩
    let sample := Instr.senseSample codes vin
    let lowVin := vin.toNat < s.get F.PWR_VIN_WARN
    let runs := if vin.toNat < s.get F.PWR_VIN_FAIL then s.pwr.vinLow + 1 else 0
    let fails := s.on F.PWR_MID_VINEN = true ∧ 2 ≤ runs
    let sampled (t : State) : Prop := (∀ j < 16, ∀ c, codes[j]? = some c → t.get (F.PWR_SVAL_CODE j) = c.toNat)
      ∧ t.get F.PWR_VINVAL_CODE = vin.toNat ∧ t.get F.PWR_STAT_VINLOW = b2n (decide lowVin) ∧ (lowVin → t.on (ev 3) = true)
    let ended := s.on F.PWR_STAT_MIDNIGHT = true
    let stops (t : State) : Prop := t.on F.PWR_STAT_MIDNIGHT = true ∧ t.on (ev 2) = true ∧ t.get F.BOT_STAT_STAGE = 7
      ∧ t.get F.PWR_VCORE_CODE = min 60 (s.get F.PWR_MID_CODE) ∧ t.asr.slice = none ∧ t.bot.dusk = none
      ∧ (tile → t.on F.SCN_STAT_DARK = true ∧ t.on F.SCN_STAT_TRIP = true ∧ ∀ q < 4, t.on (F.PWR_LEDMAP_EN q) = false)
      ∧ (∀ n : Fin 5, (s.coreState n = 1 ∨ s.coreState n = 2) → (s.core n).holdsHalt = false → t.coreState n = 0) ∧ t.mem = s.mem
      ∧ (s.asr.jobs = [] → s.anchorDue = false → t.on F.PWR_STAT_HALTOK = true ∧ t.nvj = s.nvj)
    let limit := Instr.phaseCurrentLimit i
    let enable := Instr.ledRailEnable r
    let on := s.on (F.PWR_LEDMAP_EN r) = true
    let faulty := ∃ j < 16, 2 ≤ s.get (F.PWR_SNS_KIND j) ∧ s.get (F.PWR_SNS_INDEX j) = r.val
      ∧ s.get (F.PWR_SNS_LIM j) < s.get (F.PWR_SVAL_CODE j)
    let vmax := s.get (F.PWR_LEDLIM_VMAX r)
    let vmin := s.get (F.PWR_LEDLIM_VMIN r)
    let allowed := tile ∧ ¬ on ∧ vmax ≠ 0 ∧ vmin ≤ vmax ∧ ¬ faulty ∧ s.on F.HKP_STAT_TRIP = false
    let mid := modAt (r.val + 1) (fun _ => (⟨0, 0, 0⟩ : Loop)) s.pwr.loops
    let command := Instr.ledSetpointCommand r index
    let frame : Option FrameRun := if index = 0 then s.cmp.frames.head? else none
    let dmax (half : Nat) : Nat := (s.pwr.forecast.getD half []).getD r 0
    let target (half : Nat) : Int := clampI vmin vmax ((s.get (F.PWR_LEDCFG_VBASE r) : Int)
      + (s.get (F.PWR_LEDCFG_RSLOPE r) * dmax half / 1000 : Nat) + sgn 16 (s.get (F.PWR_LEDSTAT_OFF r)))
    let setsTo (v : Int) (t : State) : Prop := (t.get (F.PWR_LEDSTAT_SETMV r) : Int) = v
      ∧ t.pwr = { s.pwr with loops := modAt (r.val + 1) (fun l => { l with set := v }) s.pwr.loops }
    let dark := s.darkAhead index.toNat frame = true
    let given (v : Int) : Prop := Answers command s fun t => setsTo v t
      ∧ Changes [F.PWR_LEDSTAT_SETMV r] [] { s with pwr := t.pwr } t
    (tile → waits window)
    ∧ (s.isTile = false → ¬ decides → Answers window s (Sets shown [] s))
    ∧ (decides → (miss = true → rises (s.get F.PWR_AVSCFG_UPMISS)) ∧ (miss = false → tight → rises 1)
        ∧ (miss = false → ¬ tight → loose → held → becomes (clampN low high (code - 1)) 0)
        ∧ (miss = false → ¬ tight → loose → ¬ held → becomes (clampN low high code) (s.pwr.above + 1))
        ∧ (miss = false → ¬ tight → ¬ loose → becomes (clampN low high code) 0))
    ∧ Answers (.avspcidWrite value) s (Sets [((Reg.PWR_AVSPCID).whole, value.toNat), (F.PWR_STAT_PREARM, 1)] []
        { s with pwr := { s.pwr with armed := some value } })
    ∧ Answers (.speedMeasure speed) s (Sets [(F.PWR_SPEED_S, speed.toNat)] [] s)
    ∧ (driven → Answers update s fun t => shows t ∧ Changes (if k.val = 0 then [F.PWR_VCORE_MV] else []) []
        { s with pwr := { s.pwr with loops := modAt k law s.pwr.loops }
                 sent := s.sent ++ drives ((s.pwr.loops[k.val]?.map law).getD ⟨0, 0, 0⟩) } t)
    ∧ (¬ driven → Answers update s fun t => shows t
        ∧ Changes (if k.val = 0 then [F.PWR_VCORE_MV] else []) [] s t)
    ∧ (s.get (F.PWR_SNS_KIND i) ≠ 1 → waits limit)
    ∧ (s.get (F.PWR_SNS_KIND i) = 1 → Answers limit s fun t => Changes [F.PWR_PHLIMCNT_COUNT, ev 5] [373] s t
        ∧ Counted F.PWR_PHLIMCNT_COUNT 1 s t ∧ t.on (ev 5) = true)
    ∧ (¬ fails → Answers sample s fun t => sampled t
        ∧ Changes ([F.PWR_VINVAL_CODE, F.PWR_STAT_VINLOW, ev 3] ++ (List.range 16).map F.PWR_SVAL_CODE)
          (if lowVin then [371] else []) { s with pwr := { s.pwr with vinLow := runs } } t)
    ∧ (fails → Answers sample s fun t => sampled t ∧ t.pwr.vinLow = runs ∧ (¬ ended → stops t)
        ∧ (ended → t.cores = s.cores ∧ t.mem = s.mem ∧ t.nvj = s.nvj))
    ∧ ((s.on F.PWR_MID_VINEN = false ∨ ended) → waits .vinFailDetect)
    ∧ (s.on F.PWR_MID_VINEN = true → ¬ ended → Answers .vinFailDetect s stops)
    ∧ (ended → Answers .pfailDetect s (Sets [(F.PWR_STAT_PFAIL, 1)] [] s))
    ∧ (¬ ended → Answers .pfailDetect s fun t => stops t ∧ t.on F.PWR_STAT_PFAIL = true)
    ∧ (¬ allowed → waits enable)
    ∧ (allowed → Answers enable s (Sets
        [(F.PWR_LEDMAP_EN r, 1), (stat (12 + r), 1), (stat (8 + r), 0), (F.PWR_LEDSTAT_OFF r, 0)] []
        { s with pwr := { s.pwr with loops := mid, unflagged := modAt r (fun _ => 0) s.pwr.unflagged } }))
    ∧ (¬ tile → waits (.ledRailDisable r))
    ∧ (tile → Answers (.ledRailDisable r) s (Sets [(F.PWR_LEDMAP_EN r, 0), (stat (12 + r), 0)] []
        { s with pwr := { s.pwr with loops := mid }, sent := s.sent ++ if on then mids (r.val + 1) else [] }))
    ∧ ((¬ tile ∨ ¬ on ∨ ¬ faulty) → waits (.railFault r))
    ∧ (tile → on → faulty → Answers (.railFault r) s fun t => t.on (F.PWR_LEDMAP_EN r) = false ∧ t.on (stat (12 + r)) = false
        ∧ t.on (stat (8 + r)) = true ∧ t.on (ev (8 + r)) = true ∧ t.scn.tripHold = true ∧ t.on F.SCN_STAT_TRIP = true
        ∧ t.on F.SCN_STAT_DARK = true ∧ t.mem = s.mem ∧ t.cores = s.cores ∧ t.asr = s.asr
        ∧ ∀ q < 4, q ≠ r.val → t.rd (.PWR_LEDMAP q) = s.rd (.PWR_LEDMAP q))
    ∧ ((¬ tile ∨ ¬ on) → waits command)
    ∧ (s.on F.SCN_CTL_DARK = true → dark)
    ∧ (tile → on → (dark → given (s.get (F.PWR_LEDIDLE_VIDLE r)))
        ∧ (¬ dark → frame = none → given (target s.half))
        ∧ (∀ f, ¬ dark → frame = some f → (f.complete = true → given (target (1 - s.half)))
          ∧ (f.complete = false → Answers command s fun t => setsTo vmax t ∧ Counted F.PWR_LEDSAFE_COUNT 1 s t
            ∧ t.on (ev 6) = true
            ∧ Changes [F.PWR_LEDSTAT_SETMV r, F.PWR_LEDSAFE_COUNT, ev 6] [374] { s with pwr := t.pwr } t)))

/-! ### Housekeeping -/

/-- R460 to R472, R435, Tables 19.1, 19.2, 21.4: a slow round counts, shows its corrected codes and temperatures, TJ and
TLB, sets the derating gain and the warnings, trips the part where a temperature reaches its trip value, and follows the
cold; a TRIPCLR is accepted after a cool round. The colour sensors are started, stopped and read; an I²C command runs
alone and ends with its result, also when the bus is stuck; the ID memory is read and checked. -/
def Obligations.SlowRoundsWatchTemperaturesAndTheBusIsServed : Prop :=
  ∀ (s : State) (codes : List (BitVec 12)) (sensors : List (BitVec 16)) (reads : List (List Byte)) (value data : Word)
    (ack : Bool) (bytes : List Byte),
    let waits (c : Instr) : Prop := Answers c s (· = s)
    let ev (b : Nat) : Fld := ⟨.HKP_EV, b, 1⟩
    let tile := s.isTile = true
    let temp (t : State) (f : Fld) : Int := sgn 16 (t.get f)
    let trim (t : State) (i : Nat) : Nat := (t.asr.taps.getD (i - 16) 0).toNat
    let code (t : State) (i : Nat) : Nat := (clampI 0 4095 (((codes.getD i 0).toNat
      * (trim t 116 + 256 * trim t 117) / 32768 : Nat) + sgn 16 (trim t 118 + 256 * trim t 119))).toNat
    let kind (i : Nat) : Nat := s.get (F.HKP_CH_KIND i)
    let therm (i : Nat) : Bool := s.isTile && decide (i < 16) && (kind i == 2)
    let inside (c : Nat) : Bool := decide (s.get F.HKP_THVALID_MIN ≤ c ∧ c ≤ s.get F.HKP_THVALID_MAX)
    let curve (c : Nat) : Int := Int.fdiv (temp s (F.HKP_TTAB_TEMP (c / 256)) * ((256 - c % 256 : Nat) : Int)
      + temp s (F.HKP_TTAB_TEMP (c / 256 + 1)) * ((c % 256 : Nat) : Int) + 128) 256
    let phys (t : State) (k : Nat) : Nat := getBits (t.rd .HKP_DIEMAP) (4 * k) 4
    let raw (t : State) (p : Nat) : Int := (sensors.getD p 0).toInt + sgn 8 (trim t (120 + p))
    let valid (t : State) (k : Nat) : Prop := t.on (F.HKP_DIE_VALID (phys t k)) = true
    let die (t : State) (k : Nat) : Int := temp t (F.HKP_DIE_TEMP (phys t k))
    let board := (List.range 16).any therm
    let tj (t : State) : Int := temp t F.HKP_TJ_MAX
    let tlb (t : State) : Int := temp t F.HKP_TLB_MAX
    let boardValue (t : State) (i : Nat) : Int := if t.on (F.HKP_VAL_VALID i) then temp t (F.HKP_VAL_TEMP i) else 32752
    let hyst : Int := s.get F.HKP_LTRIP_HYST
    let derate := temp s F.HKP_LLIM_DERATE
    let hot (t : State) : Prop := s.hkp.thermRise = true ∨ (board = true ∧ derate ≤ tlb t)
    let below (t : State) : Prop := board = true → tlb t < derate - hyst
    let gain (t : State) : Nat := t.hkp.derate
    let warns (t : State) (f : Fld) (x lim : Int) : Prop :=
      (lim ≤ x → t.on f = true) ∧ (x < lim → x < lim - hyst → t.on f = false)
      ∧ (x < lim → lim - hyst ≤ x → t.on f = s.on f)
    let fast (now : Option Int) (hist : List (Option Int)) : Prop :=
      ∃ a b, now = some a ∧ hist.getD 99 none = some b ∧ b + s.get F.HKP_RISE_LIMIT < a
    let thermNow (t : State) (i : Nat) : Option Int :=
      if therm i = true ∧ t.on (F.HKP_VAL_VALID i) = true then some (temp t (F.HKP_VAL_TEMP i)) else none
    let dieNow (t : State) (k : Nat) : Option Int :=
      if t.on (F.HKP_DIE_VALID (phys t k)) then some (die t k) else none
    let thermFast (t : State) : Prop := ∃ i < 16, fast (thermNow t i) (s.hkp.thermHist.getD i [])
    let rises (t : State) : Prop := thermFast t ∨ ∃ k < 8, fast (dieNow t k) (s.hkp.dieHist.getD k [])
    let latched := s.on F.HKP_STAT_TRIP = true
    let hotJ (t : State) : Prop := temp s F.HKP_JLIM_TRIP ≤ tj t
    let hotB (t : State) : Prop := board = true ∧ temp s F.HKP_LTRIP_TRIP ≤ tlb t
    let trips (t : State) : Prop := (hotJ t ∧ ¬ (s.hkp.tripping.1 = true ∧ latched))
      ∨ (hotB t ∧ ¬ (s.hkp.tripping.2 = true ∧ latched))
    let sent (t : State) (l : List Sent) : Prop := t.sent = s.sent ++ l
    let busy := s.on F.HKP_I2CSTAT_BUSY = true
    let cmd := value &&& 0x0007FFFF
    let len (v : Word) : Nat := if getBits v 16 3 = 0 ∨ 4 < getBits v 16 3 then 4 else getBits v 16 3
    let request : Sent := .i2c (getBits value 0 7)
      (value.extractLsb' 8 8 :: if value.getLsbD 7 then [] else leBytes (len value) (s.rd .HKP_I2CDATA).toNat)
    let i2cOver (t : State) (r : Nat) : Prop := t.hkp = { s.hkp with i2c := none } ∧ t.on F.HKP_I2CSTAT_BUSY = false
      ∧ t.get F.HKP_I2CSTAT_RESULT = r ∧ t.on (ev 8) = true
    let idOver (t : State) (ok : Bool) : Prop :=
      t.hkp.idReading = false ∧ t.on F.HKP_STAT_IDVALID = ok ∧ t.on (ev 10) = true
    let sound := bytes.length = 32 ∧ beAt bytes 28 4 = (crc32 (bytes.take 28)).toNat
    Answers (.slowRound codes sensors) s (fun t =>
        t.mem = s.mem ∧ t.cores = s.cores ∧ t.lnk = s.lnk ∧ t.srf = s.srf
        ∧ t.rd .HKP_ROUNDS = s.rd .HKP_ROUNDS + 1
        ∧ (∀ i < 32, t.get (F.HKP_VAL_CODE i) = code t i
          ∧ (t.on (F.HKP_VAL_VALID i) = true ↔ kind i = 1 ∨ (therm i = true ∧ inside (code t i) = true))
          ∧ (therm i = true → inside (code t i) = true →
            t.get (F.HKP_VAL_TEMP i) = unsgn 16 (curve (code t i))))
        ∧ (∀ p < 10, t.get (F.HKP_DIE_TEMP p) = satI 16 (raw t p)
          ∧ (t.on (F.HKP_DIE_VALID p) = true ↔ -880 ≤ raw t p ∧ raw t p ≤ 2400))
        ∧ (∀ k < 8, valid t k → die t k ≤ tj t)
        ∧ ((∃ k < 8, valid t k) → ∃ k < 8, valid t k ∧ die t k = tj t)
        ∧ ((∀ k < 8, ¬ valid t k) → tj t = 32752)
        ∧ (board = true → (∀ i < 16, therm i = true → boardValue t i ≤ tlb t)
          ∧ ∃ i < 16, therm i = true ∧ boardValue t i = tlb t)
        ∧ (hot t → gain t = max 4194304 (s.hkp.derate - 839))
        ∧ (¬ hot t → below t → gain t = min 8388608 (s.hkp.derate + 839))
        ∧ (¬ hot t → ¬ below t → gain t = s.hkp.derate)
        ∧ t.get F.HKP_DERATE_GAIN = gain t / 256 % 65536
        ∧ (t.on F.HKP_STAT_DERATING = true ↔ gain t < 8388608)
        ∧ (rises t → t.on F.HKP_STAT_RISE = true ∧ t.on (ev 3) = true) ∧ (t.hkp.thermRise = true ↔ thermFast t)
        ∧ (¬ rises t → s.hkp.calmRounds + 1 < 100 → t.on F.HKP_STAT_RISE = s.on F.HKP_STAT_RISE)
        ∧ (¬ rises t → 100 ≤ s.hkp.calmRounds + 1 → t.on F.HKP_STAT_RISE = false)
        ∧ warns t F.HKP_STAT_JWARN (tj t) (temp s F.HKP_JLIM_WARN)
        ∧ (board = true → warns t F.HKP_STAT_LWARN (tlb t) (temp s F.HKP_LLIM_WARN))
        ∧ (trips t → t.on F.HKP_STAT_TRIP = true ∧ t.on (ev 4) = true ∧ Counted F.HKP_TRIPCNT_COUNT 1 s t
          ∧ (t.on F.HKP_STAT_TRIPSRC = true ↔ ¬ hotJ t) ∧ t.aon.trip ≠ none
          ∧ (s.aon.trip = none → t.on F.HKP_STAT_RECPEND = true)
          ∧ (tile → t.scn.tripHold = true ∧ t.on F.SCN_STAT_DARK = true ∧ ∀ r < 4, t.on (F.PWR_LEDMAP_EN r) = false))
        ∧ (¬ trips t → t.on F.HKP_STAT_TRIP = s.on F.HKP_STAT_TRIP ∧ t.rd .HKP_TRIPCNT = s.rd .HKP_TRIPCNT)
        ∧ (t.hkp.cool = true ↔ tj t < temp s F.HKP_JLIM_WARN - hyst ∧ (board = true → tlb t < temp s F.HKP_LLIM_WARN - hyst)
          ∧ 2 ≤ (List.range 8).countP fun k => t.on (F.HKP_DIE_VALID (phys t k)))
        ∧ (t.on F.PWR_STAT_COLD = true ↔
          ((∀ k < 8, ¬ valid t k) ∨ ∃ k < 8, valid t k ∧ die t k < -160)))
    ∧ (s.hkp.cool = true → Answers .tripclr s (Sets [(F.HKP_STAT_TRIP, 0)] [] s))
    ∧ (s.hkp.cool = false → waits .tripclr)
    ∧ (tile → Answers .colourSensorStart s (· = { s with sent := s.sent ++ [.i2c 0 [0xA1]] }))
    ∧ (tile → Answers (.colourSensorStop reads) s fun t =>
        let on := (List.range 8).filter fun k => s.on (F.HKP_CSADDR_EN k)
        let good (k : Nat) : Prop := (reads.getD k []).length = 10 ∧ leAt (reads.getD k []) 0 1 % 4 = 1
        t = { s with sent := t.sent, regs := t.regs }
        ∧ sent t (.i2c 0 [0xA2] :: on.map fun k => .i2c (s.get (F.HKP_CSADDR_ADDR k)) [0x10])
        ∧ (∀ k < 8, ∀ c < 3, k ∉ on → t.rd (.HKP_CSM k c) = s.rd (.HKP_CSM k c))
        ∧ (∀ k ∈ on, ∀ c < 3, (t.on (F.HKP_CSM_VALID k c) = true ↔ good k)
          ∧ ((reads.getD k []).length = 10 → t.get (F.HKP_CSM_COUNT k c) = beAt (reads.getD k []) (1 + 3 * c) 3))
        ∧ ((∃ k ∈ on, ¬ good k) → t.on (ev 9) = true))
    ∧ (s.isTile = false → waits .colourSensorStart ∧ waits (.colourSensorStop reads) ∧ waits .idread)
    ∧ ((value.getLsbD 31 = false ∨ busy) → Answers (.i2cCommand value) s (Sets [((Reg.HKP_I2CCMD).whole, cmd.toNat)] [] s))
    ∧ (value.getLsbD 31 = true → ¬ busy → Answers (.i2cCommand value) s (Sets
        [((Reg.HKP_I2CCMD).whole, cmd.toNat), (F.HKP_I2CSTAT_BUSY, 1)] []
        { s with hkp := { s.hkp with i2c := some value }, sent := s.sent ++ [request] }))
    ∧ (s.hkp.i2c = none → waits (.i2cCommandEnd ack data))
    ∧ (∀ v, s.hkp.i2c = some v → Answers (.i2cCommandEnd ack data) s fun t => i2cOver t (if ack then 0 else 1)
        ∧ t.rd .HKP_I2CDATA = (if ack = true ∧ v.getLsbD 7 = true
          then BitVec.ofNat 32 (data.toNat % 2 ^ (8 * len v)) else s.rd .HKP_I2CDATA)
        ∧ Changes [(Reg.HKP_I2CDATA).whole, F.HKP_I2CSTAT_BUSY, F.HKP_I2CSTAT_RESULT, ev 8] [408] { s with hkp := t.hkp } t)
    ∧ Answers .i2cBusStuck s (fun t => sent t [.i2cRecover] ∧ t.mem = s.mem ∧ t.cores = s.cores ∧ WordsKept [16, 12] s t
        ∧ (s.hkp.i2c ≠ none → s.hkp.idReading = false → i2cOver t 2)
        ∧ (s.hkp.i2c = none → s.hkp.idReading = false → t.hkp = s.hkp ∧ t.regs = s.regs)
        ∧ (s.hkp.idReading = true → idOver t false))
    ∧ (tile → s.hkp.idReading = true → waits .idread)
    ∧ (tile → s.hkp.idReading = false → Answers .idread s
        (· = { s with hkp := { s.hkp with idReading := true }, sent := s.sent ++ [.i2c (s.get F.HKP_I2CCFG_IDADDR) [0]] }))
    ∧ (s.hkp.idReading = false → waits (.idreadEnd bytes))
    ∧ (s.hkp.idReading = true → Answers (.idreadEnd bytes) s fun t => idOver t (decide sound)
        ∧ (∀ k < 8, t.rd (.HKP_ID k)
          = if bytes.length = 32 then BitVec.ofNat 32 (leAt bytes (4 * k) 4) else s.rd (.HKP_ID k))
        ∧ t.sent = s.sent ∧ t.mem = s.mem ∧ t.cores = s.cores)

/-! ### Boot, Dawn, Dusk and the life cycle -/

/-- R475, R477, R479, R480, Table 20.6: a bundle handed over, and a medium, are checked in order; a manifest that passes
boots: its words are shown, it lies at common memory offset 0 and HC0 starts its stage-2 loader in supervisor mode; of
two slots the marked one comes first; a failure keeps its ERR and waits for a push. -/
def Obligations.BootChecksStartTheLoaderOrWait : Prop :=
  ∀ (s : State) (readError : Bool), s.memSound = true →
    let waits (c : Instr) : Prop := Answers c s (· = s)
    let check := Instr.bootCheck readError
    let stage := s.get F.BOT_STAT_STAGE
    let ready := stage = 1 ∧ s.aon.phase = 6 ∧ s.bootSource = 1
    let fails (r : Nat) : Prop := Answers check s fun t => t.get F.BOT_STAT_ERR = r ∧ t.get F.BOT_STAT_STAGE = 2
      ∧ t.on F.HST_STAT_BOOTWAIT = true ∧ t.mem = s.mem ∧ t.cores = s.cores ∧ t.bot = s.bot
    let load (e : List Byte) : Nat := leAt e 16 8
    let size (e : List Byte) : Nat := leAt e 8 4
    let boots (m e : List Byte) (slot pushed : Bool) (marker : Nat) (t : State) : Prop :=
      t.get F.BOT_STAT_ERR = 0 ∧ t.get F.BOT_STAT_STAGE = 4 ∧ t.bytes 0xE100000000 4096 = m
      ∧ t.get F.BOT_MVER_VERSION = leAt m 6 2 ∧ t.on F.BOT_MVER_SLOT = slot ∧ t.on F.BOT_MVER_PUSHED = pushed
      ∧ (t.rd .BOT_MDIG).toNat = beAt (sha384 (m.take 2720)) 0 4 ∧ (t.rd .BOT_MARKER).toNat = marker % 2 ^ 32
      ∧ t.bot = { s.bot with booted := versions m, step5 := some s.tim.ticks }
      ∧ t.coreState 0 = 1
      ∧ t.core 0 = { s.core 0 with pc := BitVec.ofNat 40 (load e), sup := true, wait := none, haltReq := false }
      ∧ (∀ n, n ≠ 0 → t.core n = s.core n)
      ∧ (∀ a, (a < 0xE100000000 ∨ 0xE100001000 ≤ a) → (a < load e ∨ load e + size e ≤ a) → t.byte a = s.byte a)
    let pushed := s.bytes 0xE100000000 4096
    let slotM (c : SdCard) (base : Nat) : List Byte := cardRead c base 4096
    let image (c : SdCard) (base : Nat) (e : List Byte) : List Byte := cardRead c (base + leAt e 4 4) (size e)
    let passes (c : SdCard) (base : Nat) : Prop := s.check5 (slotM c base) = 0
      ∧ ∃ e, s.stage2 (slotM c base) = some e ∧ sha384 (image c base e) = slice e 24 48
    let slotFails (c : SdCard) (base r : Nat) : Prop := (s.check5 (slotM c base) = r ∧ r ≠ 0)
      ∨ (s.check5 (slotM c base) = 0 ∧ r = 8 ∧ ∃ e, s.stage2 (slotM c base) = some e ∧ sha384 (image c base e) ≠ slice e 24 48)
    (stage ≠ 3 → ¬ ready → waits check)
    ∧ (stage = 3 → s.check5 pushed ≠ 0 → fails (s.check5 pushed))
    ∧ (stage = 3 → s.check5 pushed = 0 → ∀ e, s.stage2 pushed = some e →
        (sha384 (s.bytes (load e) (size e)) = slice e 24 48 → Answers check s (boots pushed e false true 0))
        ∧ (sha384 (s.bytes (load e) (size e)) ≠ slice e 24 48 → fails 8))
    ∧ (ready → readError = true → fails 9)
    ∧ (ready → readError = false → s.sd.card = none → fails 1)
    ∧ (ready → readError = false → ∀ c, s.sd.card = some c →
        (cardPartition c = none → fails 1)
        ∧ (∀ part len, cardPartition c = some (part, len) →
          (cardMarker c part len = none → fails 2)
          ∧ (∀ seq active sec, cardMarker c part len = some (seq, active, sec) →
            let base (k : Nat) : Nat := (part + 64 + k * sec) * 512
            (passes c (base active) → ∀ e, s.stage2 (slotM c (base active)) = some e → Answers check s fun t =>
              boots (slotM c (base active)) e (active == 1) false seq t ∧ t.on F.BOT_STAT_FALLBACK = s.on F.BOT_STAT_FALLBACK)
            ∧ (¬ passes c (base active) → passes c (base (1 - active)) →
              ∀ e, s.stage2 (slotM c (base (1 - active))) = some e → Answers check s fun t =>
              boots (slotM c (base (1 - active))) e (active == 0) false seq t ∧ t.on F.BOT_STAT_FALLBACK = true)
            ∧ (∀ r, slotFails c (base active) r → ¬ passes c (base (1 - active)) → fails r))))

/-- R45, R475, R482 to R485, R487, R491 to R493, Tables 20.7, 20.8, 20.11, 20.14: PUSHGO hands a bundle over; the seal is fresh
or the power-on tests run; Dawn completes once, after the tests; Dusk darkens, halts and runs its slices or ends; FLOORUP,
a manifest check and the life-cycle requests end with their results; a transition that ends changes the state and fuses
it, SERVICE apart. BOT.NONCE takes a free value after each SERVICE request. -/
def Obligations.DawnDuskAndTheLifeCycleGoOn : Prop :=
  ∀ (s : State) (value : Word) (addr : BitVec 16) (key : Byte),
    let waits (c : Instr) : Prop := Answers c s (· = s)
    let ev (b : Nat) : Fld := ⟨.BOT_EV, b, 1⟩
    let tile := s.isTile = true
    let stage := s.get F.BOT_STAT_STAGE
    let lc := s.get F.BOT_LCS_STATE
    let handed := s.on F.HST_STAT_BOOTWAIT = true ∧ lc ≠ 4
    let units := if s.isTile then 848 else 248
    let speed := if s.get F.PWR_SPEED_S = 0 then 256 else s.get F.PWR_SPEED_S
    let bound := (250 * 256 + speed - 1) / speed
    let now := wuSec s.now
    let since (us : Nat) : Prop := ∃ n, s.bot.step5 = some n ∧ n + usTicks us ≤ s.tim.ticks
    let open' := stage = 4 ∧ s.get F.BOT_SEAL_STATE = 0
      ∧ (s.on F.TIM_STAT_VALID = true ∨ since (s.get F.BOT_DAWNCFG_TWAIT * 1000))
    let limit := since (max 1 (s.get F.BOT_DAWNCFG_LIMIT) * 1000000)
    let dawns (c : Instr) : Prop := Answers c s (Sets [(F.BOT_STAT_STAGE, 6), (ev 0, 1), (ev 1, 1)] [456, 457]
      { s with bot := { s.bot with dawnDue := false, dawned := true } })
    let fresh := ∃ l, s.newestSeal = some l ∧ leAt l 10 2 % 2 = 1 ∧ leAt l 16 4 = (s.rd .BOT_MDIG).toNat
      ∧ s.on F.TIM_STAT_VALID = true ∧ leAt l 4 6 ≤ now ∧ now ≤ leAt l 4 6 + 604800
      ∧ (∀ p q, s.powerAnchor = some (p, q) → q ≤ leAt l 12 4) ∧ s.tempProven = true
    let slices (r : SliceRun) : AsrState := { s.asr with slice := some r }
    let floors := (List.range 16).map fun k => max (s.floors.getD k 0) (s.bootedVersion k)
    let raising := s.asr.jobs.any fun j => j.owner == .floors
    let floorRes (n : Nat) : Prop :=
      Answers .floorup s (Sets [(F.BOT_STAT_FLOORRES, n), (ev 4, 1)] [460] s)
    let shelf (n : Nat) (t : State) : Prop := t.get F.BOT_STAT_FLOORRES = n ∧ t.on (ev 4) = true ∧ t.asr = s.asr
      ∧ t.nvj = s.nvj ∧ Counted F.ASR_NVSTAT_REFCNT 1 s t
    let manifest := s.bytes (0xE100000000 + getBits value 0 9 * 4096) 4096
    let checked := s.bot.mchk
    let busy := s.on F.BOT_LCS_BUSY = true
    let request (a : Nat) (n : Nat) : List Byte := s.bytes (0xE100000000 + a * 32) n
    let ends (c : Instr) (r : Nat) : Prop := Answers c s (Sets [(F.BOT_LCS_RESULT, r), (ev 5, 1)] [461] s)
    let begins (c : Instr) (x : Nat × List Byte × List Byte) : Prop := Answers c s (Sets [(F.BOT_LCS_BUSY, 1)] []
      { s with bot := { s.bot with lcs := some x } })
    let fuses (c : Instr) (from' : Prop) : Prop := (busy → ends c 6) ∧ (¬ busy → ¬ from' → ends c 2)
      ∧ (¬ busy → from' → key ≠ 0xC5 → ends c 3) ∧ (¬ busy → from' → key = 0xC5 → s.tempProven = false → ends c 5)
    let goes := ¬ busy ∧ key = 0xC5 ∧ s.tempProven = true
    let provision := Instr.provision addr key
    let hashes := request addr.toNat 96
    let service := Instr.service addr key
    let token := request addr.toNat 224
    let proves := token.take 16 = s.devidBytes ∧ leAt token 16 4 = (s.rd .BOT_NONCE).toNat
      ∧ zeros token 20 12 = true ∧ s.keyCheck (sha384 (token.take 128)) (slice token 32 96) (slice token 128 96) = 0
    let served (r : Option Nat) : Prop := Answers service s fun t => t.rd .BOT_NONCE = Config.freeWord s.freeCtr
      ∧ t.freeCtr = s.freeCtr + 1 ∧ t.fuse = s.fuse ∧ t.get F.BOT_LCS_STATE = lc ∧ t.mem = s.mem ∧ t.cores = s.cores
      ∧ (∀ n, r = some n → t.get F.BOT_LCS_RESULT = n ∧ t.on (ev 5) = true ∧ t.bot = s.bot)
      ∧ (r = none → t.bot = { s.bot with lcs := some (3, [], []) } ∧ t.on F.BOT_LCS_BUSY = true)
    (¬ handed → waits .pushgo)
    ∧ (handed → Answers .pushgo s fun t => t.on F.HST_STAT_BOOTWAIT = false ∧ t.get F.BOT_STAT_STAGE = 3
        ∧ Changes [F.HST_STAT_BOOTWAIT, F.BOT_STAT_STAGE, ev 0] (if stage = 3 then [] else [456]) s t)
    ∧ (¬ open' → waits .sealDecision)
    ∧ (open' → fresh → Answers .sealDecision s (Sets [(F.BOT_SEAL_STATE, 1)] [] s))
    ∧ (open' → ¬ fresh → Answers .sealDecision s fun t => 2 ≤ t.get F.BOT_SEAL_STATE ∧ t.on F.BOT_SEAL_POST = true
        ∧ t.get F.BOT_STAT_STAGE = 5 ∧ t.on (ev 0) = true
        ∧ Changes [F.BOT_SEAL_STATE, F.BOT_SEAL_POST, F.ASR_SLICESTAT_BUSY, F.BOT_STAT_STAGE, ev 0] [456]
          { s with asr := slices ⟨1, 0, units, 0, none⟩ } t)
    ∧ (stage = 4 → dawns .dawndone ∧ (limit → dawns .dawnLimitExpiry))
    ∧ (stage = 5 → Answers .dawndone s (· = { s with bot := { s.bot with dawnDue := true } }))
    ∧ (stage ≠ 4 → stage ≠ 5 → waits .dawndone) ∧ ((stage ≠ 4 ∨ ¬ limit) → waits .dawnLimitExpiry)
    ∧ (stage ≠ 6 → waits .dusk)
    ∧ (stage = 6 → Answers .dusk s fun t => t.get F.BOT_STAT_STAGE = 7 ∧ t.on (ev 0) = true ∧ t.mem = s.mem
        ∧ (tile → t.scn.darkHold = true ∧ t.on F.SCN_STAT_DARK = true ∧ ∀ r < 4, t.on (F.PWR_LEDMAP_EN r) = false)
        ∧ (∀ n : Fin 5, (s.coreState n = 1 ∨ s.coreState n = 2) → (s.core n).holdsHalt = false → t.coreState n = 0)
        ∧ (bound + 100 ≤ s.get F.BOT_DUSKCFG_BUDGET * 1000 → t.asr.slice = some ⟨2, s.duskRot, units, 0, none⟩
          ∧ t.bot.dusk = some (s.tim.ticks, s.duskRot, true) ∧ t.nvj = s.nvj)
        ∧ (s.get F.BOT_DUSKCFG_BUDGET * 1000 < bound + 100 → t.asr.slice = none
          ∧ (s.nvCheck 1 = 0 → ∃ j, t.asr.jobs = s.asr.jobs ++ [j] ∧ j.owner = .seal)
          ∧ (s.nvCheck 1 ≠ 0 → t.on F.BOT_DUSKSTAT_NOSEAL = true ∧ t.on F.BOT_DUSKSTAT_DONE = true
            ∧ t.on F.PWR_STAT_HALTOK = true ∧ t.on (ev 2) = true ∧ t.asr.jobs = s.asr.jobs)))
    ∧ (raising = true → waits .floorup)
    ∧ (raising = false → floors = s.floors → floorRes 2)
    ∧ (raising = false → floors ≠ s.floors → (s.nvCheck 2 = 2 → Answers .floorup s (shelf 3))
        ∧ (s.nvCheck 2 = 1 → Answers .floorup s (shelf 4))
        ∧ (s.nvCheck 2 = 0 → Answers .floorup s fun t => t.get F.ASR_NVSTAT_CREDITS = s.get F.ASR_NVSTAT_CREDITS - 2
          ∧ ∃ (j : Nat) (l : List Byte), t.asr = { s.asr with
            jobs := s.asr.jobs ++ [⟨.floors, [(16 + 2 * j, l.take 32), (17 + 2 * j, l.drop 32)], false⟩] }
            ∧ l.take 32 = (floors.map fun v => leBytes 2 v).flatten ∧ j < 2))
    ∧ (checked ≠ none → waits (.mchk value))
    ∧ (checked = none → Answers (.mchk value) s (Sets [(F.BOT_MCHKSTAT_BUSY, 1)] []
        { s with bot := { s.bot with mchk := some (s.check5 manifest) } }))
    ∧ (checked = none → waits .manifestCheckEnd)
    ∧ (∀ r, checked = some r → Answers .manifestCheckEnd s (Sets [(F.BOT_MCHKSTAT_RESULT, r % 16),
        (F.BOT_MCHKSTAT_BUSY, 0), (F.BOT_MCHKSTAT_VALID, 1), (ev 3, 1)] [459] { s with bot := { s.bot with mchk := none } }))
    ∧ fuses provision (lc = 0)
    ∧ (goes → lc = 0 → zeros hashes 80 16 = true → begins provision (1, hashes.take 48, slice hashes 48 32))
    ∧ (goes → lc = 0 → zeros hashes 80 16 = false → ends provision 4)
    ∧ fuses (.ship key) (lc = 1) ∧ (goes → lc = 1 → begins (.ship key) (2, [], []))
    ∧ fuses (.retire key) (lc ≠ 0 ∧ lc ≠ 4) ∧ (goes → lc ≠ 0 → lc ≠ 4 → begins (.retire key) (4, [], []))
    ∧ (busy → served (some 6))
    ∧ (¬ busy → lc ≠ 2 → served (some 2))
    ∧ (¬ busy → lc = 2 → (proves → served none) ∧ (¬ proves → served (some 4)))
    ∧ (s.bot.lcs = none → waits .lcsTransitionEnd)
    ∧ (∀ d mk hk, s.bot.lcs = some (d, mk, hk) → Answers .lcsTransitionEnd s fun t =>
        t.on F.BOT_LCS_BUSY = false ∧ t.get F.BOT_LCS_STATE = d % 8 ∧ t.get F.BOT_LCS_RESULT = 1 ∧ t.on (ev 5) = true
        ∧ t.fuse = (if d = 1 then ⟨1, hk, mk⟩ else if d = 3 then s.fuse else { s.fuse with lifeCycle := d })
        ∧ t.bot = { s.bot with lcs := none } ∧ t.mem = s.mem ∧ t.cores = s.cores
        ∧ (s.tempProven = true → ∃ j, t.asr.jobs = s.asr.jobs ++ [j] ∧ j.owner = .lifeCycle)
        ∧ (s.tempProven = false → t.get F.ASR_NVSTAT_LASTRES = 2 ∧ t.asr.jobs = s.asr.jobs))

/-- R494 to R496, Tables 20.15, 20.16: INIT brings a card up and shows its capacity and partition, or fails with its
RESULT; GO begins a transfer that can begin and else ends at once with a RESULT; a transfer that ends has moved its
complete sectors, in its direction, and shows its RESULT and retries; a card that comes or goes is shown, and its going
ends a transfer with RESULT 1. -/
def Obligations.TheSdCardIsBroughtUpReadAndWritten : Prop :=
  ∀ (s : State) (result : BitVec 3) (done retries : BitVec 16) (card : Option SdCard), s.memSound = true →
    let waits (c : Instr) : Prop := Answers c s (· = s)
    let ev (b : Nat) : Fld := ⟨.HKP_SDEV, b, 1⟩
    let busy := s.on F.HKP_SDSTAT_BUSY = true
    let state := F.HKP_SDSTAT_STATE
    let res := F.HKP_SDSTAT_RESULT
    let ends (c : Instr) (b r : Nat) (l : List (Fld × Nat)) : Prop :=
      Answers c s (Sets (l ++ [(res, r), (ev b, 1), (ev 3, 1)]) [424 + b, 427] s)
    let up := Instr.sdInitEnd result
    let fails (r : Nat) : Prop := ends up 1 r [(state, 3)]
    let write := s.on F.HKP_SDCTL_WRITE
    let lba := (s.rd .HKP_SDLBA).toNat
    let n := max 1 (s.get F.HKP_SDCNT_SECTORS)
    let a := s.get F.HKP_SDADDR_ADDR * 512
    let there := s.sd.card ≠ none ∧ s.get state = 2
    let fits := lba + n ≤ (s.rd .HKP_SDCAP).toNat
    let served := if write then s.inMemory a (512 * n) ∨ inNvjWindow a (512 * n) ∨ inBootRom a (512 * n)
      else s.inMemory a (512 * n) ∧ s.memHeld a (512 * n) = false
    let ended := Instr.sdTransferEnd done result retries
    let sectors (x : SdTransfer) : Nat := if result = 0 then x.count else min done.toNat (x.count - 1)
    let shown (t : State) (r : Nat) : Prop := t.get res = r ∧ t.on F.HKP_SDSTAT_BUSY = false ∧ t.on (ev 0) = true
      ∧ (r ≠ 0 → t.on (ev 3) = true) ∧ t.sd.transfer = none ∧ t.cores = s.cores ∧ t.lnk = s.lnk ∧ t.nvj = s.nvj
    let clean := s.poison = [] ∧ s.soft = [] ∧ ∀ ch, s.chFailed ch = false
    (busy → waits .sdInit ∧ waits .sdGo)
    ∧ (¬ busy → Answers .sdInit s (Sets [(state, 1)] [] s))
    ∧ (s.get state ≠ 1 → waits up)
    ∧ (s.get state = 1 → (s.sd.card = none → fails 1) ∧ (∀ c, s.sd.card = some c →
        (c.sdsc = true → fails 4) ∧ (c.sdsc = false → result ≠ 0 → fails result.toNat)
        ∧ (c.sdsc = false → result = 0 → Answers up s fun t => t.get state = 2 ∧ t.on F.HKP_SDSTAT_SDR50 = c.lowVolt
          ∧ (t.rd .HKP_SDCAP).toNat = c.sectors % 2 ^ 32 ∧ t.get res = 0 ∧ t.on (ev 1) = true
          ∧ (cardPartition c = none → t.on F.HKP_SDSTAT_PARTOK = false)
          ∧ (∀ p m, cardPartition c = some (p, m) → t.on F.HKP_SDSTAT_PARTOK = true
            ∧ (t.rd .HKP_SDPART).toNat = p % 2 ^ 32 ∧ (t.rd .HKP_SDPLEN).toNat = m % 2 ^ 32)
          ∧ Changes [state, F.HKP_SDSTAT_SDR50, (Reg.HKP_SDCAP).whole, F.HKP_SDSTAT_PARTOK, (Reg.HKP_SDPART).whole,
            (Reg.HKP_SDPLEN).whole, res, ev 1] [425] s t)))
    ∧ (¬ busy → ¬ there → ends .sdGo 0 1 [])
    ∧ (¬ busy → there → ¬ fits → ends .sdGo 0 5 [])
    ∧ (¬ busy → there → fits → ¬ served → ends .sdGo 0 6 [])
    ∧ (¬ busy → there → fits → served → Answers .sdGo s (Sets [(F.HKP_SDSTAT_BUSY, 1)] []
        { s with sd := { s.sd with transfer := some ⟨write, lba, n, a⟩ } }))
    ∧ (s.sd.transfer = none → waits ended)
    ∧ (∀ x c, s.sd.transfer = some x → s.sd.card = some c → Answers ended s fun t =>
        shown t result.toNat ∧ Counted F.HKP_SDCRC_COUNT retries.toNat s t
        ∧ (x.write = false → t.sd.card = s.sd.card
          ∧ (∀ b, (b < x.addr ∨ x.addr + 512 * sectors x ≤ b) → t.byte b = s.byte b)
          ∧ (clean → s.inMemory x.addr (512 * sectors x) = true →
            t.bytes x.addr (512 * sectors x) = cardRead c (512 * x.lba) (512 * sectors x)))
        ∧ (x.write = true → t.mem = s.mem ∧ ∃ d, t.sd.card = some { c with data := d }
          ∧ (Memory.wf c.data = true →
            (∀ b, (b < 512 * x.lba ∨ 512 * (x.lba + sectors x + if result = 0 then 0 else 1) ≤ b) →
              Memory.read d b = Memory.read c.data b)
            ∧ (clean → s.inMemory x.addr (512 * sectors x) = true →
              Memory.readBytes d (512 * x.lba) (512 * sectors x) = s.bytes x.addr (512 * sectors x)))))
    ∧ (card.isSome = s.sd.card.isSome → waits (.sdCardDetect card))
    ∧ (card.isSome ≠ s.sd.card.isSome → Answers (.sdCardDetect card) s fun t =>
        t.sd.card = card ∧ t.on F.HKP_SDSTAT_PRESENT = card.isSome ∧ t.get state = 0 ∧ t.on (ev 2) = true
        ∧ t.sd.transfer = none ∧ t.cores = s.cores
        ∧ (∀ x b, s.sd.transfer = some x → (x.write = true ∨ b < x.addr ∨ x.addr + 512 * x.count ≤ b) → t.byte b = s.byte b)
        ∧ (s.sd.transfer ≠ none → t.get res = 1 ∧ t.on F.HKP_SDSTAT_BUSY = false)
        ∧ (s.sd.transfer = none → Changes [F.HKP_SDSTAT_PRESENT, state, ev 2] [426] { s with sd := { s.sd with card := card } } t))

/-! ### Assurance and spares -/

/-- R423, R498 to R501, R505 to R513, R519, Tables 21.4 to 21.7: credits are refilled; a trim commit sets the pending
classes, and a class takes its taps at its safe point; CALSAVE ends with its result or writes a trim copy; test slices
are requested, begin, are skipped and end with their result; the proof chain starts and stops; a page of the part's own
writes is stored once verified, repeated once on the lowest spare page, or fails. -/
def Obligations.TheJournalTrimsAndTestSlicesGoOn : Prop :=
  ∀ (s : State) (cls : Fin 6) (value : Word) (units failed : BitVec 10) (row : Option (BitVec 23)) (micros : BitVec 16)
    (en verified : Bool),
    let waits (c : Instr) : Prop := Answers c s (· = s)
    let ev (b : Nat) : Fld := ⟨.ASR_EV, b, 1⟩
    let tile := s.isTile = true
    let credits := s.get F.ASR_NVSTAT_CREDITS
    let pend := s.get F.ASR_TRIMSTAT_PEND
    let safe := (cls = 0 → ∀ n < 5, s.coreState n ≠ 1)
      ∧ (cls = 1 → ∀ f ∈ s.cmp.frames, f.complete = true)
    let point := Instr.trimSafePoint cls
    let calBusy := ∃ j ∈ s.asr.jobs, j.owner = .calibration ∨ ∃ a b, j.owner = .trims a b
    let lc := s.get F.BOT_LCS_STATE
    let saves := ¬ calBusy ∧ lc ≠ 0 ∧ lc < 4
    let valid := s.on F.TIM_STAT_VALID = true
    let saved (r : Nat) : Prop := Answers .calsave s (Sets [(F.ASR_TRIMSTAT_SAVERES, r), (ev 5, 1)] [437] s)
    let refused (r last : Nat) : Prop := Answers .calsave s fun t => t.get F.ASR_TRIMSTAT_SAVERES = r ∧ t.on (ev 5) = true
      ∧ t.get F.ASR_NVSTAT_LASTRES = last ∧ Counted F.ASR_NVSTAT_REFCNT 1 s t ∧ t.on (ev 0) = true ∧ t.asr = s.asr
      ∧ t.nvj = s.nvj
    let result := F.ASR_SLICESTAT_RESULT
    let slicing := F.ASR_SLICESTAT_BUSY
    let request := Instr.sliceRequest value
    let ctl := value &&& 0xFFFFF
    let total := if s.isTile then 848 else 248
    let first := getBits value 0 10
    let count := min (max 1 (getBits value 10 10)) (total - first)
    let barred := lc = 2 ∨ 4 ≤ lc
    let asked (l : List (Fld × Nat)) (x : AsrState) : Prop :=
      Answers request s (Sets (((Reg.ASR_SLICECTL).whole, ctl.toNat) :: l) [] { s with asr := x })
    let ended := Instr.testSliceEnd units failed row micros
    let fits (r : SliceRun) : Prop := r.left ≠ 0 ∧ (r.cause = 2 →
      r.used + s.unitBound + 100 ≤ s.get F.BOT_DUSKCFG_BUDGET * 1000)
    let wrap (r : SliceRun) (n : Nat) : Nat := if r.cause = 2 then (r.next + n) % total else r.next + n
    let goesOn (r : SliceRun) (t : State) : Prop := (fits r → t.asr.slice = some r ∧ t.get slicing = s.get slicing)
      ∧ (¬ fits r → t.asr.slice = none ∧ (r.cause = 0 → t.get slicing = 0)
        ∧ (r.cause = 1 → t.get F.BOT_STAT_STAGE = if s.bot.dawnDue || s.limitPassed then 6 else 4))
    let complete := Instr.nvjWriteComplete verified
    let mine (j : NvjJob) : Prop := j.pages = [] ∨ ∃ n gd, j.owner = .core n gd
    let spare (i : Nat) : Prop := i < 8 ∧ (s.get F.ASR_NVSTAT_SPARES).testBit i = false
      ∧ ∀ k < i, (s.get F.ASR_NVSTAT_SPARES).testBit k = true
    Answers .nvjCreditRefill s (Sets [(F.ASR_NVSTAT_CREDITS, min (max 9 (s.get F.ASR_NVGUARD_BURST)) (credits + 1))] [] s)
    ∧ (pend ≠ 0 → waits .trimcommit)
    ∧ (pend = 0 → Answers .trimcommit s fun t => (∀ k < 59, t.rd (.ASR_TRIMF k) = s.rd (.ASR_TRIM k))
        ∧ t.get F.ASR_TRIMSTAT_PEND = (if s.isTile then 63 else 57)
        ∧ Changes (F.ASR_TRIMSTAT_PEND :: (List.range 59).map fun k => (Reg.ASR_TRIMF k).whole) [] s t)
    ∧ ((¬ safe ∨ pend.testBit cls = false) → waits point)
    ∧ (safe → pend.testBit cls = true → Answers point s fun t =>
        (∀ i b, s.asr.taps[i]? = some b → i < 236 → t.asr.taps[i]? = some (if trimPlace cls i
          then BitVec.ofNat 8 (getBits (s.rd (.ASR_TRIMF (i / 4))) (8 * (i % 4)) 8) else b))
        ∧ t.asr = { s.asr with taps := t.asr.taps } ∧ t.get F.ASR_TRIMSTAT_PEND = pend - 2 ^ cls.val
        ∧ (pend = 2 ^ cls.val → t.on (ev 4) = true)
        ∧ Changes [F.ASR_TRIMSTAT_PEND, ev 4] (if pend = 2 ^ cls.val then [436] else []) { s with asr := t.asr } t)
    ∧ (calBusy → waits .calsave)
    ∧ (¬ calBusy → (lc = 0 ∨ 4 ≤ lc) → saved 2)
    ∧ (saves → ¬ valid → saved 3)
    ∧ (saves → valid → pend ≠ 0 → saved 7)
    ∧ (saves → valid → pend = 0 → s.nvCheck 9 = 2 → refused 4 2)
    ∧ (saves → valid → pend = 0 → s.nvCheck 9 = 1 → refused 5 1)
    ∧ (saves → valid → pend = 0 → s.nvCheck 9 = 0 → Answers .calsave s fun t =>
        t.get F.ASR_NVSTAT_CREDITS = credits - 9
        ∧ ∃ j < 2, ∃ p : List (Nat × List Byte), p.map Prod.fst = (List.range 8).map (8 * j + ·)
          ∧ t.asr = { s.asr with jobs := s.asr.jobs
            ++ [⟨.trims (((s.rd .ASR_CALCNT).toNat + 1) % 2 ^ 32) (wuSec s.now), p, false⟩] })
    ∧ (barred → asked [(result, 5)] s.asr)
    ∧ (¬ barred → (s.asr.slice ≠ none ∨ s.get F.BOT_STAT_STAGE = 7) → asked [] s.asr)
    ∧ (¬ barred → s.asr.slice = none → s.get F.BOT_STAT_STAGE ≠ 7 → (count = 0 → asked [(result, 3)] s.asr)
        ∧ (count ≠ 0 → asked [(result, 0), (slicing, 1)] { s.asr with slice := some ⟨0, first, count, 0, none⟩ }))
    ∧ (s.asr.slice = none → ∀ c ∈ [Instr.testSlice, .testSliceSkip, ended], waits c)
    ∧ (∀ r, s.asr.slice = some r →
        let kind := (unitBlock r.next).1
        let cap := min (unitBlock r.next).2.2 r.left
        let budget := clampN 5 200 (s.get F.ASR_SLICECFG_BUDGET) * 100
        let n := clampN (max 1 (min cap ((budget - 100) / s.unitBound))) (max 1 cap) units.toNat
        let time := min micros.toNat (max budget (s.unitBound + 100))
        let bad := min failed.toNat n
        let high := min 60 (if s.on F.PWR_STAT_MIDNIGHT then s.get F.PWR_MID_CODE else s.get F.PWR_AVSLIM_VMAX)
        (r.slice ≠ none → waits .testSlice ∧ waits .testSliceSkip)
        ∧ ((r.left = 0 ∨ s.testAllowed r.next = false ∨ s.sliceIdle r.next = false) → waits .testSlice)
        ∧ (r.slice = none → r.left ≠ 0 → s.testAllowed r.next = true → s.sliceIdle r.next = true → Answers .testSlice s fun t =>
            t.asr = { s.asr with slice := some { r with slice := some 0 } } ∧ t.on F.ASR_STAT_SLICE = true
            ∧ t.get F.PWR_VCORE_CODE = high ∧ t.mem = s.mem ∧ t.cores = s.cores)
        ∧ (r.slice = none → Answers .testSliceSkip s fun t =>
            t.get result = (if s.get result = 2 then 2 else 3) ∧ t.mem = s.mem
            ∧ goesOn { r with
              next := wrap r 1, left := r.left - 1, used := r.used + if s.testAllowed r.next then 1000 else 0 } t)
        ∧ (r.slice = none → waits ended)
        ∧ (r.slice ≠ none → Answers ended s fun t =>
            goesOn { r with next := wrap r n, left := r.left - n, used := r.used + time, slice := none } t
            ∧ t.get F.ASR_SLICESTAT_UNIT = (r.next + n - 1) % 1024 ∧ t.on F.ASR_STAT_SLICE = false
            ∧ t.get result = (if bad ≠ 0 ∨ s.get result = 2 then 2 else 1) ∧ Counted F.ASR_TESTFAIL_COUNT bad s t
            ∧ (bad ≠ 0 → t.on (ev 3) = true)
            ∧ (∀ x, bad ≠ 0 → row = some x → t.get F.ASR_FAILROW_ROW = x.toNat ∧ t.on F.ASR_FAILROW_VALID = true)
            ∧ (bad ≠ 0 → r.cause = 1 → t.on F.BOT_SEAL_POSTFAIL = true) ∧ (kind ≠ 13 → t.mem = s.mem)
            ∧ (kind ≠ 1 → t.cores = s.cores)))
    ∧ (¬ tile → waits (.proofEnable en))
    ∧ (tile → Answers (.proofEnable en) s (Sets [(F.ASR_PROOFCFG_EN, b2n en)] []
        { s with asr := { s.asr with proof := { s.asr.proof with running := en, started := false } } }))
    ∧ (s.asr.jobs = [] → waits complete)
    ∧ (∀ j more, s.asr.jobs = j :: more → mine j → waits complete)
    ∧ (∀ o page l rest again more, s.asr.jobs = ⟨o, (page, l) :: rest, again⟩ :: more → (∀ n gd, o ≠ .core n gd) →
        l.length = 32 → Memory.wf s.nvj.data = true →
        (verified = true → s.nvFailed page = false → Answers complete s fun t => t.nvPage page = l
          ∧ t.mem = s.mem ∧ t.cores = s.cores ∧ (rest ≠ [] → t.asr.jobs = ⟨o, rest, false⟩ :: more)
          ∧ (rest = [] → t.get F.ASR_NVSTAT_LASTRES = 0 ∧ ((∀ a b, o ≠ .trims a b) → t.asr.jobs = more)))
        ∧ (verified = false → s.nvFailed page = false → ∀ i, spare i → Answers complete s fun t =>
          t.nvj.phys page = 120 + i ∧ t.get F.ASR_NVSTAT_SPARES = s.get F.ASR_NVSTAT_SPARES + 2 ^ i ∧ t.on (ev 0) = true
          ∧ (again = false → t.asr.jobs = ⟨o, (page, l) :: rest, true⟩ :: more)
          ∧ (again = true → t.get F.ASR_NVSTAT_LASTRES = 4 ∧ t.asr.jobs = more))
        ∧ (verified = false → (s.nvFailed page = true ∨ s.get F.ASR_NVSTAT_SPARES = 255) → Answers complete s fun t =>
          t.nvFailed page = true ∧ t.get F.ASR_NVSTAT_LASTRES = 4 ∧ t.on (ev 0) = true ∧ t.asr.jobs = more))

/-- R89, R303, R330, R378, R514, R515, Table 21.10: an armed substitution takes effect at its safe point: the spare cell
of a pad, the spare lane of an engine between compositions, a spare row of a memory; EVSPARE is set and the changed repair
map is queued for the journal, or held while the temperature is not proven; a class whose entries are full sets its FULL
bit and EVMAP. -/
def Obligations.ArmedSparesTakeOverAndAreRecorded : Prop :=
  ∀ (s : State) (p : Fin 128) (code : BitVec 23),
    let waits (c : Instr) : Prop := Answers c s (· = s)
    let m := s.asr.map
    let noted (t : State) : Prop := t.on ⟨.ASR_EV, 1, 1⟩ = true ∧ t.mem = s.mem ∧ t.cores = s.cores
    let recorded (x : RepairMap) (t : State) : Prop := noted t ∧ t.asr.map = x
      ∧ (s.tempProven = true → t.aon.mapHeld = none ∧ t.on F.ASR_STAT_MAPHELD = false
        ∧ ∃ j, t.asr.jobs = s.asr.jobs ++ [j] ∧ j.owner = .map ∧ ∃ q, j.pages.map Prod.snd = [x.page q])
      ∧ (s.tempProven = false → t.aon.mapHeld = some x ∧ t.on F.ASR_STAT_MAPHELD = true ∧ t.asr.jobs = s.asr.jobs)
    let full (b : Nat) (t : State) : Prop := noted t ∧ t.asr.map = m ∧ t.on ⟨.ASR_MAPSTAT, 16 + b, 1⟩ = true
      ∧ t.on ⟨.ASR_EV, 2, 1⟩ = true ∧ t.asr.jobs = s.asr.jobs
    let cell := Instr.lpdCellSubstitution p
    let disarmed (c i : Nat) (t : State) : Prop := t.asr.armed = s.asr.armed.erase (c, i)
    let lane (c : Instr) (cls : Nat) (r : Reg) (x : Nat → RepairMap) : Prop :=
      ((s.armedIn cls = none ∨ s.get F.CMP_STAT_STATE = 1) → waits c)
      ∧ (∀ k, s.armedIn cls = some k → s.get F.CMP_STAT_STATE ≠ 1 → Answers c s fun t => recorded (x k) t
        ∧ disarmed cls k t ∧ (k < 8 → ∀ j < 8, getBits (t.rd r) (4 * j) 4 = if j = k then 8 else getBits (s.rd r) (4 * j) 4))
    let sram := Instr.sramRowSubstitution code
    let composing := ∃ f ∈ s.cmp.frames, f.complete = false
    let takes := (7, code.toNat) ∈ s.asr.armed ∧ ((sramOf code.toNat = 7 ∨ sramOf code.toNat = 9) → ¬ composing)
    (s.on (F.LMP_PSTAT_ARMED p) = false → waits cell)
    ∧ (s.on (F.LMP_PSTAT_ARMED p) = true → Answers cell s fun t => t.on (F.LMP_PSTAT_SPARECELL p) = true
        ∧ t.on (F.LMP_PSTAT_ARMED p) = false ∧ t.on (F.LMP_PSTAT_EVCELL p) = true ∧ disarmed 2 p t
        ∧ (m.cells.length < 4 → recorded { m with cells := m.cells ++ [p.val] } t)
        ∧ (4 ≤ m.cells.length → full 0 t))
    ∧ lane .compositorLaneSubstitution 4 .CMP_LANEMAP (fun k => { m with cmpLane := k })
    ∧ lane .correctionLaneSubstitution 5 .COR_LANEMAP (fun k => { m with corLane := k })
    ∧ (¬ takes → waits sram)
    ∧ (takes → Answers sram s fun t => t.asr.rows = s.asr.rows ++ [code.toNat] ∧ disarmed 7 code.toNat t
        ∧ (m.rows.length < 3 → recorded { m with rows := m.rows ++ [code.toNat] } t)
        ∧ (3 ≤ m.rows.length → full 1 t))

/-! ### The test access port -/

/-- R552: the test access port: BYPASS shifts through one bit, IDCODE gives the identification code, SAMPLE/PRELOAD and
EXTEST shift the boundary register, CLAMP and HIGHZ select the bypass register; EXTEST, CLAMP and HIGHZ take over the
balls in BLANK, MANUFACTURE and SERVICE and act as BYPASS in the other states; a reset selects IDCODE. No command of the
port changes anything else. The shift details are those of IEEE 1149.1 (log entry 12). -/
def Obligations.TheTestAccessPortDrivesTheBalls : Prop :=
  ∀ (s : State) (pins tdi : List Bool),
    let lc := s.get F.BOT_LCS_STATE
    let open' := lc = 0 ∨ lc = 1 ∨ lc = 3
    let does (c : Instr) (i : TapInstr) (cells : List Bool) (d : PinDrive) (out : List Bool) : Prop :=
      Answers c s (· = { s with tap := ⟨i, cells, d⟩, sent := s.sent ++ [.tdo out] })
    let one := (false :: tdi).take tdi.length
    let kept := s.tap.cells
    let passes (c : Instr) : Prop := does c .bypass kept .functions one
    let shifted := tdi.take pins.length ++ pins.take (pins.length - tdi.length)
    let out := pins.take tdi.length
    passes (.bypass tdi)
    ∧ does .idcode .idcode kept .functions ((List.range 32).map fun i => (0x29128367 : Nat).testBit i)
    ∧ does (.samplePreload pins tdi) .sample shifted .functions out
    ∧ (open' → does (.extest pins tdi) .extest shifted (.boundary shifted) out
        ∧ does (.clamp tdi) .clamp kept (.boundary kept) one ∧ does (.highz tdi) .highz kept .floating one)
    ∧ (¬ open' → passes (.extest pins tdi) ∧ passes (.clamp tdi) ∧ passes (.highz tdi))
    ∧ Answers .tapReset s (· = { s with tap := ⟨.idcode, kept, .functions⟩ })

/-! ### The machine -/

/-- The command at the front of the queue is executed with the queue's rest; on an empty queue the part idles, which is
the model's choice (log entry 2). -/
def Obligations.TheFrontCommandIsExecutedNext : Prop :=
  (∀ (c : Instr) (s : State) (rest : List Instr), s.pending = c :: rest → step s = exec c { s with pending := rest })
  ∧ ∀ s : State, s.pending = [] → step s = .next s

/-- Every command that can be sent has its effect as a next state, and no command touches the queue; so from a queue of
such commands every step goes on, to a queue of such commands. No command is refused. -/
def Obligations.CommandsCompleteAndLeaveTheQueue : Prop :=
  ∀ (s : State),
    (∀ c : Instr, (c.wellFormed = true → ∃ t, exec c s = .next t) ∧ (∀ t, exec c s = .next t → t.pending = s.pending)
      ∧ ∀ x, exec c s ≠ .refused x)
    ∧ (s.queueSound = true → s.steps ∧ ∀ t, step s = .next t → t.queueSound = true)

/-- The memories and the journal keep their canonical form: what a step leaves of them again lists rising addresses and
no zero, so that equal contents are equal states. The form is the model's (log entry 3). -/
def Obligations.StepsKeepTheMemoriesCanonical : Prop :=
  ∀ (s t : State), s.memSound = true → step s = .next t → t.memSound = true

/-- R2, R93, R524, R531, R554, Tables 3.6 to 3.8, 22.2 to 22.20: right after reset every word holds its reset value, no
memory lists a byte, every core is in supervisor mode, outside a trap, with general registers 0, TVEC in the boot ROM and
no instruction counted, HC0 runs from the boot ROM entry and the others are halted, and no command waits. That an unlisted
byte reads 0, and that the role is the sender's, are the model's choices (log entries 3 and 10). -/
def Obligations.ResetGivesEveryWordItsValue : Prop :=
  (∀ r, State.reset.rd r = r.resetValue) ∧ State.reset.memSound = true ∧ State.reset.queueSound = true
  ∧ State.reset.pending = [] ∧ (∀ a, State.reset.byte a = 0)
  ∧ (∀ n, (State.reset.core n).sup = true ∧ (State.reset.core n).inTrap = false ∧ (State.reset.core n).instret = 0
    ∧ (State.reset.core n).tvec = 0xFFFFFF0040 ∧ (State.reset.core n).evmask = 0
    ∧ (∀ r, (State.reset.core n).rg r = 0) ∧ State.reset.coreState n = if n = 0 then 1 else 0)
  ∧ (State.reset.core 0).pc = 0xFFFFFF0000 ∧ State.reset.isTile = false
  ∧ State.reset.get (F.PWR_PHASE_RAIL 0) = 1 ∧ State.reset.get (F.PWR_PHASE_RAIL 1) = 1
end

