-- ==== Sys2Proof/Laws/State.lean ====
section
/-! SUPPORT. What each update of the state leaves in each of its parts: one lemma for each part and update. -/

namespace Sys2Proof.Machine


/-! ### A word -/

@[simp] theorem State.wr_mem (s : State) (r : Reg) (v : Word) : (s.wr r v).mem = s.mem := rfl
@[simp] theorem State.wr_poison (s : State) (r : Reg) (v : Word) : (s.wr r v).poison = s.poison := rfl
@[simp] theorem State.wr_soft (s : State) (r : Reg) (v : Word) : (s.wr r v).soft = s.soft := rfl
@[simp] theorem State.wr_cores (s : State) (r : Reg) (v : Word) : (s.wr r v).cores = s.cores := rfl
@[simp] theorem State.wr_lan (s : State) (r : Reg) (v : Word) : (s.wr r v).lan = s.lan := rfl
@[simp] theorem State.wr_lnk (s : State) (r : Reg) (v : Word) : (s.wr r v).lnk = s.lnk := rfl
@[simp] theorem State.wr_tim (s : State) (r : Reg) (v : Word) : (s.wr r v).tim = s.tim := rfl
@[simp] theorem State.wr_nvj (s : State) (r : Reg) (v : Word) : (s.wr r v).nvj = s.nvj := rfl
@[simp] theorem State.wr_srf (s : State) (r : Reg) (v : Word) : (s.wr r v).srf = s.srf := rfl
@[simp] theorem State.wr_codec (s : State) (r : Reg) (v : Word) : (s.wr r v).codec = s.codec := rfl
@[simp] theorem State.wr_mir (s : State) (r : Reg) (v : Word) : (s.wr r v).mir = s.mir := rfl
@[simp] theorem State.wr_hst (s : State) (r : Reg) (v : Word) : (s.wr r v).hst = s.hst := rfl
@[simp] theorem State.wr_ing (s : State) (r : Reg) (v : Word) : (s.wr r v).ing = s.ing := rfl
@[simp] theorem State.wr_asr (s : State) (r : Reg) (v : Word) : (s.wr r v).asr = s.asr := rfl
@[simp] theorem State.wr_fuse (s : State) (r : Reg) (v : Word) : (s.wr r v).fuse = s.fuse := rfl
@[simp] theorem State.wr_aon (s : State) (r : Reg) (v : Word) : (s.wr r v).aon = s.aon := rfl
@[simp] theorem State.wr_dram (s : State) (r : Reg) (v : Word) : (s.wr r v).dram = s.dram := rfl
@[simp] theorem State.wr_ddrDiv (s : State) (r : Reg) (v : Word) : (s.wr r v).ddrDiv = s.ddrDiv := rfl
@[simp] theorem State.wr_sd (s : State) (r : Reg) (v : Word) : (s.wr r v).sd = s.sd := rfl
@[simp] theorem State.wr_bot (s : State) (r : Reg) (v : Word) : (s.wr r v).bot = s.bot := rfl
@[simp] theorem State.wr_tap (s : State) (r : Reg) (v : Word) : (s.wr r v).tap = s.tap := rfl
@[simp] theorem State.wr_cmp (s : State) (r : Reg) (v : Word) : (s.wr r v).cmp = s.cmp := rfl
@[simp] theorem State.wr_cor (s : State) (r : Reg) (v : Word) : (s.wr r v).cor = s.cor := rfl
@[simp] theorem State.wr_scn (s : State) (r : Reg) (v : Word) : (s.wr r v).scn = s.scn := rfl
@[simp] theorem State.wr_pwr (s : State) (r : Reg) (v : Word) : (s.wr r v).pwr = s.pwr := rfl
@[simp] theorem State.wr_hkp (s : State) (r : Reg) (v : Word) : (s.wr r v).hkp = s.hkp := rfl
@[simp] theorem State.wr_sent (s : State) (r : Reg) (v : Word) : (s.wr r v).sent = s.sent := rfl
@[simp] theorem State.wr_freeCtr (s : State) (r : Reg) (v : Word) : (s.wr r v).freeCtr = s.freeCtr := rfl
@[simp] theorem State.wr_pending (s : State) (r : Reg) (v : Word) : (s.wr r v).pending = s.pending := rfl

/-! ### A field -/

@[simp] theorem State.set_mem (s : State) (f : Fld) (v : Nat) : (s.set f v).mem = s.mem := rfl
@[simp] theorem State.set_poison (s : State) (f : Fld) (v : Nat) : (s.set f v).poison = s.poison := rfl
@[simp] theorem State.set_soft (s : State) (f : Fld) (v : Nat) : (s.set f v).soft = s.soft := rfl
@[simp] theorem State.set_cores (s : State) (f : Fld) (v : Nat) : (s.set f v).cores = s.cores := rfl
@[simp] theorem State.set_lan (s : State) (f : Fld) (v : Nat) : (s.set f v).lan = s.lan := rfl
@[simp] theorem State.set_lnk (s : State) (f : Fld) (v : Nat) : (s.set f v).lnk = s.lnk := rfl
@[simp] theorem State.set_tim (s : State) (f : Fld) (v : Nat) : (s.set f v).tim = s.tim := rfl
@[simp] theorem State.set_nvj (s : State) (f : Fld) (v : Nat) : (s.set f v).nvj = s.nvj := rfl
@[simp] theorem State.set_srf (s : State) (f : Fld) (v : Nat) : (s.set f v).srf = s.srf := rfl
@[simp] theorem State.set_codec (s : State) (f : Fld) (v : Nat) : (s.set f v).codec = s.codec := rfl
@[simp] theorem State.set_mir (s : State) (f : Fld) (v : Nat) : (s.set f v).mir = s.mir := rfl
@[simp] theorem State.set_hst (s : State) (f : Fld) (v : Nat) : (s.set f v).hst = s.hst := rfl
@[simp] theorem State.set_ing (s : State) (f : Fld) (v : Nat) : (s.set f v).ing = s.ing := rfl
@[simp] theorem State.set_asr (s : State) (f : Fld) (v : Nat) : (s.set f v).asr = s.asr := rfl
@[simp] theorem State.set_fuse (s : State) (f : Fld) (v : Nat) : (s.set f v).fuse = s.fuse := rfl
@[simp] theorem State.set_aon (s : State) (f : Fld) (v : Nat) : (s.set f v).aon = s.aon := rfl
@[simp] theorem State.set_dram (s : State) (f : Fld) (v : Nat) : (s.set f v).dram = s.dram := rfl
@[simp] theorem State.set_ddrDiv (s : State) (f : Fld) (v : Nat) : (s.set f v).ddrDiv = s.ddrDiv := rfl
@[simp] theorem State.set_sd (s : State) (f : Fld) (v : Nat) : (s.set f v).sd = s.sd := rfl
@[simp] theorem State.set_bot (s : State) (f : Fld) (v : Nat) : (s.set f v).bot = s.bot := rfl
@[simp] theorem State.set_tap (s : State) (f : Fld) (v : Nat) : (s.set f v).tap = s.tap := rfl
@[simp] theorem State.set_cmp (s : State) (f : Fld) (v : Nat) : (s.set f v).cmp = s.cmp := rfl
@[simp] theorem State.set_cor (s : State) (f : Fld) (v : Nat) : (s.set f v).cor = s.cor := rfl
@[simp] theorem State.set_scn (s : State) (f : Fld) (v : Nat) : (s.set f v).scn = s.scn := rfl
@[simp] theorem State.set_pwr (s : State) (f : Fld) (v : Nat) : (s.set f v).pwr = s.pwr := rfl
@[simp] theorem State.set_hkp (s : State) (f : Fld) (v : Nat) : (s.set f v).hkp = s.hkp := rfl
@[simp] theorem State.set_sent (s : State) (f : Fld) (v : Nat) : (s.set f v).sent = s.sent := rfl
@[simp] theorem State.set_freeCtr (s : State) (f : Fld) (v : Nat) : (s.set f v).freeCtr = s.freeCtr := rfl
@[simp] theorem State.set_pending (s : State) (f : Fld) (v : Nat) : (s.set f v).pending = s.pending := rfl
@[simp] theorem State.count_mem (s : State) (f : Fld) (k : Nat) : (s.count f k).mem = s.mem := rfl
@[simp] theorem State.count_poison (s : State) (f : Fld) (k : Nat) : (s.count f k).poison = s.poison := rfl
@[simp] theorem State.count_soft (s : State) (f : Fld) (k : Nat) : (s.count f k).soft = s.soft := rfl
@[simp] theorem State.count_cores (s : State) (f : Fld) (k : Nat) : (s.count f k).cores = s.cores := rfl
@[simp] theorem State.count_lan (s : State) (f : Fld) (k : Nat) : (s.count f k).lan = s.lan := rfl
@[simp] theorem State.count_lnk (s : State) (f : Fld) (k : Nat) : (s.count f k).lnk = s.lnk := rfl
@[simp] theorem State.count_tim (s : State) (f : Fld) (k : Nat) : (s.count f k).tim = s.tim := rfl
@[simp] theorem State.count_nvj (s : State) (f : Fld) (k : Nat) : (s.count f k).nvj = s.nvj := rfl
@[simp] theorem State.count_srf (s : State) (f : Fld) (k : Nat) : (s.count f k).srf = s.srf := rfl
@[simp] theorem State.count_codec (s : State) (f : Fld) (k : Nat) : (s.count f k).codec = s.codec := rfl
@[simp] theorem State.count_mir (s : State) (f : Fld) (k : Nat) : (s.count f k).mir = s.mir := rfl
@[simp] theorem State.count_hst (s : State) (f : Fld) (k : Nat) : (s.count f k).hst = s.hst := rfl
@[simp] theorem State.count_ing (s : State) (f : Fld) (k : Nat) : (s.count f k).ing = s.ing := rfl
@[simp] theorem State.count_asr (s : State) (f : Fld) (k : Nat) : (s.count f k).asr = s.asr := rfl
@[simp] theorem State.count_fuse (s : State) (f : Fld) (k : Nat) : (s.count f k).fuse = s.fuse := rfl
@[simp] theorem State.count_aon (s : State) (f : Fld) (k : Nat) : (s.count f k).aon = s.aon := rfl
@[simp] theorem State.count_dram (s : State) (f : Fld) (k : Nat) : (s.count f k).dram = s.dram := rfl
@[simp] theorem State.count_ddrDiv (s : State) (f : Fld) (k : Nat) : (s.count f k).ddrDiv = s.ddrDiv := rfl
@[simp] theorem State.count_sd (s : State) (f : Fld) (k : Nat) : (s.count f k).sd = s.sd := rfl
@[simp] theorem State.count_bot (s : State) (f : Fld) (k : Nat) : (s.count f k).bot = s.bot := rfl
@[simp] theorem State.count_tap (s : State) (f : Fld) (k : Nat) : (s.count f k).tap = s.tap := rfl
@[simp] theorem State.count_cmp (s : State) (f : Fld) (k : Nat) : (s.count f k).cmp = s.cmp := rfl
@[simp] theorem State.count_cor (s : State) (f : Fld) (k : Nat) : (s.count f k).cor = s.cor := rfl
@[simp] theorem State.count_scn (s : State) (f : Fld) (k : Nat) : (s.count f k).scn = s.scn := rfl
@[simp] theorem State.count_pwr (s : State) (f : Fld) (k : Nat) : (s.count f k).pwr = s.pwr := rfl
@[simp] theorem State.count_hkp (s : State) (f : Fld) (k : Nat) : (s.count f k).hkp = s.hkp := rfl
@[simp] theorem State.count_sent (s : State) (f : Fld) (k : Nat) : (s.count f k).sent = s.sent := rfl
@[simp] theorem State.count_freeCtr (s : State) (f : Fld) (k : Nat) : (s.count f k).freeCtr = s.freeCtr := rfl
@[simp] theorem State.count_pending (s : State) (f : Fld) (k : Nat) : (s.count f k).pending = s.pending := rfl
@[simp] theorem State.wrapUp_mem (s : State) (f : Fld) : (s.wrapUp f).mem = s.mem := rfl
@[simp] theorem State.wrapUp_poison (s : State) (f : Fld) : (s.wrapUp f).poison = s.poison := rfl
@[simp] theorem State.wrapUp_soft (s : State) (f : Fld) : (s.wrapUp f).soft = s.soft := rfl
@[simp] theorem State.wrapUp_cores (s : State) (f : Fld) : (s.wrapUp f).cores = s.cores := rfl
@[simp] theorem State.wrapUp_lan (s : State) (f : Fld) : (s.wrapUp f).lan = s.lan := rfl
@[simp] theorem State.wrapUp_lnk (s : State) (f : Fld) : (s.wrapUp f).lnk = s.lnk := rfl
@[simp] theorem State.wrapUp_tim (s : State) (f : Fld) : (s.wrapUp f).tim = s.tim := rfl
@[simp] theorem State.wrapUp_nvj (s : State) (f : Fld) : (s.wrapUp f).nvj = s.nvj := rfl
@[simp] theorem State.wrapUp_srf (s : State) (f : Fld) : (s.wrapUp f).srf = s.srf := rfl
@[simp] theorem State.wrapUp_codec (s : State) (f : Fld) : (s.wrapUp f).codec = s.codec := rfl
@[simp] theorem State.wrapUp_mir (s : State) (f : Fld) : (s.wrapUp f).mir = s.mir := rfl
@[simp] theorem State.wrapUp_hst (s : State) (f : Fld) : (s.wrapUp f).hst = s.hst := rfl
@[simp] theorem State.wrapUp_ing (s : State) (f : Fld) : (s.wrapUp f).ing = s.ing := rfl
@[simp] theorem State.wrapUp_asr (s : State) (f : Fld) : (s.wrapUp f).asr = s.asr := rfl
@[simp] theorem State.wrapUp_fuse (s : State) (f : Fld) : (s.wrapUp f).fuse = s.fuse := rfl
@[simp] theorem State.wrapUp_aon (s : State) (f : Fld) : (s.wrapUp f).aon = s.aon := rfl
@[simp] theorem State.wrapUp_dram (s : State) (f : Fld) : (s.wrapUp f).dram = s.dram := rfl
@[simp] theorem State.wrapUp_ddrDiv (s : State) (f : Fld) : (s.wrapUp f).ddrDiv = s.ddrDiv := rfl
@[simp] theorem State.wrapUp_sd (s : State) (f : Fld) : (s.wrapUp f).sd = s.sd := rfl
@[simp] theorem State.wrapUp_bot (s : State) (f : Fld) : (s.wrapUp f).bot = s.bot := rfl
@[simp] theorem State.wrapUp_tap (s : State) (f : Fld) : (s.wrapUp f).tap = s.tap := rfl
@[simp] theorem State.wrapUp_cmp (s : State) (f : Fld) : (s.wrapUp f).cmp = s.cmp := rfl
@[simp] theorem State.wrapUp_cor (s : State) (f : Fld) : (s.wrapUp f).cor = s.cor := rfl
@[simp] theorem State.wrapUp_scn (s : State) (f : Fld) : (s.wrapUp f).scn = s.scn := rfl
@[simp] theorem State.wrapUp_pwr (s : State) (f : Fld) : (s.wrapUp f).pwr = s.pwr := rfl
@[simp] theorem State.wrapUp_hkp (s : State) (f : Fld) : (s.wrapUp f).hkp = s.hkp := rfl
@[simp] theorem State.wrapUp_sent (s : State) (f : Fld) : (s.wrapUp f).sent = s.sent := rfl
@[simp] theorem State.wrapUp_freeCtr (s : State) (f : Fld) : (s.wrapUp f).freeCtr = s.freeCtr := rfl
@[simp] theorem State.wrapUp_pending (s : State) (f : Fld) : (s.wrapUp f).pending = s.pending := rfl

/-! ### Events -/

@[simp] theorem State.raise_mem (s : State) (k : Nat) : (s.raise k).mem = s.mem := by unfold State.raise; split <;> rfl
@[simp] theorem State.raise_poison (s : State) (k : Nat) : (s.raise k).poison = s.poison := by unfold State.raise; split <;> rfl
@[simp] theorem State.raise_soft (s : State) (k : Nat) : (s.raise k).soft = s.soft := by unfold State.raise; split <;> rfl
@[simp] theorem State.raise_cores (s : State) (k : Nat) : (s.raise k).cores = s.cores := by unfold State.raise; split <;> rfl
@[simp] theorem State.raise_lan (s : State) (k : Nat) : (s.raise k).lan = s.lan := by unfold State.raise; split <;> rfl
@[simp] theorem State.raise_lnk (s : State) (k : Nat) : (s.raise k).lnk = s.lnk := by unfold State.raise; split <;> rfl
@[simp] theorem State.raise_tim (s : State) (k : Nat) : (s.raise k).tim = s.tim := by unfold State.raise; split <;> rfl
@[simp] theorem State.raise_nvj (s : State) (k : Nat) : (s.raise k).nvj = s.nvj := by unfold State.raise; split <;> rfl
@[simp] theorem State.raise_srf (s : State) (k : Nat) : (s.raise k).srf = s.srf := by unfold State.raise; split <;> rfl
@[simp] theorem State.raise_codec (s : State) (k : Nat) : (s.raise k).codec = s.codec := by unfold State.raise; split <;> rfl
@[simp] theorem State.raise_mir (s : State) (k : Nat) : (s.raise k).mir = s.mir := by unfold State.raise; split <;> rfl
@[simp] theorem State.raise_hst (s : State) (k : Nat) : (s.raise k).hst = s.hst := by unfold State.raise; split <;> rfl
@[simp] theorem State.raise_ing (s : State) (k : Nat) : (s.raise k).ing = s.ing := by unfold State.raise; split <;> rfl
@[simp] theorem State.raise_asr (s : State) (k : Nat) : (s.raise k).asr = s.asr := by unfold State.raise; split <;> rfl
@[simp] theorem State.raise_fuse (s : State) (k : Nat) : (s.raise k).fuse = s.fuse := by unfold State.raise; split <;> rfl
@[simp] theorem State.raise_aon (s : State) (k : Nat) : (s.raise k).aon = s.aon := by unfold State.raise; split <;> rfl
@[simp] theorem State.raise_dram (s : State) (k : Nat) : (s.raise k).dram = s.dram := by unfold State.raise; split <;> rfl
@[simp] theorem State.raise_ddrDiv (s : State) (k : Nat) : (s.raise k).ddrDiv = s.ddrDiv := by unfold State.raise; split <;> rfl
@[simp] theorem State.raise_sd (s : State) (k : Nat) : (s.raise k).sd = s.sd := by unfold State.raise; split <;> rfl
@[simp] theorem State.raise_bot (s : State) (k : Nat) : (s.raise k).bot = s.bot := by unfold State.raise; split <;> rfl
@[simp] theorem State.raise_tap (s : State) (k : Nat) : (s.raise k).tap = s.tap := by unfold State.raise; split <;> rfl
@[simp] theorem State.raise_cmp (s : State) (k : Nat) : (s.raise k).cmp = s.cmp := by unfold State.raise; split <;> rfl
@[simp] theorem State.raise_cor (s : State) (k : Nat) : (s.raise k).cor = s.cor := by unfold State.raise; split <;> rfl
@[simp] theorem State.raise_scn (s : State) (k : Nat) : (s.raise k).scn = s.scn := by unfold State.raise; split <;> rfl
@[simp] theorem State.raise_pwr (s : State) (k : Nat) : (s.raise k).pwr = s.pwr := by unfold State.raise; split <;> rfl
@[simp] theorem State.raise_hkp (s : State) (k : Nat) : (s.raise k).hkp = s.hkp := by unfold State.raise; split <;> rfl
@[simp] theorem State.raise_sent (s : State) (k : Nat) : (s.raise k).sent = s.sent := by unfold State.raise; split <;> rfl
@[simp] theorem State.raise_freeCtr (s : State) (k : Nat) : (s.raise k).freeCtr = s.freeCtr := by unfold State.raise; split <;> rfl
@[simp] theorem State.raise_pending (s : State) (k : Nat) : (s.raise k).pending = s.pending := by unfold State.raise; split <;> rfl
@[simp] theorem State.flag_mem (s : State) (r : Reg) (b : Nat) : (s.flag r b).mem = s.mem := by simp [State.flag]
@[simp] theorem State.flag_poison (s : State) (r : Reg) (b : Nat) : (s.flag r b).poison = s.poison := by simp [State.flag]
@[simp] theorem State.flag_soft (s : State) (r : Reg) (b : Nat) : (s.flag r b).soft = s.soft := by simp [State.flag]
@[simp] theorem State.flag_cores (s : State) (r : Reg) (b : Nat) : (s.flag r b).cores = s.cores := by simp [State.flag]
@[simp] theorem State.flag_lan (s : State) (r : Reg) (b : Nat) : (s.flag r b).lan = s.lan := by simp [State.flag]
@[simp] theorem State.flag_lnk (s : State) (r : Reg) (b : Nat) : (s.flag r b).lnk = s.lnk := by simp [State.flag]
@[simp] theorem State.flag_tim (s : State) (r : Reg) (b : Nat) : (s.flag r b).tim = s.tim := by simp [State.flag]
@[simp] theorem State.flag_nvj (s : State) (r : Reg) (b : Nat) : (s.flag r b).nvj = s.nvj := by simp [State.flag]
@[simp] theorem State.flag_srf (s : State) (r : Reg) (b : Nat) : (s.flag r b).srf = s.srf := by simp [State.flag]
@[simp] theorem State.flag_codec (s : State) (r : Reg) (b : Nat) : (s.flag r b).codec = s.codec := by simp [State.flag]
@[simp] theorem State.flag_mir (s : State) (r : Reg) (b : Nat) : (s.flag r b).mir = s.mir := by simp [State.flag]
@[simp] theorem State.flag_hst (s : State) (r : Reg) (b : Nat) : (s.flag r b).hst = s.hst := by simp [State.flag]
@[simp] theorem State.flag_ing (s : State) (r : Reg) (b : Nat) : (s.flag r b).ing = s.ing := by simp [State.flag]
@[simp] theorem State.flag_asr (s : State) (r : Reg) (b : Nat) : (s.flag r b).asr = s.asr := by simp [State.flag]
@[simp] theorem State.flag_fuse (s : State) (r : Reg) (b : Nat) : (s.flag r b).fuse = s.fuse := by simp [State.flag]
@[simp] theorem State.flag_aon (s : State) (r : Reg) (b : Nat) : (s.flag r b).aon = s.aon := by simp [State.flag]
@[simp] theorem State.flag_dram (s : State) (r : Reg) (b : Nat) : (s.flag r b).dram = s.dram := by simp [State.flag]
@[simp] theorem State.flag_ddrDiv (s : State) (r : Reg) (b : Nat) : (s.flag r b).ddrDiv = s.ddrDiv := by simp [State.flag]
@[simp] theorem State.flag_sd (s : State) (r : Reg) (b : Nat) : (s.flag r b).sd = s.sd := by simp [State.flag]
@[simp] theorem State.flag_bot (s : State) (r : Reg) (b : Nat) : (s.flag r b).bot = s.bot := by simp [State.flag]
@[simp] theorem State.flag_tap (s : State) (r : Reg) (b : Nat) : (s.flag r b).tap = s.tap := by simp [State.flag]
@[simp] theorem State.flag_cmp (s : State) (r : Reg) (b : Nat) : (s.flag r b).cmp = s.cmp := by simp [State.flag]
@[simp] theorem State.flag_cor (s : State) (r : Reg) (b : Nat) : (s.flag r b).cor = s.cor := by simp [State.flag]
@[simp] theorem State.flag_scn (s : State) (r : Reg) (b : Nat) : (s.flag r b).scn = s.scn := by simp [State.flag]
@[simp] theorem State.flag_pwr (s : State) (r : Reg) (b : Nat) : (s.flag r b).pwr = s.pwr := by simp [State.flag]
@[simp] theorem State.flag_hkp (s : State) (r : Reg) (b : Nat) : (s.flag r b).hkp = s.hkp := by simp [State.flag]
@[simp] theorem State.flag_sent (s : State) (r : Reg) (b : Nat) : (s.flag r b).sent = s.sent := by simp [State.flag]
@[simp] theorem State.flag_freeCtr (s : State) (r : Reg) (b : Nat) : (s.flag r b).freeCtr = s.freeCtr := by simp [State.flag]
@[simp] theorem State.flag_pending (s : State) (r : Reg) (b : Nat) : (s.flag r b).pending = s.pending := by simp [State.flag]
@[simp] theorem State.flagF_mem (s : State) (f : Fld) : (s.flagF f).mem = s.mem := by simp [State.flagF]
@[simp] theorem State.flagF_poison (s : State) (f : Fld) : (s.flagF f).poison = s.poison := by simp [State.flagF]
@[simp] theorem State.flagF_soft (s : State) (f : Fld) : (s.flagF f).soft = s.soft := by simp [State.flagF]
@[simp] theorem State.flagF_cores (s : State) (f : Fld) : (s.flagF f).cores = s.cores := by simp [State.flagF]
@[simp] theorem State.flagF_lan (s : State) (f : Fld) : (s.flagF f).lan = s.lan := by simp [State.flagF]
@[simp] theorem State.flagF_lnk (s : State) (f : Fld) : (s.flagF f).lnk = s.lnk := by simp [State.flagF]
@[simp] theorem State.flagF_tim (s : State) (f : Fld) : (s.flagF f).tim = s.tim := by simp [State.flagF]
@[simp] theorem State.flagF_nvj (s : State) (f : Fld) : (s.flagF f).nvj = s.nvj := by simp [State.flagF]
@[simp] theorem State.flagF_srf (s : State) (f : Fld) : (s.flagF f).srf = s.srf := by simp [State.flagF]
@[simp] theorem State.flagF_codec (s : State) (f : Fld) : (s.flagF f).codec = s.codec := by simp [State.flagF]
@[simp] theorem State.flagF_mir (s : State) (f : Fld) : (s.flagF f).mir = s.mir := by simp [State.flagF]
@[simp] theorem State.flagF_hst (s : State) (f : Fld) : (s.flagF f).hst = s.hst := by simp [State.flagF]
@[simp] theorem State.flagF_ing (s : State) (f : Fld) : (s.flagF f).ing = s.ing := by simp [State.flagF]
@[simp] theorem State.flagF_asr (s : State) (f : Fld) : (s.flagF f).asr = s.asr := by simp [State.flagF]
@[simp] theorem State.flagF_fuse (s : State) (f : Fld) : (s.flagF f).fuse = s.fuse := by simp [State.flagF]
@[simp] theorem State.flagF_aon (s : State) (f : Fld) : (s.flagF f).aon = s.aon := by simp [State.flagF]
@[simp] theorem State.flagF_dram (s : State) (f : Fld) : (s.flagF f).dram = s.dram := by simp [State.flagF]
@[simp] theorem State.flagF_ddrDiv (s : State) (f : Fld) : (s.flagF f).ddrDiv = s.ddrDiv := by simp [State.flagF]
@[simp] theorem State.flagF_sd (s : State) (f : Fld) : (s.flagF f).sd = s.sd := by simp [State.flagF]
@[simp] theorem State.flagF_bot (s : State) (f : Fld) : (s.flagF f).bot = s.bot := by simp [State.flagF]
@[simp] theorem State.flagF_tap (s : State) (f : Fld) : (s.flagF f).tap = s.tap := by simp [State.flagF]
@[simp] theorem State.flagF_cmp (s : State) (f : Fld) : (s.flagF f).cmp = s.cmp := by simp [State.flagF]
@[simp] theorem State.flagF_cor (s : State) (f : Fld) : (s.flagF f).cor = s.cor := by simp [State.flagF]
@[simp] theorem State.flagF_scn (s : State) (f : Fld) : (s.flagF f).scn = s.scn := by simp [State.flagF]
@[simp] theorem State.flagF_pwr (s : State) (f : Fld) : (s.flagF f).pwr = s.pwr := by simp [State.flagF]
@[simp] theorem State.flagF_hkp (s : State) (f : Fld) : (s.flagF f).hkp = s.hkp := by simp [State.flagF]
@[simp] theorem State.flagF_sent (s : State) (f : Fld) : (s.flagF f).sent = s.sent := by simp [State.flagF]
@[simp] theorem State.flagF_freeCtr (s : State) (f : Fld) : (s.flagF f).freeCtr = s.freeCtr := by simp [State.flagF]
@[simp] theorem State.flagF_pending (s : State) (f : Fld) : (s.flagF f).pending = s.pending := by simp [State.flagF]

/-! ### Outputs and free values -/

@[simp] theorem State.emit_regs (s : State) (x : Sent) : (s.emit x).regs = s.regs := rfl
@[simp] theorem State.emit_mem (s : State) (x : Sent) : (s.emit x).mem = s.mem := rfl
@[simp] theorem State.emit_poison (s : State) (x : Sent) : (s.emit x).poison = s.poison := rfl
@[simp] theorem State.emit_soft (s : State) (x : Sent) : (s.emit x).soft = s.soft := rfl
@[simp] theorem State.emit_cores (s : State) (x : Sent) : (s.emit x).cores = s.cores := rfl
@[simp] theorem State.emit_lan (s : State) (x : Sent) : (s.emit x).lan = s.lan := rfl
@[simp] theorem State.emit_lnk (s : State) (x : Sent) : (s.emit x).lnk = s.lnk := rfl
@[simp] theorem State.emit_tim (s : State) (x : Sent) : (s.emit x).tim = s.tim := rfl
@[simp] theorem State.emit_nvj (s : State) (x : Sent) : (s.emit x).nvj = s.nvj := rfl
@[simp] theorem State.emit_srf (s : State) (x : Sent) : (s.emit x).srf = s.srf := rfl
@[simp] theorem State.emit_codec (s : State) (x : Sent) : (s.emit x).codec = s.codec := rfl
@[simp] theorem State.emit_mir (s : State) (x : Sent) : (s.emit x).mir = s.mir := rfl
@[simp] theorem State.emit_hst (s : State) (x : Sent) : (s.emit x).hst = s.hst := rfl
@[simp] theorem State.emit_ing (s : State) (x : Sent) : (s.emit x).ing = s.ing := rfl
@[simp] theorem State.emit_asr (s : State) (x : Sent) : (s.emit x).asr = s.asr := rfl
@[simp] theorem State.emit_fuse (s : State) (x : Sent) : (s.emit x).fuse = s.fuse := rfl
@[simp] theorem State.emit_aon (s : State) (x : Sent) : (s.emit x).aon = s.aon := rfl
@[simp] theorem State.emit_dram (s : State) (x : Sent) : (s.emit x).dram = s.dram := rfl
@[simp] theorem State.emit_ddrDiv (s : State) (x : Sent) : (s.emit x).ddrDiv = s.ddrDiv := rfl
@[simp] theorem State.emit_sd (s : State) (x : Sent) : (s.emit x).sd = s.sd := rfl
@[simp] theorem State.emit_bot (s : State) (x : Sent) : (s.emit x).bot = s.bot := rfl
@[simp] theorem State.emit_tap (s : State) (x : Sent) : (s.emit x).tap = s.tap := rfl
@[simp] theorem State.emit_cmp (s : State) (x : Sent) : (s.emit x).cmp = s.cmp := rfl
@[simp] theorem State.emit_cor (s : State) (x : Sent) : (s.emit x).cor = s.cor := rfl
@[simp] theorem State.emit_scn (s : State) (x : Sent) : (s.emit x).scn = s.scn := rfl
@[simp] theorem State.emit_pwr (s : State) (x : Sent) : (s.emit x).pwr = s.pwr := rfl
@[simp] theorem State.emit_hkp (s : State) (x : Sent) : (s.emit x).hkp = s.hkp := rfl
@[simp] theorem State.emit_freeCtr (s : State) (x : Sent) : (s.emit x).freeCtr = s.freeCtr := rfl
@[simp] theorem State.emit_pending (s : State) (x : Sent) : (s.emit x).pending = s.pending := rfl
@[simp] theorem State.emit_sent (s : State) (x : Sent) : (s.emit x).sent = s.sent ++ [x] := rfl
@[simp] theorem State.draw_regs (s : State) : (s.draw.2).regs = s.regs := rfl
@[simp] theorem State.draw_mem (s : State) : (s.draw.2).mem = s.mem := rfl
@[simp] theorem State.draw_poison (s : State) : (s.draw.2).poison = s.poison := rfl
@[simp] theorem State.draw_soft (s : State) : (s.draw.2).soft = s.soft := rfl
@[simp] theorem State.draw_cores (s : State) : (s.draw.2).cores = s.cores := rfl
@[simp] theorem State.draw_lan (s : State) : (s.draw.2).lan = s.lan := rfl
@[simp] theorem State.draw_lnk (s : State) : (s.draw.2).lnk = s.lnk := rfl
@[simp] theorem State.draw_tim (s : State) : (s.draw.2).tim = s.tim := rfl
@[simp] theorem State.draw_nvj (s : State) : (s.draw.2).nvj = s.nvj := rfl
@[simp] theorem State.draw_srf (s : State) : (s.draw.2).srf = s.srf := rfl
@[simp] theorem State.draw_codec (s : State) : (s.draw.2).codec = s.codec := rfl
@[simp] theorem State.draw_mir (s : State) : (s.draw.2).mir = s.mir := rfl
@[simp] theorem State.draw_hst (s : State) : (s.draw.2).hst = s.hst := rfl
@[simp] theorem State.draw_ing (s : State) : (s.draw.2).ing = s.ing := rfl
@[simp] theorem State.draw_asr (s : State) : (s.draw.2).asr = s.asr := rfl
@[simp] theorem State.draw_fuse (s : State) : (s.draw.2).fuse = s.fuse := rfl
@[simp] theorem State.draw_aon (s : State) : (s.draw.2).aon = s.aon := rfl
@[simp] theorem State.draw_dram (s : State) : (s.draw.2).dram = s.dram := rfl
@[simp] theorem State.draw_ddrDiv (s : State) : (s.draw.2).ddrDiv = s.ddrDiv := rfl
@[simp] theorem State.draw_sd (s : State) : (s.draw.2).sd = s.sd := rfl
@[simp] theorem State.draw_bot (s : State) : (s.draw.2).bot = s.bot := rfl
@[simp] theorem State.draw_tap (s : State) : (s.draw.2).tap = s.tap := rfl
@[simp] theorem State.draw_cmp (s : State) : (s.draw.2).cmp = s.cmp := rfl
@[simp] theorem State.draw_cor (s : State) : (s.draw.2).cor = s.cor := rfl
@[simp] theorem State.draw_scn (s : State) : (s.draw.2).scn = s.scn := rfl
@[simp] theorem State.draw_pwr (s : State) : (s.draw.2).pwr = s.pwr := rfl
@[simp] theorem State.draw_hkp (s : State) : (s.draw.2).hkp = s.hkp := rfl
@[simp] theorem State.draw_sent (s : State) : (s.draw.2).sent = s.sent := rfl
@[simp] theorem State.draw_pending (s : State) : (s.draw.2).pending = s.pending := rfl
@[simp] theorem State.draw_freeCtr (s : State) : s.draw.2.freeCtr = s.freeCtr + 1 := rfl
@[simp] theorem State.drawBytes_regs (s : State) (n : Nat) : ((s.drawBytes n).2).regs = s.regs := rfl
@[simp] theorem State.drawBytes_mem (s : State) (n : Nat) : ((s.drawBytes n).2).mem = s.mem := rfl
@[simp] theorem State.drawBytes_poison (s : State) (n : Nat) : ((s.drawBytes n).2).poison = s.poison := rfl
@[simp] theorem State.drawBytes_soft (s : State) (n : Nat) : ((s.drawBytes n).2).soft = s.soft := rfl
@[simp] theorem State.drawBytes_cores (s : State) (n : Nat) : ((s.drawBytes n).2).cores = s.cores := rfl
@[simp] theorem State.drawBytes_lan (s : State) (n : Nat) : ((s.drawBytes n).2).lan = s.lan := rfl
@[simp] theorem State.drawBytes_lnk (s : State) (n : Nat) : ((s.drawBytes n).2).lnk = s.lnk := rfl
@[simp] theorem State.drawBytes_tim (s : State) (n : Nat) : ((s.drawBytes n).2).tim = s.tim := rfl
@[simp] theorem State.drawBytes_nvj (s : State) (n : Nat) : ((s.drawBytes n).2).nvj = s.nvj := rfl
@[simp] theorem State.drawBytes_srf (s : State) (n : Nat) : ((s.drawBytes n).2).srf = s.srf := rfl
@[simp] theorem State.drawBytes_codec (s : State) (n : Nat) : ((s.drawBytes n).2).codec = s.codec := rfl
@[simp] theorem State.drawBytes_mir (s : State) (n : Nat) : ((s.drawBytes n).2).mir = s.mir := rfl
@[simp] theorem State.drawBytes_hst (s : State) (n : Nat) : ((s.drawBytes n).2).hst = s.hst := rfl
@[simp] theorem State.drawBytes_ing (s : State) (n : Nat) : ((s.drawBytes n).2).ing = s.ing := rfl
@[simp] theorem State.drawBytes_asr (s : State) (n : Nat) : ((s.drawBytes n).2).asr = s.asr := rfl
@[simp] theorem State.drawBytes_fuse (s : State) (n : Nat) : ((s.drawBytes n).2).fuse = s.fuse := rfl
@[simp] theorem State.drawBytes_aon (s : State) (n : Nat) : ((s.drawBytes n).2).aon = s.aon := rfl
@[simp] theorem State.drawBytes_dram (s : State) (n : Nat) : ((s.drawBytes n).2).dram = s.dram := rfl
@[simp] theorem State.drawBytes_ddrDiv (s : State) (n : Nat) : ((s.drawBytes n).2).ddrDiv = s.ddrDiv := rfl
@[simp] theorem State.drawBytes_sd (s : State) (n : Nat) : ((s.drawBytes n).2).sd = s.sd := rfl
@[simp] theorem State.drawBytes_bot (s : State) (n : Nat) : ((s.drawBytes n).2).bot = s.bot := rfl
@[simp] theorem State.drawBytes_tap (s : State) (n : Nat) : ((s.drawBytes n).2).tap = s.tap := rfl
@[simp] theorem State.drawBytes_cmp (s : State) (n : Nat) : ((s.drawBytes n).2).cmp = s.cmp := rfl
@[simp] theorem State.drawBytes_cor (s : State) (n : Nat) : ((s.drawBytes n).2).cor = s.cor := rfl
@[simp] theorem State.drawBytes_scn (s : State) (n : Nat) : ((s.drawBytes n).2).scn = s.scn := rfl
@[simp] theorem State.drawBytes_pwr (s : State) (n : Nat) : ((s.drawBytes n).2).pwr = s.pwr := rfl
@[simp] theorem State.drawBytes_hkp (s : State) (n : Nat) : ((s.drawBytes n).2).hkp = s.hkp := rfl
@[simp] theorem State.drawBytes_sent (s : State) (n : Nat) : ((s.drawBytes n).2).sent = s.sent := rfl
@[simp] theorem State.drawBytes_pending (s : State) (n : Nat) : ((s.drawBytes n).2).pending = s.pending := rfl
@[simp] theorem State.drawBytes_freeCtr (s : State) (n : Nat) : (s.drawBytes n).2.freeCtr = s.freeCtr + n := rfl

/-! ### Memory -/

@[simp] theorem State.putBytes_regs (s : State) (a : Nat) (l : List Byte) : (s.putBytes a l).regs = s.regs := rfl
@[simp] theorem State.putBytes_poison (s : State) (a : Nat) (l : List Byte) : (s.putBytes a l).poison = s.poison := rfl
@[simp] theorem State.putBytes_soft (s : State) (a : Nat) (l : List Byte) : (s.putBytes a l).soft = s.soft := rfl
@[simp] theorem State.putBytes_cores (s : State) (a : Nat) (l : List Byte) : (s.putBytes a l).cores = s.cores := rfl
@[simp] theorem State.putBytes_lan (s : State) (a : Nat) (l : List Byte) : (s.putBytes a l).lan = s.lan := rfl
@[simp] theorem State.putBytes_lnk (s : State) (a : Nat) (l : List Byte) : (s.putBytes a l).lnk = s.lnk := rfl
@[simp] theorem State.putBytes_tim (s : State) (a : Nat) (l : List Byte) : (s.putBytes a l).tim = s.tim := rfl
@[simp] theorem State.putBytes_nvj (s : State) (a : Nat) (l : List Byte) : (s.putBytes a l).nvj = s.nvj := rfl
@[simp] theorem State.putBytes_srf (s : State) (a : Nat) (l : List Byte) : (s.putBytes a l).srf = s.srf := rfl
@[simp] theorem State.putBytes_codec (s : State) (a : Nat) (l : List Byte) : (s.putBytes a l).codec = s.codec := rfl
@[simp] theorem State.putBytes_mir (s : State) (a : Nat) (l : List Byte) : (s.putBytes a l).mir = s.mir := rfl
@[simp] theorem State.putBytes_hst (s : State) (a : Nat) (l : List Byte) : (s.putBytes a l).hst = s.hst := rfl
@[simp] theorem State.putBytes_ing (s : State) (a : Nat) (l : List Byte) : (s.putBytes a l).ing = s.ing := rfl
@[simp] theorem State.putBytes_asr (s : State) (a : Nat) (l : List Byte) : (s.putBytes a l).asr = s.asr := rfl
@[simp] theorem State.putBytes_fuse (s : State) (a : Nat) (l : List Byte) : (s.putBytes a l).fuse = s.fuse := rfl
@[simp] theorem State.putBytes_aon (s : State) (a : Nat) (l : List Byte) : (s.putBytes a l).aon = s.aon := rfl
@[simp] theorem State.putBytes_dram (s : State) (a : Nat) (l : List Byte) : (s.putBytes a l).dram = s.dram := rfl
@[simp] theorem State.putBytes_ddrDiv (s : State) (a : Nat) (l : List Byte) : (s.putBytes a l).ddrDiv = s.ddrDiv := rfl
@[simp] theorem State.putBytes_sd (s : State) (a : Nat) (l : List Byte) : (s.putBytes a l).sd = s.sd := rfl
@[simp] theorem State.putBytes_bot (s : State) (a : Nat) (l : List Byte) : (s.putBytes a l).bot = s.bot := rfl
@[simp] theorem State.putBytes_tap (s : State) (a : Nat) (l : List Byte) : (s.putBytes a l).tap = s.tap := rfl
@[simp] theorem State.putBytes_cmp (s : State) (a : Nat) (l : List Byte) : (s.putBytes a l).cmp = s.cmp := rfl
@[simp] theorem State.putBytes_cor (s : State) (a : Nat) (l : List Byte) : (s.putBytes a l).cor = s.cor := rfl
@[simp] theorem State.putBytes_scn (s : State) (a : Nat) (l : List Byte) : (s.putBytes a l).scn = s.scn := rfl
@[simp] theorem State.putBytes_pwr (s : State) (a : Nat) (l : List Byte) : (s.putBytes a l).pwr = s.pwr := rfl
@[simp] theorem State.putBytes_hkp (s : State) (a : Nat) (l : List Byte) : (s.putBytes a l).hkp = s.hkp := rfl
@[simp] theorem State.putBytes_sent (s : State) (a : Nat) (l : List Byte) : (s.putBytes a l).sent = s.sent := rfl
@[simp] theorem State.putBytes_freeCtr (s : State) (a : Nat) (l : List Byte) : (s.putBytes a l).freeCtr = s.freeCtr := rfl
@[simp] theorem State.putBytes_pending (s : State) (a : Nat) (l : List Byte) : (s.putBytes a l).pending = s.pending := rfl
@[simp] theorem State.putBytes_mem (s : State) (a : Nat) (l : List Byte) : (s.putBytes a l).mem = Memory.writeBytes s.mem a l := rfl

/-! ### Cores -/

@[simp] theorem State.setCore_regs (s : State) (n : Fin 5) (c : Core) : (s.setCore n c).regs = s.regs := rfl
@[simp] theorem State.setCore_mem (s : State) (n : Fin 5) (c : Core) : (s.setCore n c).mem = s.mem := rfl
@[simp] theorem State.setCore_poison (s : State) (n : Fin 5) (c : Core) : (s.setCore n c).poison = s.poison := rfl
@[simp] theorem State.setCore_soft (s : State) (n : Fin 5) (c : Core) : (s.setCore n c).soft = s.soft := rfl
@[simp] theorem State.setCore_lan (s : State) (n : Fin 5) (c : Core) : (s.setCore n c).lan = s.lan := rfl
@[simp] theorem State.setCore_lnk (s : State) (n : Fin 5) (c : Core) : (s.setCore n c).lnk = s.lnk := rfl
@[simp] theorem State.setCore_tim (s : State) (n : Fin 5) (c : Core) : (s.setCore n c).tim = s.tim := rfl
@[simp] theorem State.setCore_nvj (s : State) (n : Fin 5) (c : Core) : (s.setCore n c).nvj = s.nvj := rfl
@[simp] theorem State.setCore_srf (s : State) (n : Fin 5) (c : Core) : (s.setCore n c).srf = s.srf := rfl
@[simp] theorem State.setCore_codec (s : State) (n : Fin 5) (c : Core) : (s.setCore n c).codec = s.codec := rfl
@[simp] theorem State.setCore_mir (s : State) (n : Fin 5) (c : Core) : (s.setCore n c).mir = s.mir := rfl
@[simp] theorem State.setCore_hst (s : State) (n : Fin 5) (c : Core) : (s.setCore n c).hst = s.hst := rfl
@[simp] theorem State.setCore_ing (s : State) (n : Fin 5) (c : Core) : (s.setCore n c).ing = s.ing := rfl
@[simp] theorem State.setCore_asr (s : State) (n : Fin 5) (c : Core) : (s.setCore n c).asr = s.asr := rfl
@[simp] theorem State.setCore_fuse (s : State) (n : Fin 5) (c : Core) : (s.setCore n c).fuse = s.fuse := rfl
@[simp] theorem State.setCore_aon (s : State) (n : Fin 5) (c : Core) : (s.setCore n c).aon = s.aon := rfl
@[simp] theorem State.setCore_dram (s : State) (n : Fin 5) (c : Core) : (s.setCore n c).dram = s.dram := rfl
@[simp] theorem State.setCore_ddrDiv (s : State) (n : Fin 5) (c : Core) : (s.setCore n c).ddrDiv = s.ddrDiv := rfl
@[simp] theorem State.setCore_sd (s : State) (n : Fin 5) (c : Core) : (s.setCore n c).sd = s.sd := rfl
@[simp] theorem State.setCore_bot (s : State) (n : Fin 5) (c : Core) : (s.setCore n c).bot = s.bot := rfl
@[simp] theorem State.setCore_tap (s : State) (n : Fin 5) (c : Core) : (s.setCore n c).tap = s.tap := rfl
@[simp] theorem State.setCore_cmp (s : State) (n : Fin 5) (c : Core) : (s.setCore n c).cmp = s.cmp := rfl
@[simp] theorem State.setCore_cor (s : State) (n : Fin 5) (c : Core) : (s.setCore n c).cor = s.cor := rfl
@[simp] theorem State.setCore_scn (s : State) (n : Fin 5) (c : Core) : (s.setCore n c).scn = s.scn := rfl
@[simp] theorem State.setCore_pwr (s : State) (n : Fin 5) (c : Core) : (s.setCore n c).pwr = s.pwr := rfl
@[simp] theorem State.setCore_hkp (s : State) (n : Fin 5) (c : Core) : (s.setCore n c).hkp = s.hkp := rfl
@[simp] theorem State.setCore_sent (s : State) (n : Fin 5) (c : Core) : (s.setCore n c).sent = s.sent := rfl
@[simp] theorem State.setCore_freeCtr (s : State) (n : Fin 5) (c : Core) : (s.setCore n c).freeCtr = s.freeCtr := rfl
@[simp] theorem State.setCore_pending (s : State) (n : Fin 5) (c : Core) : (s.setCore n c).pending = s.pending := rfl
@[simp] theorem State.setCore_cores (s : State) (n : Fin 5) (c : Core) : (s.setCore n c).cores = s.cores.set n c := rfl
@[simp] theorem State.retire_regs (s : State) (n : Fin 5) (pc : BitVec 40) : (s.retire n pc).regs = s.regs := rfl
@[simp] theorem State.retire_mem (s : State) (n : Fin 5) (pc : BitVec 40) : (s.retire n pc).mem = s.mem := rfl
@[simp] theorem State.retire_poison (s : State) (n : Fin 5) (pc : BitVec 40) : (s.retire n pc).poison = s.poison := rfl
@[simp] theorem State.retire_soft (s : State) (n : Fin 5) (pc : BitVec 40) : (s.retire n pc).soft = s.soft := rfl
@[simp] theorem State.retire_lan (s : State) (n : Fin 5) (pc : BitVec 40) : (s.retire n pc).lan = s.lan := rfl
@[simp] theorem State.retire_lnk (s : State) (n : Fin 5) (pc : BitVec 40) : (s.retire n pc).lnk = s.lnk := rfl
@[simp] theorem State.retire_tim (s : State) (n : Fin 5) (pc : BitVec 40) : (s.retire n pc).tim = s.tim := rfl
@[simp] theorem State.retire_nvj (s : State) (n : Fin 5) (pc : BitVec 40) : (s.retire n pc).nvj = s.nvj := rfl
@[simp] theorem State.retire_srf (s : State) (n : Fin 5) (pc : BitVec 40) : (s.retire n pc).srf = s.srf := rfl
@[simp] theorem State.retire_codec (s : State) (n : Fin 5) (pc : BitVec 40) : (s.retire n pc).codec = s.codec := rfl
@[simp] theorem State.retire_mir (s : State) (n : Fin 5) (pc : BitVec 40) : (s.retire n pc).mir = s.mir := rfl
@[simp] theorem State.retire_hst (s : State) (n : Fin 5) (pc : BitVec 40) : (s.retire n pc).hst = s.hst := rfl
@[simp] theorem State.retire_ing (s : State) (n : Fin 5) (pc : BitVec 40) : (s.retire n pc).ing = s.ing := rfl
@[simp] theorem State.retire_asr (s : State) (n : Fin 5) (pc : BitVec 40) : (s.retire n pc).asr = s.asr := rfl
@[simp] theorem State.retire_fuse (s : State) (n : Fin 5) (pc : BitVec 40) : (s.retire n pc).fuse = s.fuse := rfl
@[simp] theorem State.retire_aon (s : State) (n : Fin 5) (pc : BitVec 40) : (s.retire n pc).aon = s.aon := rfl
@[simp] theorem State.retire_dram (s : State) (n : Fin 5) (pc : BitVec 40) : (s.retire n pc).dram = s.dram := rfl
@[simp] theorem State.retire_ddrDiv (s : State) (n : Fin 5) (pc : BitVec 40) : (s.retire n pc).ddrDiv = s.ddrDiv := rfl
@[simp] theorem State.retire_sd (s : State) (n : Fin 5) (pc : BitVec 40) : (s.retire n pc).sd = s.sd := rfl
@[simp] theorem State.retire_bot (s : State) (n : Fin 5) (pc : BitVec 40) : (s.retire n pc).bot = s.bot := rfl
@[simp] theorem State.retire_tap (s : State) (n : Fin 5) (pc : BitVec 40) : (s.retire n pc).tap = s.tap := rfl
@[simp] theorem State.retire_cmp (s : State) (n : Fin 5) (pc : BitVec 40) : (s.retire n pc).cmp = s.cmp := rfl
@[simp] theorem State.retire_cor (s : State) (n : Fin 5) (pc : BitVec 40) : (s.retire n pc).cor = s.cor := rfl
@[simp] theorem State.retire_scn (s : State) (n : Fin 5) (pc : BitVec 40) : (s.retire n pc).scn = s.scn := rfl
@[simp] theorem State.retire_pwr (s : State) (n : Fin 5) (pc : BitVec 40) : (s.retire n pc).pwr = s.pwr := rfl
@[simp] theorem State.retire_hkp (s : State) (n : Fin 5) (pc : BitVec 40) : (s.retire n pc).hkp = s.hkp := rfl
@[simp] theorem State.retire_sent (s : State) (n : Fin 5) (pc : BitVec 40) : (s.retire n pc).sent = s.sent := rfl
@[simp] theorem State.retire_freeCtr (s : State) (n : Fin 5) (pc : BitVec 40) : (s.retire n pc).freeCtr = s.freeCtr := rfl
@[simp] theorem State.retire_pending (s : State) (n : Fin 5) (pc : BitVec 40) : (s.retire n pc).pending = s.pending := rfl

/-! ### The asr part -/

@[simp] theorem State.modAsr_regs (s : State) (f : AsrState → AsrState) : (s.modAsr f).regs = s.regs := rfl
@[simp] theorem State.modAsr_mem (s : State) (f : AsrState → AsrState) : (s.modAsr f).mem = s.mem := rfl
@[simp] theorem State.modAsr_poison (s : State) (f : AsrState → AsrState) : (s.modAsr f).poison = s.poison := rfl
@[simp] theorem State.modAsr_soft (s : State) (f : AsrState → AsrState) : (s.modAsr f).soft = s.soft := rfl
@[simp] theorem State.modAsr_cores (s : State) (f : AsrState → AsrState) : (s.modAsr f).cores = s.cores := rfl
@[simp] theorem State.modAsr_lan (s : State) (f : AsrState → AsrState) : (s.modAsr f).lan = s.lan := rfl
@[simp] theorem State.modAsr_lnk (s : State) (f : AsrState → AsrState) : (s.modAsr f).lnk = s.lnk := rfl
@[simp] theorem State.modAsr_tim (s : State) (f : AsrState → AsrState) : (s.modAsr f).tim = s.tim := rfl
@[simp] theorem State.modAsr_nvj (s : State) (f : AsrState → AsrState) : (s.modAsr f).nvj = s.nvj := rfl
@[simp] theorem State.modAsr_srf (s : State) (f : AsrState → AsrState) : (s.modAsr f).srf = s.srf := rfl
@[simp] theorem State.modAsr_codec (s : State) (f : AsrState → AsrState) : (s.modAsr f).codec = s.codec := rfl
@[simp] theorem State.modAsr_mir (s : State) (f : AsrState → AsrState) : (s.modAsr f).mir = s.mir := rfl
@[simp] theorem State.modAsr_hst (s : State) (f : AsrState → AsrState) : (s.modAsr f).hst = s.hst := rfl
@[simp] theorem State.modAsr_ing (s : State) (f : AsrState → AsrState) : (s.modAsr f).ing = s.ing := rfl
@[simp] theorem State.modAsr_fuse (s : State) (f : AsrState → AsrState) : (s.modAsr f).fuse = s.fuse := rfl
@[simp] theorem State.modAsr_aon (s : State) (f : AsrState → AsrState) : (s.modAsr f).aon = s.aon := rfl
@[simp] theorem State.modAsr_dram (s : State) (f : AsrState → AsrState) : (s.modAsr f).dram = s.dram := rfl
@[simp] theorem State.modAsr_ddrDiv (s : State) (f : AsrState → AsrState) : (s.modAsr f).ddrDiv = s.ddrDiv := rfl
@[simp] theorem State.modAsr_sd (s : State) (f : AsrState → AsrState) : (s.modAsr f).sd = s.sd := rfl
@[simp] theorem State.modAsr_bot (s : State) (f : AsrState → AsrState) : (s.modAsr f).bot = s.bot := rfl
@[simp] theorem State.modAsr_tap (s : State) (f : AsrState → AsrState) : (s.modAsr f).tap = s.tap := rfl
@[simp] theorem State.modAsr_cmp (s : State) (f : AsrState → AsrState) : (s.modAsr f).cmp = s.cmp := rfl
@[simp] theorem State.modAsr_cor (s : State) (f : AsrState → AsrState) : (s.modAsr f).cor = s.cor := rfl
@[simp] theorem State.modAsr_scn (s : State) (f : AsrState → AsrState) : (s.modAsr f).scn = s.scn := rfl
@[simp] theorem State.modAsr_pwr (s : State) (f : AsrState → AsrState) : (s.modAsr f).pwr = s.pwr := rfl
@[simp] theorem State.modAsr_hkp (s : State) (f : AsrState → AsrState) : (s.modAsr f).hkp = s.hkp := rfl
@[simp] theorem State.modAsr_sent (s : State) (f : AsrState → AsrState) : (s.modAsr f).sent = s.sent := rfl
@[simp] theorem State.modAsr_freeCtr (s : State) (f : AsrState → AsrState) : (s.modAsr f).freeCtr = s.freeCtr := rfl
@[simp] theorem State.modAsr_pending (s : State) (f : AsrState → AsrState) : (s.modAsr f).pending = s.pending := rfl
@[simp] theorem State.modAsr_asr (s : State) (f : AsrState → AsrState) : (s.modAsr f).asr = f s.asr := rfl

/-! ### The aon part -/

@[simp] theorem State.modAon_regs (s : State) (f : AonState → AonState) : (s.modAon f).regs = s.regs := rfl
@[simp] theorem State.modAon_mem (s : State) (f : AonState → AonState) : (s.modAon f).mem = s.mem := rfl
@[simp] theorem State.modAon_poison (s : State) (f : AonState → AonState) : (s.modAon f).poison = s.poison := rfl
@[simp] theorem State.modAon_soft (s : State) (f : AonState → AonState) : (s.modAon f).soft = s.soft := rfl
@[simp] theorem State.modAon_cores (s : State) (f : AonState → AonState) : (s.modAon f).cores = s.cores := rfl
@[simp] theorem State.modAon_lan (s : State) (f : AonState → AonState) : (s.modAon f).lan = s.lan := rfl
@[simp] theorem State.modAon_lnk (s : State) (f : AonState → AonState) : (s.modAon f).lnk = s.lnk := rfl
@[simp] theorem State.modAon_tim (s : State) (f : AonState → AonState) : (s.modAon f).tim = s.tim := rfl
@[simp] theorem State.modAon_nvj (s : State) (f : AonState → AonState) : (s.modAon f).nvj = s.nvj := rfl
@[simp] theorem State.modAon_srf (s : State) (f : AonState → AonState) : (s.modAon f).srf = s.srf := rfl
@[simp] theorem State.modAon_codec (s : State) (f : AonState → AonState) : (s.modAon f).codec = s.codec := rfl
@[simp] theorem State.modAon_mir (s : State) (f : AonState → AonState) : (s.modAon f).mir = s.mir := rfl
@[simp] theorem State.modAon_hst (s : State) (f : AonState → AonState) : (s.modAon f).hst = s.hst := rfl
@[simp] theorem State.modAon_ing (s : State) (f : AonState → AonState) : (s.modAon f).ing = s.ing := rfl
@[simp] theorem State.modAon_asr (s : State) (f : AonState → AonState) : (s.modAon f).asr = s.asr := rfl
@[simp] theorem State.modAon_fuse (s : State) (f : AonState → AonState) : (s.modAon f).fuse = s.fuse := rfl
@[simp] theorem State.modAon_dram (s : State) (f : AonState → AonState) : (s.modAon f).dram = s.dram := rfl
@[simp] theorem State.modAon_ddrDiv (s : State) (f : AonState → AonState) : (s.modAon f).ddrDiv = s.ddrDiv := rfl
@[simp] theorem State.modAon_sd (s : State) (f : AonState → AonState) : (s.modAon f).sd = s.sd := rfl
@[simp] theorem State.modAon_bot (s : State) (f : AonState → AonState) : (s.modAon f).bot = s.bot := rfl
@[simp] theorem State.modAon_tap (s : State) (f : AonState → AonState) : (s.modAon f).tap = s.tap := rfl
@[simp] theorem State.modAon_cmp (s : State) (f : AonState → AonState) : (s.modAon f).cmp = s.cmp := rfl
@[simp] theorem State.modAon_cor (s : State) (f : AonState → AonState) : (s.modAon f).cor = s.cor := rfl
@[simp] theorem State.modAon_scn (s : State) (f : AonState → AonState) : (s.modAon f).scn = s.scn := rfl
@[simp] theorem State.modAon_pwr (s : State) (f : AonState → AonState) : (s.modAon f).pwr = s.pwr := rfl
@[simp] theorem State.modAon_hkp (s : State) (f : AonState → AonState) : (s.modAon f).hkp = s.hkp := rfl
@[simp] theorem State.modAon_sent (s : State) (f : AonState → AonState) : (s.modAon f).sent = s.sent := rfl
@[simp] theorem State.modAon_freeCtr (s : State) (f : AonState → AonState) : (s.modAon f).freeCtr = s.freeCtr := rfl
@[simp] theorem State.modAon_pending (s : State) (f : AonState → AonState) : (s.modAon f).pending = s.pending := rfl
@[simp] theorem State.modAon_aon (s : State) (f : AonState → AonState) : (s.modAon f).aon = f s.aon := rfl

/-! ### The cmp part -/

@[simp] theorem State.modCmp_regs (s : State) (f : CmpState → CmpState) : (s.modCmp f).regs = s.regs := rfl
@[simp] theorem State.modCmp_mem (s : State) (f : CmpState → CmpState) : (s.modCmp f).mem = s.mem := rfl
@[simp] theorem State.modCmp_poison (s : State) (f : CmpState → CmpState) : (s.modCmp f).poison = s.poison := rfl
@[simp] theorem State.modCmp_soft (s : State) (f : CmpState → CmpState) : (s.modCmp f).soft = s.soft := rfl
@[simp] theorem State.modCmp_cores (s : State) (f : CmpState → CmpState) : (s.modCmp f).cores = s.cores := rfl
@[simp] theorem State.modCmp_lan (s : State) (f : CmpState → CmpState) : (s.modCmp f).lan = s.lan := rfl
@[simp] theorem State.modCmp_lnk (s : State) (f : CmpState → CmpState) : (s.modCmp f).lnk = s.lnk := rfl
@[simp] theorem State.modCmp_tim (s : State) (f : CmpState → CmpState) : (s.modCmp f).tim = s.tim := rfl
@[simp] theorem State.modCmp_nvj (s : State) (f : CmpState → CmpState) : (s.modCmp f).nvj = s.nvj := rfl
@[simp] theorem State.modCmp_srf (s : State) (f : CmpState → CmpState) : (s.modCmp f).srf = s.srf := rfl
@[simp] theorem State.modCmp_codec (s : State) (f : CmpState → CmpState) : (s.modCmp f).codec = s.codec := rfl
@[simp] theorem State.modCmp_mir (s : State) (f : CmpState → CmpState) : (s.modCmp f).mir = s.mir := rfl
@[simp] theorem State.modCmp_hst (s : State) (f : CmpState → CmpState) : (s.modCmp f).hst = s.hst := rfl
@[simp] theorem State.modCmp_ing (s : State) (f : CmpState → CmpState) : (s.modCmp f).ing = s.ing := rfl
@[simp] theorem State.modCmp_asr (s : State) (f : CmpState → CmpState) : (s.modCmp f).asr = s.asr := rfl
@[simp] theorem State.modCmp_fuse (s : State) (f : CmpState → CmpState) : (s.modCmp f).fuse = s.fuse := rfl
@[simp] theorem State.modCmp_aon (s : State) (f : CmpState → CmpState) : (s.modCmp f).aon = s.aon := rfl
@[simp] theorem State.modCmp_dram (s : State) (f : CmpState → CmpState) : (s.modCmp f).dram = s.dram := rfl
@[simp] theorem State.modCmp_ddrDiv (s : State) (f : CmpState → CmpState) : (s.modCmp f).ddrDiv = s.ddrDiv := rfl
@[simp] theorem State.modCmp_sd (s : State) (f : CmpState → CmpState) : (s.modCmp f).sd = s.sd := rfl
@[simp] theorem State.modCmp_bot (s : State) (f : CmpState → CmpState) : (s.modCmp f).bot = s.bot := rfl
@[simp] theorem State.modCmp_tap (s : State) (f : CmpState → CmpState) : (s.modCmp f).tap = s.tap := rfl
@[simp] theorem State.modCmp_cor (s : State) (f : CmpState → CmpState) : (s.modCmp f).cor = s.cor := rfl
@[simp] theorem State.modCmp_scn (s : State) (f : CmpState → CmpState) : (s.modCmp f).scn = s.scn := rfl
@[simp] theorem State.modCmp_pwr (s : State) (f : CmpState → CmpState) : (s.modCmp f).pwr = s.pwr := rfl
@[simp] theorem State.modCmp_hkp (s : State) (f : CmpState → CmpState) : (s.modCmp f).hkp = s.hkp := rfl
@[simp] theorem State.modCmp_sent (s : State) (f : CmpState → CmpState) : (s.modCmp f).sent = s.sent := rfl
@[simp] theorem State.modCmp_freeCtr (s : State) (f : CmpState → CmpState) : (s.modCmp f).freeCtr = s.freeCtr := rfl
@[simp] theorem State.modCmp_pending (s : State) (f : CmpState → CmpState) : (s.modCmp f).pending = s.pending := rfl
@[simp] theorem State.modCmp_cmp (s : State) (f : CmpState → CmpState) : (s.modCmp f).cmp = f s.cmp := rfl

/-! ### The cor part -/

@[simp] theorem State.modCor_regs (s : State) (f : CorState → CorState) : (s.modCor f).regs = s.regs := rfl
@[simp] theorem State.modCor_mem (s : State) (f : CorState → CorState) : (s.modCor f).mem = s.mem := rfl
@[simp] theorem State.modCor_poison (s : State) (f : CorState → CorState) : (s.modCor f).poison = s.poison := rfl
@[simp] theorem State.modCor_soft (s : State) (f : CorState → CorState) : (s.modCor f).soft = s.soft := rfl
@[simp] theorem State.modCor_cores (s : State) (f : CorState → CorState) : (s.modCor f).cores = s.cores := rfl
@[simp] theorem State.modCor_lan (s : State) (f : CorState → CorState) : (s.modCor f).lan = s.lan := rfl
@[simp] theorem State.modCor_lnk (s : State) (f : CorState → CorState) : (s.modCor f).lnk = s.lnk := rfl
@[simp] theorem State.modCor_tim (s : State) (f : CorState → CorState) : (s.modCor f).tim = s.tim := rfl
@[simp] theorem State.modCor_nvj (s : State) (f : CorState → CorState) : (s.modCor f).nvj = s.nvj := rfl
@[simp] theorem State.modCor_srf (s : State) (f : CorState → CorState) : (s.modCor f).srf = s.srf := rfl
@[simp] theorem State.modCor_codec (s : State) (f : CorState → CorState) : (s.modCor f).codec = s.codec := rfl
@[simp] theorem State.modCor_mir (s : State) (f : CorState → CorState) : (s.modCor f).mir = s.mir := rfl
@[simp] theorem State.modCor_hst (s : State) (f : CorState → CorState) : (s.modCor f).hst = s.hst := rfl
@[simp] theorem State.modCor_ing (s : State) (f : CorState → CorState) : (s.modCor f).ing = s.ing := rfl
@[simp] theorem State.modCor_asr (s : State) (f : CorState → CorState) : (s.modCor f).asr = s.asr := rfl
@[simp] theorem State.modCor_fuse (s : State) (f : CorState → CorState) : (s.modCor f).fuse = s.fuse := rfl
@[simp] theorem State.modCor_aon (s : State) (f : CorState → CorState) : (s.modCor f).aon = s.aon := rfl
@[simp] theorem State.modCor_dram (s : State) (f : CorState → CorState) : (s.modCor f).dram = s.dram := rfl
@[simp] theorem State.modCor_ddrDiv (s : State) (f : CorState → CorState) : (s.modCor f).ddrDiv = s.ddrDiv := rfl
@[simp] theorem State.modCor_sd (s : State) (f : CorState → CorState) : (s.modCor f).sd = s.sd := rfl
@[simp] theorem State.modCor_bot (s : State) (f : CorState → CorState) : (s.modCor f).bot = s.bot := rfl
@[simp] theorem State.modCor_tap (s : State) (f : CorState → CorState) : (s.modCor f).tap = s.tap := rfl
@[simp] theorem State.modCor_cmp (s : State) (f : CorState → CorState) : (s.modCor f).cmp = s.cmp := rfl
@[simp] theorem State.modCor_scn (s : State) (f : CorState → CorState) : (s.modCor f).scn = s.scn := rfl
@[simp] theorem State.modCor_pwr (s : State) (f : CorState → CorState) : (s.modCor f).pwr = s.pwr := rfl
@[simp] theorem State.modCor_hkp (s : State) (f : CorState → CorState) : (s.modCor f).hkp = s.hkp := rfl
@[simp] theorem State.modCor_sent (s : State) (f : CorState → CorState) : (s.modCor f).sent = s.sent := rfl
@[simp] theorem State.modCor_freeCtr (s : State) (f : CorState → CorState) : (s.modCor f).freeCtr = s.freeCtr := rfl
@[simp] theorem State.modCor_pending (s : State) (f : CorState → CorState) : (s.modCor f).pending = s.pending := rfl
@[simp] theorem State.modCor_cor (s : State) (f : CorState → CorState) : (s.modCor f).cor = f s.cor := rfl

/-! ### The bot part -/

@[simp] theorem State.modBot_regs (s : State) (f : BotState → BotState) : (s.modBot f).regs = s.regs := rfl
@[simp] theorem State.modBot_mem (s : State) (f : BotState → BotState) : (s.modBot f).mem = s.mem := rfl
@[simp] theorem State.modBot_poison (s : State) (f : BotState → BotState) : (s.modBot f).poison = s.poison := rfl
@[simp] theorem State.modBot_soft (s : State) (f : BotState → BotState) : (s.modBot f).soft = s.soft := rfl
@[simp] theorem State.modBot_cores (s : State) (f : BotState → BotState) : (s.modBot f).cores = s.cores := rfl
@[simp] theorem State.modBot_lan (s : State) (f : BotState → BotState) : (s.modBot f).lan = s.lan := rfl
@[simp] theorem State.modBot_lnk (s : State) (f : BotState → BotState) : (s.modBot f).lnk = s.lnk := rfl
@[simp] theorem State.modBot_tim (s : State) (f : BotState → BotState) : (s.modBot f).tim = s.tim := rfl
@[simp] theorem State.modBot_nvj (s : State) (f : BotState → BotState) : (s.modBot f).nvj = s.nvj := rfl
@[simp] theorem State.modBot_srf (s : State) (f : BotState → BotState) : (s.modBot f).srf = s.srf := rfl
@[simp] theorem State.modBot_codec (s : State) (f : BotState → BotState) : (s.modBot f).codec = s.codec := rfl
@[simp] theorem State.modBot_mir (s : State) (f : BotState → BotState) : (s.modBot f).mir = s.mir := rfl
@[simp] theorem State.modBot_hst (s : State) (f : BotState → BotState) : (s.modBot f).hst = s.hst := rfl
@[simp] theorem State.modBot_ing (s : State) (f : BotState → BotState) : (s.modBot f).ing = s.ing := rfl
@[simp] theorem State.modBot_asr (s : State) (f : BotState → BotState) : (s.modBot f).asr = s.asr := rfl
@[simp] theorem State.modBot_fuse (s : State) (f : BotState → BotState) : (s.modBot f).fuse = s.fuse := rfl
@[simp] theorem State.modBot_aon (s : State) (f : BotState → BotState) : (s.modBot f).aon = s.aon := rfl
@[simp] theorem State.modBot_dram (s : State) (f : BotState → BotState) : (s.modBot f).dram = s.dram := rfl
@[simp] theorem State.modBot_ddrDiv (s : State) (f : BotState → BotState) : (s.modBot f).ddrDiv = s.ddrDiv := rfl
@[simp] theorem State.modBot_sd (s : State) (f : BotState → BotState) : (s.modBot f).sd = s.sd := rfl
@[simp] theorem State.modBot_tap (s : State) (f : BotState → BotState) : (s.modBot f).tap = s.tap := rfl
@[simp] theorem State.modBot_cmp (s : State) (f : BotState → BotState) : (s.modBot f).cmp = s.cmp := rfl
@[simp] theorem State.modBot_cor (s : State) (f : BotState → BotState) : (s.modBot f).cor = s.cor := rfl
@[simp] theorem State.modBot_scn (s : State) (f : BotState → BotState) : (s.modBot f).scn = s.scn := rfl
@[simp] theorem State.modBot_pwr (s : State) (f : BotState → BotState) : (s.modBot f).pwr = s.pwr := rfl
@[simp] theorem State.modBot_hkp (s : State) (f : BotState → BotState) : (s.modBot f).hkp = s.hkp := rfl
@[simp] theorem State.modBot_sent (s : State) (f : BotState → BotState) : (s.modBot f).sent = s.sent := rfl
@[simp] theorem State.modBot_freeCtr (s : State) (f : BotState → BotState) : (s.modBot f).freeCtr = s.freeCtr := rfl
@[simp] theorem State.modBot_pending (s : State) (f : BotState → BotState) : (s.modBot f).pending = s.pending := rfl
@[simp] theorem State.modBot_bot (s : State) (f : BotState → BotState) : (s.modBot f).bot = f s.bot := rfl

/-! ### The hkp part -/

@[simp] theorem State.modHkp_regs (s : State) (f : HkpState → HkpState) : (s.modHkp f).regs = s.regs := rfl
@[simp] theorem State.modHkp_mem (s : State) (f : HkpState → HkpState) : (s.modHkp f).mem = s.mem := rfl
@[simp] theorem State.modHkp_poison (s : State) (f : HkpState → HkpState) : (s.modHkp f).poison = s.poison := rfl
@[simp] theorem State.modHkp_soft (s : State) (f : HkpState → HkpState) : (s.modHkp f).soft = s.soft := rfl
@[simp] theorem State.modHkp_cores (s : State) (f : HkpState → HkpState) : (s.modHkp f).cores = s.cores := rfl
@[simp] theorem State.modHkp_lan (s : State) (f : HkpState → HkpState) : (s.modHkp f).lan = s.lan := rfl
@[simp] theorem State.modHkp_lnk (s : State) (f : HkpState → HkpState) : (s.modHkp f).lnk = s.lnk := rfl
@[simp] theorem State.modHkp_tim (s : State) (f : HkpState → HkpState) : (s.modHkp f).tim = s.tim := rfl
@[simp] theorem State.modHkp_nvj (s : State) (f : HkpState → HkpState) : (s.modHkp f).nvj = s.nvj := rfl
@[simp] theorem State.modHkp_srf (s : State) (f : HkpState → HkpState) : (s.modHkp f).srf = s.srf := rfl
@[simp] theorem State.modHkp_codec (s : State) (f : HkpState → HkpState) : (s.modHkp f).codec = s.codec := rfl
@[simp] theorem State.modHkp_mir (s : State) (f : HkpState → HkpState) : (s.modHkp f).mir = s.mir := rfl
@[simp] theorem State.modHkp_hst (s : State) (f : HkpState → HkpState) : (s.modHkp f).hst = s.hst := rfl
@[simp] theorem State.modHkp_ing (s : State) (f : HkpState → HkpState) : (s.modHkp f).ing = s.ing := rfl
@[simp] theorem State.modHkp_asr (s : State) (f : HkpState → HkpState) : (s.modHkp f).asr = s.asr := rfl
@[simp] theorem State.modHkp_fuse (s : State) (f : HkpState → HkpState) : (s.modHkp f).fuse = s.fuse := rfl
@[simp] theorem State.modHkp_aon (s : State) (f : HkpState → HkpState) : (s.modHkp f).aon = s.aon := rfl
@[simp] theorem State.modHkp_dram (s : State) (f : HkpState → HkpState) : (s.modHkp f).dram = s.dram := rfl
@[simp] theorem State.modHkp_ddrDiv (s : State) (f : HkpState → HkpState) : (s.modHkp f).ddrDiv = s.ddrDiv := rfl
@[simp] theorem State.modHkp_sd (s : State) (f : HkpState → HkpState) : (s.modHkp f).sd = s.sd := rfl
@[simp] theorem State.modHkp_bot (s : State) (f : HkpState → HkpState) : (s.modHkp f).bot = s.bot := rfl
@[simp] theorem State.modHkp_tap (s : State) (f : HkpState → HkpState) : (s.modHkp f).tap = s.tap := rfl
@[simp] theorem State.modHkp_cmp (s : State) (f : HkpState → HkpState) : (s.modHkp f).cmp = s.cmp := rfl
@[simp] theorem State.modHkp_cor (s : State) (f : HkpState → HkpState) : (s.modHkp f).cor = s.cor := rfl
@[simp] theorem State.modHkp_scn (s : State) (f : HkpState → HkpState) : (s.modHkp f).scn = s.scn := rfl
@[simp] theorem State.modHkp_pwr (s : State) (f : HkpState → HkpState) : (s.modHkp f).pwr = s.pwr := rfl
@[simp] theorem State.modHkp_sent (s : State) (f : HkpState → HkpState) : (s.modHkp f).sent = s.sent := rfl
@[simp] theorem State.modHkp_freeCtr (s : State) (f : HkpState → HkpState) : (s.modHkp f).freeCtr = s.freeCtr := rfl
@[simp] theorem State.modHkp_pending (s : State) (f : HkpState → HkpState) : (s.modHkp f).pending = s.pending := rfl
@[simp] theorem State.modHkp_hkp (s : State) (f : HkpState → HkpState) : (s.modHkp f).hkp = f s.hkp := rfl

/-! ### The hst part -/

@[simp] theorem State.modHst_regs (s : State) (f : HstState → HstState) : (s.modHst f).regs = s.regs := rfl
@[simp] theorem State.modHst_mem (s : State) (f : HstState → HstState) : (s.modHst f).mem = s.mem := rfl
@[simp] theorem State.modHst_poison (s : State) (f : HstState → HstState) : (s.modHst f).poison = s.poison := rfl
@[simp] theorem State.modHst_soft (s : State) (f : HstState → HstState) : (s.modHst f).soft = s.soft := rfl
@[simp] theorem State.modHst_cores (s : State) (f : HstState → HstState) : (s.modHst f).cores = s.cores := rfl
@[simp] theorem State.modHst_lan (s : State) (f : HstState → HstState) : (s.modHst f).lan = s.lan := rfl
@[simp] theorem State.modHst_lnk (s : State) (f : HstState → HstState) : (s.modHst f).lnk = s.lnk := rfl
@[simp] theorem State.modHst_tim (s : State) (f : HstState → HstState) : (s.modHst f).tim = s.tim := rfl
@[simp] theorem State.modHst_nvj (s : State) (f : HstState → HstState) : (s.modHst f).nvj = s.nvj := rfl
@[simp] theorem State.modHst_srf (s : State) (f : HstState → HstState) : (s.modHst f).srf = s.srf := rfl
@[simp] theorem State.modHst_codec (s : State) (f : HstState → HstState) : (s.modHst f).codec = s.codec := rfl
@[simp] theorem State.modHst_mir (s : State) (f : HstState → HstState) : (s.modHst f).mir = s.mir := rfl
@[simp] theorem State.modHst_ing (s : State) (f : HstState → HstState) : (s.modHst f).ing = s.ing := rfl
@[simp] theorem State.modHst_asr (s : State) (f : HstState → HstState) : (s.modHst f).asr = s.asr := rfl
@[simp] theorem State.modHst_fuse (s : State) (f : HstState → HstState) : (s.modHst f).fuse = s.fuse := rfl
@[simp] theorem State.modHst_aon (s : State) (f : HstState → HstState) : (s.modHst f).aon = s.aon := rfl
@[simp] theorem State.modHst_dram (s : State) (f : HstState → HstState) : (s.modHst f).dram = s.dram := rfl
@[simp] theorem State.modHst_ddrDiv (s : State) (f : HstState → HstState) : (s.modHst f).ddrDiv = s.ddrDiv := rfl
@[simp] theorem State.modHst_sd (s : State) (f : HstState → HstState) : (s.modHst f).sd = s.sd := rfl
@[simp] theorem State.modHst_bot (s : State) (f : HstState → HstState) : (s.modHst f).bot = s.bot := rfl
@[simp] theorem State.modHst_tap (s : State) (f : HstState → HstState) : (s.modHst f).tap = s.tap := rfl
@[simp] theorem State.modHst_cmp (s : State) (f : HstState → HstState) : (s.modHst f).cmp = s.cmp := rfl
@[simp] theorem State.modHst_cor (s : State) (f : HstState → HstState) : (s.modHst f).cor = s.cor := rfl
@[simp] theorem State.modHst_scn (s : State) (f : HstState → HstState) : (s.modHst f).scn = s.scn := rfl
@[simp] theorem State.modHst_pwr (s : State) (f : HstState → HstState) : (s.modHst f).pwr = s.pwr := rfl
@[simp] theorem State.modHst_hkp (s : State) (f : HstState → HstState) : (s.modHst f).hkp = s.hkp := rfl
@[simp] theorem State.modHst_sent (s : State) (f : HstState → HstState) : (s.modHst f).sent = s.sent := rfl
@[simp] theorem State.modHst_freeCtr (s : State) (f : HstState → HstState) : (s.modHst f).freeCtr = s.freeCtr := rfl
@[simp] theorem State.modHst_pending (s : State) (f : HstState → HstState) : (s.modHst f).pending = s.pending := rfl
@[simp] theorem State.modHst_hst (s : State) (f : HstState → HstState) : (s.modHst f).hst = f s.hst := rfl

/-! ### The lan part -/

@[simp] theorem State.modLan_regs (s : State) (f : LanState → LanState) : (s.modLan f).regs = s.regs := rfl
@[simp] theorem State.modLan_mem (s : State) (f : LanState → LanState) : (s.modLan f).mem = s.mem := rfl
@[simp] theorem State.modLan_poison (s : State) (f : LanState → LanState) : (s.modLan f).poison = s.poison := rfl
@[simp] theorem State.modLan_soft (s : State) (f : LanState → LanState) : (s.modLan f).soft = s.soft := rfl
@[simp] theorem State.modLan_cores (s : State) (f : LanState → LanState) : (s.modLan f).cores = s.cores := rfl
@[simp] theorem State.modLan_lnk (s : State) (f : LanState → LanState) : (s.modLan f).lnk = s.lnk := rfl
@[simp] theorem State.modLan_tim (s : State) (f : LanState → LanState) : (s.modLan f).tim = s.tim := rfl
@[simp] theorem State.modLan_nvj (s : State) (f : LanState → LanState) : (s.modLan f).nvj = s.nvj := rfl
@[simp] theorem State.modLan_srf (s : State) (f : LanState → LanState) : (s.modLan f).srf = s.srf := rfl
@[simp] theorem State.modLan_codec (s : State) (f : LanState → LanState) : (s.modLan f).codec = s.codec := rfl
@[simp] theorem State.modLan_mir (s : State) (f : LanState → LanState) : (s.modLan f).mir = s.mir := rfl
@[simp] theorem State.modLan_hst (s : State) (f : LanState → LanState) : (s.modLan f).hst = s.hst := rfl
@[simp] theorem State.modLan_ing (s : State) (f : LanState → LanState) : (s.modLan f).ing = s.ing := rfl
@[simp] theorem State.modLan_asr (s : State) (f : LanState → LanState) : (s.modLan f).asr = s.asr := rfl
@[simp] theorem State.modLan_fuse (s : State) (f : LanState → LanState) : (s.modLan f).fuse = s.fuse := rfl
@[simp] theorem State.modLan_aon (s : State) (f : LanState → LanState) : (s.modLan f).aon = s.aon := rfl
@[simp] theorem State.modLan_dram (s : State) (f : LanState → LanState) : (s.modLan f).dram = s.dram := rfl
@[simp] theorem State.modLan_ddrDiv (s : State) (f : LanState → LanState) : (s.modLan f).ddrDiv = s.ddrDiv := rfl
@[simp] theorem State.modLan_sd (s : State) (f : LanState → LanState) : (s.modLan f).sd = s.sd := rfl
@[simp] theorem State.modLan_bot (s : State) (f : LanState → LanState) : (s.modLan f).bot = s.bot := rfl
@[simp] theorem State.modLan_tap (s : State) (f : LanState → LanState) : (s.modLan f).tap = s.tap := rfl
@[simp] theorem State.modLan_cmp (s : State) (f : LanState → LanState) : (s.modLan f).cmp = s.cmp := rfl
@[simp] theorem State.modLan_cor (s : State) (f : LanState → LanState) : (s.modLan f).cor = s.cor := rfl
@[simp] theorem State.modLan_scn (s : State) (f : LanState → LanState) : (s.modLan f).scn = s.scn := rfl
@[simp] theorem State.modLan_pwr (s : State) (f : LanState → LanState) : (s.modLan f).pwr = s.pwr := rfl
@[simp] theorem State.modLan_hkp (s : State) (f : LanState → LanState) : (s.modLan f).hkp = s.hkp := rfl
@[simp] theorem State.modLan_sent (s : State) (f : LanState → LanState) : (s.modLan f).sent = s.sent := rfl
@[simp] theorem State.modLan_freeCtr (s : State) (f : LanState → LanState) : (s.modLan f).freeCtr = s.freeCtr := rfl
@[simp] theorem State.modLan_pending (s : State) (f : LanState → LanState) : (s.modLan f).pending = s.pending := rfl
@[simp] theorem State.modLan_lan (s : State) (f : LanState → LanState) : (s.modLan f).lan = f s.lan := rfl

/-! ### The mir part -/

@[simp] theorem State.modMir_regs (s : State) (f : MirState → MirState) : (s.modMir f).regs = s.regs := rfl
@[simp] theorem State.modMir_mem (s : State) (f : MirState → MirState) : (s.modMir f).mem = s.mem := rfl
@[simp] theorem State.modMir_poison (s : State) (f : MirState → MirState) : (s.modMir f).poison = s.poison := rfl
@[simp] theorem State.modMir_soft (s : State) (f : MirState → MirState) : (s.modMir f).soft = s.soft := rfl
@[simp] theorem State.modMir_cores (s : State) (f : MirState → MirState) : (s.modMir f).cores = s.cores := rfl
@[simp] theorem State.modMir_lan (s : State) (f : MirState → MirState) : (s.modMir f).lan = s.lan := rfl
@[simp] theorem State.modMir_lnk (s : State) (f : MirState → MirState) : (s.modMir f).lnk = s.lnk := rfl
@[simp] theorem State.modMir_tim (s : State) (f : MirState → MirState) : (s.modMir f).tim = s.tim := rfl
@[simp] theorem State.modMir_nvj (s : State) (f : MirState → MirState) : (s.modMir f).nvj = s.nvj := rfl
@[simp] theorem State.modMir_srf (s : State) (f : MirState → MirState) : (s.modMir f).srf = s.srf := rfl
@[simp] theorem State.modMir_codec (s : State) (f : MirState → MirState) : (s.modMir f).codec = s.codec := rfl
@[simp] theorem State.modMir_hst (s : State) (f : MirState → MirState) : (s.modMir f).hst = s.hst := rfl
@[simp] theorem State.modMir_ing (s : State) (f : MirState → MirState) : (s.modMir f).ing = s.ing := rfl
@[simp] theorem State.modMir_asr (s : State) (f : MirState → MirState) : (s.modMir f).asr = s.asr := rfl
@[simp] theorem State.modMir_fuse (s : State) (f : MirState → MirState) : (s.modMir f).fuse = s.fuse := rfl
@[simp] theorem State.modMir_aon (s : State) (f : MirState → MirState) : (s.modMir f).aon = s.aon := rfl
@[simp] theorem State.modMir_dram (s : State) (f : MirState → MirState) : (s.modMir f).dram = s.dram := rfl
@[simp] theorem State.modMir_ddrDiv (s : State) (f : MirState → MirState) : (s.modMir f).ddrDiv = s.ddrDiv := rfl
@[simp] theorem State.modMir_sd (s : State) (f : MirState → MirState) : (s.modMir f).sd = s.sd := rfl
@[simp] theorem State.modMir_bot (s : State) (f : MirState → MirState) : (s.modMir f).bot = s.bot := rfl
@[simp] theorem State.modMir_tap (s : State) (f : MirState → MirState) : (s.modMir f).tap = s.tap := rfl
@[simp] theorem State.modMir_cmp (s : State) (f : MirState → MirState) : (s.modMir f).cmp = s.cmp := rfl
@[simp] theorem State.modMir_cor (s : State) (f : MirState → MirState) : (s.modMir f).cor = s.cor := rfl
@[simp] theorem State.modMir_scn (s : State) (f : MirState → MirState) : (s.modMir f).scn = s.scn := rfl
@[simp] theorem State.modMir_pwr (s : State) (f : MirState → MirState) : (s.modMir f).pwr = s.pwr := rfl
@[simp] theorem State.modMir_hkp (s : State) (f : MirState → MirState) : (s.modMir f).hkp = s.hkp := rfl
@[simp] theorem State.modMir_sent (s : State) (f : MirState → MirState) : (s.modMir f).sent = s.sent := rfl
@[simp] theorem State.modMir_freeCtr (s : State) (f : MirState → MirState) : (s.modMir f).freeCtr = s.freeCtr := rfl
@[simp] theorem State.modMir_pending (s : State) (f : MirState → MirState) : (s.modMir f).pending = s.pending := rfl
@[simp] theorem State.modMir_mir (s : State) (f : MirState → MirState) : (s.modMir f).mir = f s.mir := rfl

/-! ### The pwr part -/

@[simp] theorem State.modPwr_regs (s : State) (f : PwrState → PwrState) : (s.modPwr f).regs = s.regs := rfl
@[simp] theorem State.modPwr_mem (s : State) (f : PwrState → PwrState) : (s.modPwr f).mem = s.mem := rfl
@[simp] theorem State.modPwr_poison (s : State) (f : PwrState → PwrState) : (s.modPwr f).poison = s.poison := rfl
@[simp] theorem State.modPwr_soft (s : State) (f : PwrState → PwrState) : (s.modPwr f).soft = s.soft := rfl
@[simp] theorem State.modPwr_cores (s : State) (f : PwrState → PwrState) : (s.modPwr f).cores = s.cores := rfl
@[simp] theorem State.modPwr_lan (s : State) (f : PwrState → PwrState) : (s.modPwr f).lan = s.lan := rfl
@[simp] theorem State.modPwr_lnk (s : State) (f : PwrState → PwrState) : (s.modPwr f).lnk = s.lnk := rfl
@[simp] theorem State.modPwr_tim (s : State) (f : PwrState → PwrState) : (s.modPwr f).tim = s.tim := rfl
@[simp] theorem State.modPwr_nvj (s : State) (f : PwrState → PwrState) : (s.modPwr f).nvj = s.nvj := rfl
@[simp] theorem State.modPwr_srf (s : State) (f : PwrState → PwrState) : (s.modPwr f).srf = s.srf := rfl
@[simp] theorem State.modPwr_codec (s : State) (f : PwrState → PwrState) : (s.modPwr f).codec = s.codec := rfl
@[simp] theorem State.modPwr_mir (s : State) (f : PwrState → PwrState) : (s.modPwr f).mir = s.mir := rfl
@[simp] theorem State.modPwr_hst (s : State) (f : PwrState → PwrState) : (s.modPwr f).hst = s.hst := rfl
@[simp] theorem State.modPwr_ing (s : State) (f : PwrState → PwrState) : (s.modPwr f).ing = s.ing := rfl
@[simp] theorem State.modPwr_asr (s : State) (f : PwrState → PwrState) : (s.modPwr f).asr = s.asr := rfl
@[simp] theorem State.modPwr_fuse (s : State) (f : PwrState → PwrState) : (s.modPwr f).fuse = s.fuse := rfl
@[simp] theorem State.modPwr_aon (s : State) (f : PwrState → PwrState) : (s.modPwr f).aon = s.aon := rfl
@[simp] theorem State.modPwr_dram (s : State) (f : PwrState → PwrState) : (s.modPwr f).dram = s.dram := rfl
@[simp] theorem State.modPwr_ddrDiv (s : State) (f : PwrState → PwrState) : (s.modPwr f).ddrDiv = s.ddrDiv := rfl
@[simp] theorem State.modPwr_sd (s : State) (f : PwrState → PwrState) : (s.modPwr f).sd = s.sd := rfl
@[simp] theorem State.modPwr_bot (s : State) (f : PwrState → PwrState) : (s.modPwr f).bot = s.bot := rfl
@[simp] theorem State.modPwr_tap (s : State) (f : PwrState → PwrState) : (s.modPwr f).tap = s.tap := rfl
@[simp] theorem State.modPwr_cmp (s : State) (f : PwrState → PwrState) : (s.modPwr f).cmp = s.cmp := rfl
@[simp] theorem State.modPwr_cor (s : State) (f : PwrState → PwrState) : (s.modPwr f).cor = s.cor := rfl
@[simp] theorem State.modPwr_scn (s : State) (f : PwrState → PwrState) : (s.modPwr f).scn = s.scn := rfl
@[simp] theorem State.modPwr_hkp (s : State) (f : PwrState → PwrState) : (s.modPwr f).hkp = s.hkp := rfl
@[simp] theorem State.modPwr_sent (s : State) (f : PwrState → PwrState) : (s.modPwr f).sent = s.sent := rfl
@[simp] theorem State.modPwr_freeCtr (s : State) (f : PwrState → PwrState) : (s.modPwr f).freeCtr = s.freeCtr := rfl
@[simp] theorem State.modPwr_pending (s : State) (f : PwrState → PwrState) : (s.modPwr f).pending = s.pending := rfl
@[simp] theorem State.modPwr_pwr (s : State) (f : PwrState → PwrState) : (s.modPwr f).pwr = f s.pwr := rfl

/-! ### The scn part -/

@[simp] theorem State.modScn_regs (s : State) (f : ScnState → ScnState) : (s.modScn f).regs = s.regs := rfl
@[simp] theorem State.modScn_mem (s : State) (f : ScnState → ScnState) : (s.modScn f).mem = s.mem := rfl
@[simp] theorem State.modScn_poison (s : State) (f : ScnState → ScnState) : (s.modScn f).poison = s.poison := rfl
@[simp] theorem State.modScn_soft (s : State) (f : ScnState → ScnState) : (s.modScn f).soft = s.soft := rfl
@[simp] theorem State.modScn_cores (s : State) (f : ScnState → ScnState) : (s.modScn f).cores = s.cores := rfl
@[simp] theorem State.modScn_lan (s : State) (f : ScnState → ScnState) : (s.modScn f).lan = s.lan := rfl
@[simp] theorem State.modScn_lnk (s : State) (f : ScnState → ScnState) : (s.modScn f).lnk = s.lnk := rfl
@[simp] theorem State.modScn_tim (s : State) (f : ScnState → ScnState) : (s.modScn f).tim = s.tim := rfl
@[simp] theorem State.modScn_nvj (s : State) (f : ScnState → ScnState) : (s.modScn f).nvj = s.nvj := rfl
@[simp] theorem State.modScn_srf (s : State) (f : ScnState → ScnState) : (s.modScn f).srf = s.srf := rfl
@[simp] theorem State.modScn_codec (s : State) (f : ScnState → ScnState) : (s.modScn f).codec = s.codec := rfl
@[simp] theorem State.modScn_mir (s : State) (f : ScnState → ScnState) : (s.modScn f).mir = s.mir := rfl
@[simp] theorem State.modScn_hst (s : State) (f : ScnState → ScnState) : (s.modScn f).hst = s.hst := rfl
@[simp] theorem State.modScn_ing (s : State) (f : ScnState → ScnState) : (s.modScn f).ing = s.ing := rfl
@[simp] theorem State.modScn_asr (s : State) (f : ScnState → ScnState) : (s.modScn f).asr = s.asr := rfl
@[simp] theorem State.modScn_fuse (s : State) (f : ScnState → ScnState) : (s.modScn f).fuse = s.fuse := rfl
@[simp] theorem State.modScn_aon (s : State) (f : ScnState → ScnState) : (s.modScn f).aon = s.aon := rfl
@[simp] theorem State.modScn_dram (s : State) (f : ScnState → ScnState) : (s.modScn f).dram = s.dram := rfl
@[simp] theorem State.modScn_ddrDiv (s : State) (f : ScnState → ScnState) : (s.modScn f).ddrDiv = s.ddrDiv := rfl
@[simp] theorem State.modScn_sd (s : State) (f : ScnState → ScnState) : (s.modScn f).sd = s.sd := rfl
@[simp] theorem State.modScn_bot (s : State) (f : ScnState → ScnState) : (s.modScn f).bot = s.bot := rfl
@[simp] theorem State.modScn_tap (s : State) (f : ScnState → ScnState) : (s.modScn f).tap = s.tap := rfl
@[simp] theorem State.modScn_cmp (s : State) (f : ScnState → ScnState) : (s.modScn f).cmp = s.cmp := rfl
@[simp] theorem State.modScn_cor (s : State) (f : ScnState → ScnState) : (s.modScn f).cor = s.cor := rfl
@[simp] theorem State.modScn_pwr (s : State) (f : ScnState → ScnState) : (s.modScn f).pwr = s.pwr := rfl
@[simp] theorem State.modScn_hkp (s : State) (f : ScnState → ScnState) : (s.modScn f).hkp = s.hkp := rfl
@[simp] theorem State.modScn_sent (s : State) (f : ScnState → ScnState) : (s.modScn f).sent = s.sent := rfl
@[simp] theorem State.modScn_freeCtr (s : State) (f : ScnState → ScnState) : (s.modScn f).freeCtr = s.freeCtr := rfl
@[simp] theorem State.modScn_pending (s : State) (f : ScnState → ScnState) : (s.modScn f).pending = s.pending := rfl
@[simp] theorem State.modScn_scn (s : State) (f : ScnState → ScnState) : (s.modScn f).scn = f s.scn := rfl

/-! ### A port -/

@[simp] theorem State.modPort_regs (s : State) (p : Nat) (f : Port → Port) : (s.modPort p f).regs = s.regs := rfl
@[simp] theorem State.modPort_mem (s : State) (p : Nat) (f : Port → Port) : (s.modPort p f).mem = s.mem := rfl
@[simp] theorem State.modPort_poison (s : State) (p : Nat) (f : Port → Port) : (s.modPort p f).poison = s.poison := rfl
@[simp] theorem State.modPort_soft (s : State) (p : Nat) (f : Port → Port) : (s.modPort p f).soft = s.soft := rfl
@[simp] theorem State.modPort_cores (s : State) (p : Nat) (f : Port → Port) : (s.modPort p f).cores = s.cores := rfl
@[simp] theorem State.modPort_lan (s : State) (p : Nat) (f : Port → Port) : (s.modPort p f).lan = s.lan := rfl
@[simp] theorem State.modPort_tim (s : State) (p : Nat) (f : Port → Port) : (s.modPort p f).tim = s.tim := rfl
@[simp] theorem State.modPort_nvj (s : State) (p : Nat) (f : Port → Port) : (s.modPort p f).nvj = s.nvj := rfl
@[simp] theorem State.modPort_srf (s : State) (p : Nat) (f : Port → Port) : (s.modPort p f).srf = s.srf := rfl
@[simp] theorem State.modPort_codec (s : State) (p : Nat) (f : Port → Port) : (s.modPort p f).codec = s.codec := rfl
@[simp] theorem State.modPort_mir (s : State) (p : Nat) (f : Port → Port) : (s.modPort p f).mir = s.mir := rfl
@[simp] theorem State.modPort_hst (s : State) (p : Nat) (f : Port → Port) : (s.modPort p f).hst = s.hst := rfl
@[simp] theorem State.modPort_ing (s : State) (p : Nat) (f : Port → Port) : (s.modPort p f).ing = s.ing := rfl
@[simp] theorem State.modPort_asr (s : State) (p : Nat) (f : Port → Port) : (s.modPort p f).asr = s.asr := rfl
@[simp] theorem State.modPort_fuse (s : State) (p : Nat) (f : Port → Port) : (s.modPort p f).fuse = s.fuse := rfl
@[simp] theorem State.modPort_aon (s : State) (p : Nat) (f : Port → Port) : (s.modPort p f).aon = s.aon := rfl
@[simp] theorem State.modPort_dram (s : State) (p : Nat) (f : Port → Port) : (s.modPort p f).dram = s.dram := rfl
@[simp] theorem State.modPort_ddrDiv (s : State) (p : Nat) (f : Port → Port) : (s.modPort p f).ddrDiv = s.ddrDiv := rfl
@[simp] theorem State.modPort_sd (s : State) (p : Nat) (f : Port → Port) : (s.modPort p f).sd = s.sd := rfl
@[simp] theorem State.modPort_bot (s : State) (p : Nat) (f : Port → Port) : (s.modPort p f).bot = s.bot := rfl
@[simp] theorem State.modPort_tap (s : State) (p : Nat) (f : Port → Port) : (s.modPort p f).tap = s.tap := rfl
@[simp] theorem State.modPort_cmp (s : State) (p : Nat) (f : Port → Port) : (s.modPort p f).cmp = s.cmp := rfl
@[simp] theorem State.modPort_cor (s : State) (p : Nat) (f : Port → Port) : (s.modPort p f).cor = s.cor := rfl
@[simp] theorem State.modPort_scn (s : State) (p : Nat) (f : Port → Port) : (s.modPort p f).scn = s.scn := rfl
@[simp] theorem State.modPort_pwr (s : State) (p : Nat) (f : Port → Port) : (s.modPort p f).pwr = s.pwr := rfl
@[simp] theorem State.modPort_hkp (s : State) (p : Nat) (f : Port → Port) : (s.modPort p f).hkp = s.hkp := rfl
@[simp] theorem State.modPort_sent (s : State) (p : Nat) (f : Port → Port) : (s.modPort p f).sent = s.sent := rfl
@[simp] theorem State.modPort_freeCtr (s : State) (p : Nat) (f : Port → Port) : (s.modPort p f).freeCtr = s.freeCtr := rfl
@[simp] theorem State.modPort_pending (s : State) (p : Nat) (f : Port → Port) : (s.modPort p f).pending = s.pending := rfl

/-! ### A stream -/

@[simp] theorem State.modStream_regs (s : State) (i : Nat) (f : Stream → Stream) : (s.modStream i f).regs = s.regs := rfl
@[simp] theorem State.modStream_mem (s : State) (i : Nat) (f : Stream → Stream) : (s.modStream i f).mem = s.mem := rfl
@[simp] theorem State.modStream_poison (s : State) (i : Nat) (f : Stream → Stream) : (s.modStream i f).poison = s.poison := rfl
@[simp] theorem State.modStream_soft (s : State) (i : Nat) (f : Stream → Stream) : (s.modStream i f).soft = s.soft := rfl
@[simp] theorem State.modStream_cores (s : State) (i : Nat) (f : Stream → Stream) : (s.modStream i f).cores = s.cores := rfl
@[simp] theorem State.modStream_lan (s : State) (i : Nat) (f : Stream → Stream) : (s.modStream i f).lan = s.lan := rfl
@[simp] theorem State.modStream_lnk (s : State) (i : Nat) (f : Stream → Stream) : (s.modStream i f).lnk = s.lnk := rfl
@[simp] theorem State.modStream_tim (s : State) (i : Nat) (f : Stream → Stream) : (s.modStream i f).tim = s.tim := rfl
@[simp] theorem State.modStream_nvj (s : State) (i : Nat) (f : Stream → Stream) : (s.modStream i f).nvj = s.nvj := rfl
@[simp] theorem State.modStream_srf (s : State) (i : Nat) (f : Stream → Stream) : (s.modStream i f).srf = s.srf := rfl
@[simp] theorem State.modStream_codec (s : State) (i : Nat) (f : Stream → Stream) : (s.modStream i f).codec = s.codec := rfl
@[simp] theorem State.modStream_mir (s : State) (i : Nat) (f : Stream → Stream) : (s.modStream i f).mir = s.mir := rfl
@[simp] theorem State.modStream_hst (s : State) (i : Nat) (f : Stream → Stream) : (s.modStream i f).hst = s.hst := rfl
@[simp] theorem State.modStream_asr (s : State) (i : Nat) (f : Stream → Stream) : (s.modStream i f).asr = s.asr := rfl
@[simp] theorem State.modStream_fuse (s : State) (i : Nat) (f : Stream → Stream) : (s.modStream i f).fuse = s.fuse := rfl
@[simp] theorem State.modStream_aon (s : State) (i : Nat) (f : Stream → Stream) : (s.modStream i f).aon = s.aon := rfl
@[simp] theorem State.modStream_dram (s : State) (i : Nat) (f : Stream → Stream) : (s.modStream i f).dram = s.dram := rfl
@[simp] theorem State.modStream_ddrDiv (s : State) (i : Nat) (f : Stream → Stream) : (s.modStream i f).ddrDiv = s.ddrDiv := rfl
@[simp] theorem State.modStream_sd (s : State) (i : Nat) (f : Stream → Stream) : (s.modStream i f).sd = s.sd := rfl
@[simp] theorem State.modStream_bot (s : State) (i : Nat) (f : Stream → Stream) : (s.modStream i f).bot = s.bot := rfl
@[simp] theorem State.modStream_tap (s : State) (i : Nat) (f : Stream → Stream) : (s.modStream i f).tap = s.tap := rfl
@[simp] theorem State.modStream_cmp (s : State) (i : Nat) (f : Stream → Stream) : (s.modStream i f).cmp = s.cmp := rfl
@[simp] theorem State.modStream_cor (s : State) (i : Nat) (f : Stream → Stream) : (s.modStream i f).cor = s.cor := rfl
@[simp] theorem State.modStream_scn (s : State) (i : Nat) (f : Stream → Stream) : (s.modStream i f).scn = s.scn := rfl
@[simp] theorem State.modStream_pwr (s : State) (i : Nat) (f : Stream → Stream) : (s.modStream i f).pwr = s.pwr := rfl
@[simp] theorem State.modStream_hkp (s : State) (i : Nat) (f : Stream → Stream) : (s.modStream i f).hkp = s.hkp := rfl
@[simp] theorem State.modStream_sent (s : State) (i : Nat) (f : Stream → Stream) : (s.modStream i f).sent = s.sent := rfl
@[simp] theorem State.modStream_freeCtr (s : State) (i : Nat) (f : Stream → Stream) : (s.modStream i f).freeCtr = s.freeCtr := rfl
@[simp] theorem State.modStream_pending (s : State) (i : Nat) (f : Stream → Stream) : (s.modStream i f).pending = s.pending := rfl

/-! ### A channel -/

@[simp] theorem State.modChan_regs (s : State) (ch : Fin 2) (f : DramChan → DramChan) : (s.modChan ch f).regs = s.regs := rfl
@[simp] theorem State.modChan_mem (s : State) (ch : Fin 2) (f : DramChan → DramChan) : (s.modChan ch f).mem = s.mem := rfl
@[simp] theorem State.modChan_poison (s : State) (ch : Fin 2) (f : DramChan → DramChan) : (s.modChan ch f).poison = s.poison := rfl
@[simp] theorem State.modChan_soft (s : State) (ch : Fin 2) (f : DramChan → DramChan) : (s.modChan ch f).soft = s.soft := rfl
@[simp] theorem State.modChan_cores (s : State) (ch : Fin 2) (f : DramChan → DramChan) : (s.modChan ch f).cores = s.cores := rfl
@[simp] theorem State.modChan_lan (s : State) (ch : Fin 2) (f : DramChan → DramChan) : (s.modChan ch f).lan = s.lan := rfl
@[simp] theorem State.modChan_lnk (s : State) (ch : Fin 2) (f : DramChan → DramChan) : (s.modChan ch f).lnk = s.lnk := rfl
@[simp] theorem State.modChan_tim (s : State) (ch : Fin 2) (f : DramChan → DramChan) : (s.modChan ch f).tim = s.tim := rfl
@[simp] theorem State.modChan_nvj (s : State) (ch : Fin 2) (f : DramChan → DramChan) : (s.modChan ch f).nvj = s.nvj := rfl
@[simp] theorem State.modChan_srf (s : State) (ch : Fin 2) (f : DramChan → DramChan) : (s.modChan ch f).srf = s.srf := rfl
@[simp] theorem State.modChan_codec (s : State) (ch : Fin 2) (f : DramChan → DramChan) : (s.modChan ch f).codec = s.codec := rfl
@[simp] theorem State.modChan_mir (s : State) (ch : Fin 2) (f : DramChan → DramChan) : (s.modChan ch f).mir = s.mir := rfl
@[simp] theorem State.modChan_hst (s : State) (ch : Fin 2) (f : DramChan → DramChan) : (s.modChan ch f).hst = s.hst := rfl
@[simp] theorem State.modChan_ing (s : State) (ch : Fin 2) (f : DramChan → DramChan) : (s.modChan ch f).ing = s.ing := rfl
@[simp] theorem State.modChan_asr (s : State) (ch : Fin 2) (f : DramChan → DramChan) : (s.modChan ch f).asr = s.asr := rfl
@[simp] theorem State.modChan_fuse (s : State) (ch : Fin 2) (f : DramChan → DramChan) : (s.modChan ch f).fuse = s.fuse := rfl
@[simp] theorem State.modChan_aon (s : State) (ch : Fin 2) (f : DramChan → DramChan) : (s.modChan ch f).aon = s.aon := rfl
@[simp] theorem State.modChan_ddrDiv (s : State) (ch : Fin 2) (f : DramChan → DramChan) : (s.modChan ch f).ddrDiv = s.ddrDiv := rfl
@[simp] theorem State.modChan_sd (s : State) (ch : Fin 2) (f : DramChan → DramChan) : (s.modChan ch f).sd = s.sd := rfl
@[simp] theorem State.modChan_bot (s : State) (ch : Fin 2) (f : DramChan → DramChan) : (s.modChan ch f).bot = s.bot := rfl
@[simp] theorem State.modChan_tap (s : State) (ch : Fin 2) (f : DramChan → DramChan) : (s.modChan ch f).tap = s.tap := rfl
@[simp] theorem State.modChan_cmp (s : State) (ch : Fin 2) (f : DramChan → DramChan) : (s.modChan ch f).cmp = s.cmp := rfl
@[simp] theorem State.modChan_cor (s : State) (ch : Fin 2) (f : DramChan → DramChan) : (s.modChan ch f).cor = s.cor := rfl
@[simp] theorem State.modChan_scn (s : State) (ch : Fin 2) (f : DramChan → DramChan) : (s.modChan ch f).scn = s.scn := rfl
@[simp] theorem State.modChan_pwr (s : State) (ch : Fin 2) (f : DramChan → DramChan) : (s.modChan ch f).pwr = s.pwr := rfl
@[simp] theorem State.modChan_hkp (s : State) (ch : Fin 2) (f : DramChan → DramChan) : (s.modChan ch f).hkp = s.hkp := rfl
@[simp] theorem State.modChan_sent (s : State) (ch : Fin 2) (f : DramChan → DramChan) : (s.modChan ch f).sent = s.sent := rfl
@[simp] theorem State.modChan_freeCtr (s : State) (ch : Fin 2) (f : DramChan → DramChan) : (s.modChan ch f).freeCtr = s.freeCtr := rfl
@[simp] theorem State.modChan_pending (s : State) (ch : Fin 2) (f : DramChan → DramChan) : (s.modChan ch f).pending = s.pending := rfl

/-! ### Words under the other updates -/

@[simp] theorem State.emit_rd (s : State) (x : Sent) (r : Reg) : (s.emit x).rd r = s.rd r := rfl
@[simp] theorem State.emit_get (s : State) (x : Sent) (f : Fld) : (s.emit x).get f = s.get f := rfl
@[simp] theorem State.draw_rd (s : State) (r : Reg) : (s.draw.2).rd r = s.rd r := rfl
@[simp] theorem State.draw_get (s : State) (f : Fld) : (s.draw.2).get f = s.get f := rfl
@[simp] theorem State.drawBytes_rd (s : State) (n : Nat) (r : Reg) : ((s.drawBytes n).2).rd r = s.rd r := rfl
@[simp] theorem State.drawBytes_get (s : State) (n : Nat) (f : Fld) : ((s.drawBytes n).2).get f = s.get f := rfl
@[simp] theorem State.putBytes_rd (s : State) (a : Nat) (l : List Byte) (r : Reg) : (s.putBytes a l).rd r = s.rd r := rfl
@[simp] theorem State.putBytes_get (s : State) (a : Nat) (l : List Byte) (f : Fld) : (s.putBytes a l).get f = s.get f := rfl
@[simp] theorem State.setCore_rd (s : State) (n : Fin 5) (c : Core) (r : Reg) : (s.setCore n c).rd r = s.rd r := rfl
@[simp] theorem State.setCore_get (s : State) (n : Fin 5) (c : Core) (f : Fld) : (s.setCore n c).get f = s.get f := rfl
@[simp] theorem State.retire_rd (s : State) (n : Fin 5) (pc : BitVec 40) (r : Reg) : (s.retire n pc).rd r = s.rd r := rfl
@[simp] theorem State.retire_get (s : State) (n : Fin 5) (pc : BitVec 40) (f : Fld) : (s.retire n pc).get f = s.get f := rfl
@[simp] theorem State.modPort_rd (s : State) (p : Nat) (f : Port → Port) (r : Reg) : (s.modPort p f).rd r = s.rd r := rfl
@[simp] theorem State.modPort_get (s : State) (p : Nat) (g : Port → Port) (f : Fld) : (s.modPort p g).get f = s.get f := rfl
@[simp] theorem State.modStream_rd (s : State) (i : Nat) (f : Stream → Stream) (r : Reg) : (s.modStream i f).rd r = s.rd r := rfl
@[simp] theorem State.modStream_get (s : State) (i : Nat) (g : Stream → Stream) (f : Fld) : (s.modStream i g).get f = s.get f := rfl
@[simp] theorem State.modChan_rd (s : State) (ch : Fin 2) (f : DramChan → DramChan) (r : Reg) : (s.modChan ch f).rd r = s.rd r := rfl
@[simp] theorem State.modChan_get (s : State) (ch : Fin 2) (g : DramChan → DramChan) (f : Fld) : (s.modChan ch g).get f = s.get f := rfl
@[simp] theorem State.modAsr_rd (s : State) (f : AsrState → AsrState) (r : Reg) : (s.modAsr f).rd r = s.rd r := rfl
@[simp] theorem State.modAsr_get (s : State) (g : AsrState → AsrState) (f : Fld) : (s.modAsr g).get f = s.get f := rfl
@[simp] theorem State.modAon_rd (s : State) (f : AonState → AonState) (r : Reg) : (s.modAon f).rd r = s.rd r := rfl
@[simp] theorem State.modAon_get (s : State) (g : AonState → AonState) (f : Fld) : (s.modAon g).get f = s.get f := rfl
@[simp] theorem State.modCmp_rd (s : State) (f : CmpState → CmpState) (r : Reg) : (s.modCmp f).rd r = s.rd r := rfl
@[simp] theorem State.modCmp_get (s : State) (g : CmpState → CmpState) (f : Fld) : (s.modCmp g).get f = s.get f := rfl
@[simp] theorem State.modCor_rd (s : State) (f : CorState → CorState) (r : Reg) : (s.modCor f).rd r = s.rd r := rfl
@[simp] theorem State.modCor_get (s : State) (g : CorState → CorState) (f : Fld) : (s.modCor g).get f = s.get f := rfl
@[simp] theorem State.modBot_rd (s : State) (f : BotState → BotState) (r : Reg) : (s.modBot f).rd r = s.rd r := rfl
@[simp] theorem State.modBot_get (s : State) (g : BotState → BotState) (f : Fld) : (s.modBot g).get f = s.get f := rfl
@[simp] theorem State.modHkp_rd (s : State) (f : HkpState → HkpState) (r : Reg) : (s.modHkp f).rd r = s.rd r := rfl
@[simp] theorem State.modHkp_get (s : State) (g : HkpState → HkpState) (f : Fld) : (s.modHkp g).get f = s.get f := rfl
@[simp] theorem State.modHst_rd (s : State) (f : HstState → HstState) (r : Reg) : (s.modHst f).rd r = s.rd r := rfl
@[simp] theorem State.modHst_get (s : State) (g : HstState → HstState) (f : Fld) : (s.modHst g).get f = s.get f := rfl
@[simp] theorem State.modLan_rd (s : State) (f : LanState → LanState) (r : Reg) : (s.modLan f).rd r = s.rd r := rfl
@[simp] theorem State.modLan_get (s : State) (g : LanState → LanState) (f : Fld) : (s.modLan g).get f = s.get f := rfl
@[simp] theorem State.modMir_rd (s : State) (f : MirState → MirState) (r : Reg) : (s.modMir f).rd r = s.rd r := rfl
@[simp] theorem State.modMir_get (s : State) (g : MirState → MirState) (f : Fld) : (s.modMir g).get f = s.get f := rfl
@[simp] theorem State.modPwr_rd (s : State) (f : PwrState → PwrState) (r : Reg) : (s.modPwr f).rd r = s.rd r := rfl
@[simp] theorem State.modPwr_get (s : State) (g : PwrState → PwrState) (f : Fld) : (s.modPwr g).get f = s.get f := rfl
@[simp] theorem State.modScn_rd (s : State) (f : ScnState → ScnState) (r : Reg) : (s.modScn f).rd r = s.rd r := rfl
@[simp] theorem State.modScn_get (s : State) (g : ScnState → ScnState) (f : Fld) : (s.modScn g).get f = s.get f := rfl

end Sys2Proof.Machine
end

