-- ==== Sys2Proof/Laws/Regs.lean ====
section
/-! SUPPORT. Words and fields: what is read after a word or a field is set, and the frames of the operations on words. -/

namespace Sys2Proof.Machine

/-! ### Words -/

theorem regsGet_insert (r q : Reg) (v : Word) (l : List (Reg × Word)) (h : ∀ e ∈ l, e.1 ≠ r) :
    regsGet q (regsInsert r v l) = if q = r then v else regsGet q l := by
  induction l with
  | nil =>
    by_cases hq : r = q
    · simp [regsInsert, regsGet, hq]
    · simp [regsInsert, regsGet, hq, Ne.symm hq]
  | cons e l ih =>
    have he : e.1 ≠ r := h e (by simp)
    have hl : ∀ e ∈ l, e.1 ≠ r := fun x hx => h x (by simp [hx])
    unfold regsInsert
    split
    · by_cases hq : r = q
      · simp [regsGet, hq]
      · simp [regsGet, hq, Ne.symm hq]
    · by_cases hq : e.1 = q
      · have : q ≠ r := fun hr => he (hq.trans hr)
        simp [regsGet, hq, this]
      · simp [regsGet, hq, ih hl]

theorem regsGet_filter (r q : Reg) (l : List (Reg × Word)) :
    regsGet q (l.filter fun e => e.1 != r) = if q = r then q.resetValue else regsGet q l := by
  induction l with
  | nil => simp [regsGet]
  | cons e l ih =>
    by_cases he : e.1 = r
    · by_cases hq : q = r
      · simp [he, hq] at *
        exact ih
      · have : r ≠ q := fun h => hq h.symm
        simp [he, hq, ih, regsGet, this]
    · by_cases hq : e.1 = q
      · have : q ≠ r := fun h => he (hq.trans h)
        simp [regsGet, hq, this]
      · simp [he, regsGet, hq, ih]

/-- A word that has been put is read back, and every other word stays. -/
theorem regsGet_put (r q : Reg) (v : Word) (l : List (Reg × Word)) :
    regsGet q (regsPut r v l) = if q = r then v else regsGet q l := by
  unfold regsPut
  split
  · next hv => rw [regsGet_filter]; by_cases hq : q = r <;> simp [hq, hv]
  · rw [regsGet_insert _ _ _ _ (by simp), regsGet_filter]
    by_cases hq : q = r <;> simp [hq]

@[simp] theorem State.rd_wr (s : State) (r q : Reg) (v : Word) : (s.wr r v).rd q = if q = r then v else s.rd q :=
  regsGet_put r q v s.regs

theorem State.rd_congr {s t : State} (h : t.regs = s.regs) (r : Reg) : t.rd r = s.rd r := by simp [State.rd, h]

/-! ### Fields -/

theorem getLsbD_setBits (w : Word) (lo n v i : Nat) (h : lo + n ≤ 32) :
    (setBits w lo n v).getLsbD i = if lo ≤ i ∧ i < lo + n then v.testBit (i - lo) else w.getLsbD i := by
  unfold setBits fieldMask
  by_cases hi : i < 32
  · by_cases h1 : lo ≤ i
    · have h4 : i - lo < 32 := by omega
      have h5 : ¬ i < lo := by omega
      simp only [BitVec.getLsbD_or, BitVec.getLsbD_and, BitVec.getLsbD_not, BitVec.getLsbD_shiftLeft,
        BitVec.getLsbD_setWidth, BitVec.getLsbD_allOnes, BitVec.getLsbD_ofNat, hi, h1, h4, h5]
      by_cases h3 : i - lo < n
      · have h2 : i < lo + n := by omega
        simp [h3, h2]
      · have h2 : ¬ i < lo + n := by omega
        simp [h3, h2]
    · have h5 : i < lo := by omega
      simp [hi, h1, h5]
  · have h6 : ¬ (lo ≤ i ∧ i < lo + n) := by omega
    simp [hi, h6, BitVec.getLsbD_of_ge w i (by omega)]

theorem testBit_getBits (w : Word) (lo n j : Nat) : (getBits w lo n).testBit j = (decide (j < n) && w.getLsbD (lo + j)) := by
  simp [getBits, BitVec.extractLsb', BitVec.getLsbD]

@[simp] theorem getBits_setBits_self (w : Word) (lo n v : Nat) (h : lo + n ≤ 32) :
    getBits (setBits w lo n v) lo n = v % 2 ^ n := by
  apply Nat.eq_of_testBit_eq
  intro j
  rw [testBit_getBits, getLsbD_setBits _ _ _ _ _ h, Nat.testBit_mod_two_pow]
  by_cases hj : j < n <;> simp [hj]

theorem getBits_setBits_ne (w : Word) (lo n v lo' n' : Nat) (h : lo + n ≤ 32) (hd : lo + n ≤ lo' ∨ lo' + n' ≤ lo) :
    getBits (setBits w lo n v) lo' n' = getBits w lo' n' := by
  apply Nat.eq_of_testBit_eq
  intro j
  rw [testBit_getBits, testBit_getBits, getLsbD_setBits _ _ _ _ _ h]
  by_cases hj : j < n'
  · have : ¬ (lo ≤ lo' + j ∧ lo' + j < lo + n) := by omega
    simp [this]
  · simp [hj]

theorem State.rd_set (s : State) (f : Fld) (v : Nat) (q : Reg) :
    (s.set f v).rd q = if q = f.reg then setBits (s.rd f.reg) f.lo f.n v else s.rd q := by
  simp [State.set]

/-- A field that has been set is read back. -/
theorem State.get_set_self (s : State) (f : Fld) (v : Nat) (h : f.lo + f.n ≤ 32) : (s.set f v).get f = v % 2 ^ f.n := by
  simp [State.get, State.rd_set, getBits_setBits_self _ _ _ _ h]

/-- Fields of other words, and fields that do not meet the one set, stay. -/
theorem State.get_set_ne (s : State) (f g : Fld) (v : Nat) (h : f.lo + f.n ≤ 32)
    (hd : g.reg ≠ f.reg ∨ f.lo + f.n ≤ g.lo ∨ g.lo + g.n ≤ f.lo) : (s.set f v).get g = s.get g := by
  simp only [State.get, State.rd_set]
  split
  · next hr =>
    have : f.lo + f.n ≤ g.lo ∨ g.lo + g.n ≤ f.lo := by
      rcases hd with hd | hd
      · exact absurd hr hd
      · exact hd
    rw [getBits_setBits_ne _ _ _ _ _ _ h this, hr]
  · rfl

theorem State.rd_set_ne (s : State) (f : Fld) (v : Nat) (q : Reg) (h : q ≠ f.reg) : (s.set f v).rd q = s.rd q := by
  simp [State.rd_set, h]

/-! ### Events -/

theorem State.isPending_eq (s : State) (k : Nat) : s.isPending k = (s.rd (.EVT_PEND (k / 32))).getLsbD (k % 32) := by
  simp [State.isPending, bit, BitVec.getLsbD, Nat.testBit_eq_decide_div_mod_eq]
  cases Nat.mod_two_eq_zero_or_one ((s.rd (.EVT_PEND (k / 32))).toNat / 2 ^ (k % 32)) with
  | inl h => simp [h]
  | inr h => simp [h]

/-- An event that is raised becomes pending if its source lives, and no other event changes. -/
theorem State.isPending_raise (s : State) (k j : Nat) :
    (s.raise k).isPending j = (s.isPending j || (decide (j = k) && s.eventLive k)) := by
  unfold State.raise
  split
  · next h =>
    rw [isPending_eq, isPending_eq, State.rd_set]
    by_cases hw : j / 32 = k / 32
    · have hm : k % 32 < 32 := Nat.mod_lt _ (by decide)
      simp only [hw, if_true]
      rw [getLsbD_setBits _ _ _ _ _ (by omega)]
      by_cases hb : j % 32 = k % 32
      · have hj : j = k := by omega
        simp [hj, h]
      · have hj : j ≠ k := fun e => hb (by rw [e])
        have : ¬ (k % 32 ≤ j % 32 ∧ j % 32 < k % 32 + 1) := by omega
        rw [if_neg this]
        simp [hj]
    · have hj : j ≠ k := fun e => hw (by rw [e])
      simp [hw, hj]
  · next h => simp [h]

theorem State.rd_raise (s : State) (k : Nat) (q : Reg) (h : ∀ j, q ≠ .EVT_PEND j) : (s.raise k).rd q = s.rd q := by
  unfold State.raise
  split
  · exact State.rd_set_ne _ _ _ _ (h _)
  · rfl

theorem State.get_raise (s : State) (k : Nat) (f : Fld) (h : ∀ j, f.reg ≠ .EVT_PEND j) : (s.raise k).get f = s.get f := by
  simp [State.get, State.rd_raise s k f.reg h]

theorem State.rd_flag (s : State) (r : Reg) (b : Nat) (q : Reg) (h : ∀ j, q ≠ .EVT_PEND j) :
    (s.flag r b).rd q = if q = r then setBits (s.rd r) b 1 1 else s.rd q := by
  simp [State.flag, State.rd_raise _ _ _ h, State.rd_set]

theorem State.get_flag_self (s : State) (r : Reg) (b : Nat) (h : ∀ j, r ≠ .EVT_PEND j) (hb : b < 32) :
    (s.flag r b).get ⟨r, b, 1⟩ = 1 := by
  rw [State.flag, State.get_raise _ _ _ (by simpa using h), State.get_set_self _ _ _ (by simp; omega)]; rfl


theorem State.get_flag_ne (s : State) (r : Reg) (b : Nat) (g : Fld) (h : ∀ j, g.reg ≠ .EVT_PEND j) (hb : b < 32)
    (hd : g.reg ≠ r ∨ b + 1 ≤ g.lo ∨ g.lo + g.n ≤ b) : (s.flag r b).get g = s.get g := by
  rw [State.flag, State.get_raise _ _ _ h, State.get_set_ne _ _ _ _ (by simp; omega) (by simpa using hd)]

/-- Whether an event's source lives follows the role and the lamp geometry only. -/
theorem State.eventLive_congr {s t : State} (h1 : t.isTile = s.isTile) (h2 : t.rd .SCN_GEOM = s.rd .SCN_GEOM) (k : Nat) :
    t.eventLive k = s.eventLive k := by
  have hx : t.get F.SCN_GEOM_PXL = s.get F.SCN_GEOM_PXL := congrArg (fun w => getBits w 0 3) h2
  have hy : t.get F.SCN_GEOM_PYL = s.get F.SCN_GEOM_PYL := congrArg (fun w => getBits w 3 3) h2
  have : lampPortUsed t k = lampPortUsed s k := by rw [lampPortUsed, lampPortUsed, hx, hy]
  rw [State.eventLive, State.eventLive, h1, this]

/-! ### Frames -/

theorem Changes.refl (s : State) : Changes [] [] s s := ⟨rfl, fun _ _ _ _ => rfl, by simp⟩

theorem Changes.mono {fs fs' : List Fld} {ks ks' : List Nat} {s t : State} (h : Changes fs ks s t)
    (hf : ∀ f ∈ fs, f ∈ fs') (hk : ∀ k, k ∈ ks ↔ k ∈ ks') : Changes fs' ks' s t where
  rest := h.rest
  words := fun r i hr hi => h.words r i hr fun ⟨f, hm, hx⟩ => hi ⟨f, hf f hm, hx⟩
  events := fun k => by rw [h.events k]; simp [hk k]

/-- The role and the lamp geometry stay unless a field of them is listed. -/
theorem Changes.live {fs : List Fld} {ks : List Nat} {s t : State} (h : Changes fs ks s t)
    (hf : ∀ f ∈ fs, f.reg ≠ .BOT_STAT ∧ f.reg ≠ .SCN_GEOM) (k : Nat) : t.eventLive k = s.eventLive k := by
  have key : ∀ r, (∀ j, r ≠ .EVT_PEND j) → (∀ f ∈ fs, f.reg ≠ r) → t.rd r = s.rd r := by
    intro r hr hf
    apply BitVec.eq_of_getLsbD_eq
    intro i _
    exact h.words r i hr fun ⟨f, hm, hx, _⟩ => hf f hm hx
  apply State.eventLive_congr
  · simp [State.isTile, State.on, State.get, F.BOT_STAT_ROLE, key .BOT_STAT (by simp) fun f hm => (hf f hm).1]
  · exact key .SCN_GEOM (by simp) fun f hm => (hf f hm).2

theorem Changes.trans {fs gs : List Fld} {ks ls : List Nat} {s t u : State} (h : Changes fs ks s t)
    (h' : Changes gs ls t u) (hf : ∀ f ∈ fs, f.reg ≠ .BOT_STAT ∧ f.reg ≠ .SCN_GEOM) :
    Changes (fs ++ gs) (ks ++ ls) s u where
  rest := by rw [h'.rest, h.rest]
  words := fun r i hr hi => by
    rw [h'.words r i hr fun ⟨f, hm, hx⟩ => hi ⟨f, by simp [hm], hx⟩,
      h.words r i hr fun ⟨f, hm, hx⟩ => hi ⟨f, by simp [hm], hx⟩]
  events := fun k => by
    rw [h'.events k, h.events k, h.live hf k]
    by_cases h1 : k ∈ ks <;> by_cases h2 : k ∈ ls <;> cases s.eventLive k <;> simp [h1, h2]

theorem State.wr_changes (s : State) (r : Reg) (v : Word) (h : ∀ j, r ≠ .EVT_PEND j) :
    Changes [r.whole] [] s (s.wr r v) where
  rest := rfl
  words := fun q i _ hi => by
    rw [State.rd_wr]
    split
    · next hq =>
      subst hq
      by_cases h32 : i < 32
      · exact absurd ⟨_, List.mem_singleton.2 rfl, rfl, Nat.zero_le _, by simpa [Reg.whole] using h32⟩ hi
      · rw [BitVec.getLsbD_of_ge _ _ (by omega), BitVec.getLsbD_of_ge _ _ (by omega)]
    · rfl
  events := fun k => by simp [State.isPending, State.rd_wr, Ne.symm (h (k / 32))]

theorem State.set_changes (s : State) (f : Fld) (v : Nat) (h : ∀ j, f.reg ≠ .EVT_PEND j) (hn : f.lo + f.n ≤ 32) :
    Changes [f] [] s (s.set f v) where
  rest := rfl
  words := fun q i _ hi => by
    rw [State.rd_set]
    split
    · next hq =>
      subst hq
      have : ¬ (f.lo ≤ i ∧ i < f.lo + f.n) := fun hx => hi ⟨f, List.mem_singleton.2 rfl, rfl, hx⟩
      simp [getLsbD_setBits _ _ _ _ _ hn, this]
    · rfl
  events := fun k => by simp [State.isPending, State.rd_set, Ne.symm (h (k / 32))]

theorem State.raise_changes (s : State) (k : Nat) : Changes [] [k] s (s.raise k) where
  rest := by unfold State.raise; split <;> rfl
  words := fun r i hr _ => by rw [State.rd_raise _ _ _ hr]
  events := fun j => by
    rw [State.isPending_raise]
    by_cases h : j = k <;> simp [h]

theorem State.flag_changes (s : State) (r : Reg) (b : Nat) (h : ∀ j, r ≠ .EVT_PEND j) (hb : b < 32)
    (hr : r ≠ .BOT_STAT ∧ r ≠ .SCN_GEOM) : Changes [⟨r, b, 1⟩] [flagEvent r b] s (s.flag r b) :=
  (s.set_changes ⟨r, b, 1⟩ 1 h (by simp; omega)).trans (State.raise_changes _ _) (by simpa using hr)

theorem State.flagF_changes (s : State) (f : Fld) (h : ∀ j, f.reg ≠ .EVT_PEND j) (hb : f.lo < 32) (hn : f.n = 1)
    (hr : f.reg ≠ .BOT_STAT ∧ f.reg ≠ .SCN_GEOM) : Changes [f] [flagEvent f.reg f.lo] s (s.flagF f) := by
  have := State.flag_changes s f.reg f.lo h hb hr
  cases f; simp_all [State.flagF]

/-- A counter that has counted. -/
theorem State.count_changes (s : State) (f : Fld) (k : Nat) (h : ∀ j, f.reg ≠ .EVT_PEND j) (hn : f.lo + f.n ≤ 32) :
    Changes [f] [] s (s.count f k) := s.set_changes f _ h hn

end Sys2Proof.Machine
end

