-- ==== Sys2Proof/Laws/Cores.lean ====
section
/-! SUPPORT. The Hour cores: general registers, the core replaced, and what the end of an instruction does. -/

namespace Sys2Proof.Machine

@[simp] theorem Core.rg_zero (c : Core) : c.rg 0 = 0 := rfl

/-- R51: what is read after a general register is written. -/
theorem Core.rg_wg (c : Core) (r q : BitVec 5) (v : Word) :
    (c.wg r v).rg q = if q = 0 then 0 else if q = r then v else c.rg q := by
  by_cases hq : q = 0
  · subst hq; rfl
  · by_cases hr : r = 0
    · subst hr
      rw [if_neg hq, if_neg hq]; rfl
    · rw [if_neg hq]
      unfold Core.rg Core.wg
      rw [if_neg hq, if_neg hr]
      rw [Fin.getElem_fin, Vector.getElem_set]
      by_cases hqr : q = r
      · subst hqr; simp
      · have : ¬ r.toFin.val = q.toFin.val := fun h => hqr (BitVec.eq_of_toNat_eq h.symm)
        rw [if_neg this, if_neg hqr, if_neg hq]; rfl

@[simp] theorem Core.wg_pc (c : Core) (r : BitVec 5) (v : Word) : (c.wg r v).pc = c.pc := by unfold Core.wg; split <;> rfl
@[simp] theorem Core.wg_sup (c : Core) (r : BitVec 5) (v : Word) : (c.wg r v).sup = c.sup := by unfold Core.wg; split <;> rfl
@[simp] theorem Core.wg_haltReq (c : Core) (r : BitVec 5) (v : Word) : (c.wg r v).haltReq = c.haltReq := by
  unfold Core.wg; split <;> rfl
@[simp] theorem Core.wg_instret (c : Core) (r : BitVec 5) (v : Word) : (c.wg r v).instret = c.instret := by
  unfold Core.wg; split <;> rfl

/-- A write of a general register changes nothing else of the core. -/
theorem Core.wg_rest (c : Core) (r : BitVec 5) (v : Word) : c.wg r v = { c with g := (c.wg r v).g } := by
  unfold Core.wg
  split <;> rfl

@[simp] theorem State.core_setCore_self (s : State) (n : Fin 5) (c : Core) : (s.setCore n c).core n = c := by
  simp [State.core, State.setCore]

theorem State.core_setCore_ne (s : State) (n m : Fin 5) (c : Core) (h : m ≠ n) : (s.setCore n c).core m = s.core m := by
  have : ¬ n.val = m.val := fun e => h (Fin.ext e.symm)
  simp [State.core, State.setCore, this]

@[simp] theorem State.setCore_setCore (s : State) (n : Fin 5) (c d : Core) : (s.setCore n c).setCore n d = s.setCore n d := by
  simp [State.setCore]

@[simp] theorem State.coreState_setCore (s : State) (n m : Fin 5) (c : Core) :
    (s.setCore n c).coreState m = s.coreState m := rfl

theorem State.core_congr {s t : State} (h : t.cores = s.cores) (m : Fin 5) : t.core m = s.core m := by
  simp [State.core, h]

/-- A running core executes the instruction. -/
theorem State.runInstr_running (s : State) (n : Fin 5) (body : Core → Ends) (h : s.runs n) :
    s.runInstr n body = s.finish n (body (s.core n)) := by
  simp [State.runInstr, coreRunning, h.1, h.2.1]

/-- A running core of which no halt is asked goes on (R95). -/
theorem State.settle_running (s : State) (n : Fin 5) (h : s.coreState n = 1) (hq : (s.core n).haltReq = false) :
    s.settle n = s := by
  simp [State.settle, coreHalted, h, hq]

/-- A core that does not run executes nothing. -/
theorem State.runInstr_idle (s : State) (n : Fin 5) (body : Core → Ends) (h : s.coreState n ≠ 1) :
    s.runInstr n body = s := by
  simp [State.runInstr, coreRunning, h]

/-- What the end of an instruction does, by kind of end. -/
theorem State.finish_next (s s' : State) (n : Fin 5) (h : s'.coreState n = 1) (hq : (s'.core n).haltReq = false) :
    s.finish n (.next s') =
      s'.setCore n { s'.core n with pc := (s'.core n).pc + 4, instret := (s'.core n).instret + 1 } :=
  State.settle_running _ _ (by exact h) (by rw [State.close, State.retire, State.core_setCore_self]; exact hq)

theorem State.finish_jump_eq (s s' : State) (n : Fin 5) (pc : BitVec 40) (h : s'.coreState n = 1)
    (hq : (s'.core n).haltReq = false) :
    s.finish n (.jump s' pc) = s'.setCore n { s'.core n with pc := pc, instret := (s'.core n).instret + 1 } :=
  State.settle_running _ _ (by exact h) (by rw [State.close, State.retire, State.core_setCore_self]; exact hq)

/-- R71: a trap outside a trap. -/
theorem State.takeTrap_fresh (s : State) (n : Fin 5) (code detail : Nat) (h : (s.core n).inTrap = false) :
    s.takeTrap n code detail = (s.setCore n { s.core n with
      epc := (s.core n).pc, causeCode := BitVec.ofNat 8 code, causeDetail := BitVec.ofNat 8 detail,
      psup := (s.core n).sup, sup := true, inTrap := true, pc := (s.core n).tvec, wait := none }).set
        (F.HRC_STAT_STATE n) 1 := by
  simp [State.takeTrap, h, coreRunning]

/-- R73: a trap inside a trap halts the core. -/
theorem State.takeTrap_double (s : State) (n : Fin 5) (code detail : Nat) (h : (s.core n).inTrap = true) :
    s.takeTrap n code detail = (s.set (F.HRC_STAT_DTCODE n) code).haltCore n 3 (s.core n).pc := by
  simp [State.takeTrap, h]

/-- An instruction whose only effect is a result in a general register. -/
theorem State.finish_result (s : State) (n : Fin 5) (gd : BitVec 5) (v : Word) (h : s.runs n) :
    CoreWrites n (oneReg gd v) s (s.finish n (resultIn s n gd v)) := by
  rw [resultIn, State.finish_next _ _ _ (by exact h.1) (by rw [State.core_setCore_self, Core.wg_haltReq]; exact h.2.2)]
  refine ⟨rfl, fun m hm => ?_, ?_, fun r => ?_⟩
  · rw [State.core_setCore_ne _ _ _ _ hm, State.core_setCore_ne _ _ _ _ hm]
  · simp only [State.core_setCore_self, Core.wg_pc, Core.wg_instret]
    unfold Core.wg
    split <;> rfl
  · simp only [State.core_setCore_self]
    have : ∀ (c : Core) (p : BitVec 40) (i : BitVec 64), Core.rg { c with pc := p, instret := i } r = c.rg r := fun _ _ _ => rfl
    rw [this, Core.rg_wg]
    by_cases h : r = gd <;> simp [oneReg, h]

/-- An instruction that goes on elsewhere after its pair has been written. -/
theorem State.finish_jump (s : State) (n : Fin 5) (pc : BitVec 40) (h : s.runs n) :
    CoreJumps n pc noReg s (s.finish n (.jump s pc)) := by
  rw [State.finish_jump_eq _ _ _ _ h.1 h.2.2]
  refine ⟨rfl, fun m hm => State.core_setCore_ne _ _ _ _ hm, by simp, fun r => ?_⟩
  simp only [State.core_setCore_self]
  by_cases h : r = 0
  · subst h; rfl
  · rw [if_neg h]; rfl

/-- An instruction that changes nothing but the program counter. -/
theorem State.finish_plain (s : State) (n : Fin 5) (h : s.runs n) : CoreWrites n noReg s (s.finish n (.next s)) := by
  rw [State.finish_next _ _ _ h.1 h.2.2]
  refine ⟨rfl, fun m hm => State.core_setCore_ne _ _ _ _ hm, by simp, fun r => ?_⟩
  simp only [State.core_setCore_self]
  by_cases h : r = 0
  · subst h; rfl
  · rw [if_neg h]; rfl

/-- R52: what is read after a pair is written. -/
theorem Core.rg_setPair (c : Core) (r q : BitVec 5) (v : BitVec 64) :
    (c.setPair r v).rg q =
      if q = 0 then 0 else if q = r + 1 then v.extractLsb' 32 32 else if q = r then v.extractLsb' 0 32 else c.rg q := by
  unfold Core.setPair
  rw [Core.rg_wg]
  by_cases h0 : q = 0
  · simp [h0]
  · rw [if_neg h0, if_neg h0, Core.rg_wg, if_neg h0]

theorem Core.setPair_rest (c : Core) (r : BitVec 5) (v : BitVec 64) : c.setPair r v = { c with g := (c.setPair r v).g } := by
  unfold Core.setPair
  rw [Core.wg_rest (c.wg r (v.extractLsb' 0 32)) (r + 1), Core.wg_rest c r]

/-- A field set to the value it has changes nothing. -/
theorem setBits_same (w : Word) (lo n : Nat) (h : lo + n ≤ 32) : setBits w lo n (getBits w lo n) = w := by
  apply BitVec.eq_of_getLsbD_eq
  intro i hi
  rw [getLsbD_setBits _ _ _ _ _ h]
  split
  · next hx =>
    rw [testBit_getBits]
    have h1 : i - lo < n := by omega
    have h2 : lo + (i - lo) = i := by omega
    simp [h1, h2]
  · rfl

theorem State.rd_set_same (s : State) (f : Fld) (v : Nat) (h : s.get f = v) (hf : f.lo + f.n ≤ 32) (r : Reg) :
    (s.set f v).rd r = s.rd r := by
  rw [State.rd_set]
  split
  · next hr => rw [hr, ← h, State.get, setBits_same _ _ _ hf]
  · rfl

/-- R71: a running core that is in no trap enters the trap. -/
theorem State.trapEntered (s : State) (n : Fin 5) (code detail : Nat) (h : (s.core n).inTrap = false)
    (hr : s.coreState n = 1) : TrapEntered n code detail s (s.takeTrap n code detail) := by
  rw [State.takeTrap_fresh s n code detail h]
  refine ⟨rfl, ?_, ?_, ?_⟩
  · intro r
    rw [State.rd_set_same _ _ _ (by exact hr) (by simp [F.HRC_STAT_STATE])]
    rfl
  · intro m hm
    rw [State.core_congr (State.set_cores _ _ _), State.core_setCore_ne _ _ _ _ hm]
  · rw [State.core_congr (State.set_cores _ _ _), State.core_setCore_self]

/-- R73: a trap inside a trap. -/
theorem State.doubleTrap (s : State) (n : Fin 5) (code detail : Nat) (h : (s.core n).inTrap = true) (hc : code < 256) :
    DoubleTrap n code s (s.takeTrap n code detail) := by
  rw [State.takeTrap_double s n code detail h]
  have hwr : ∀ (u : State) (r : Reg) (v : Word), (∀ j, r ≠ .EVT_PEND j) → Changes [r.whole] [] u (u.wr r v) :=
    fun u r v hr => u.wr_changes r v hr
  have e : (s.set (F.HRC_STAT_DTCODE n) code).haltCore n 3 (s.core n).pc =
      State.haltNotice ((((({ s with cores := s.cores.set n { s.core n with wait := none, haltReq := false } }.set
        (F.HRC_STAT_DTCODE n) code).set (F.HRC_STAT_STATE n) 0).set (F.HRC_STAT_HCAUSE n) 3).wr (.HRC_PCLO n)
        ((s.core n).pc.extractLsb' 0 32)).wr (.HRC_PCHI n) (((s.core n).pc.extractLsb' 32 8).setWidth 32)) n := rfl
  rw [e]
  generalize hu : ({ s with cores := s.cores.set n { s.core n with wait := none, haltReq := false } } : State) = u
  have hcfg : ∀ r, u.rd r = s.rd r := fun r => by subst hu; rfl
  have hcores : u.cores = s.cores.set n { s.core n with wait := none, haltReq := false } := by subst hu; rfl
  have hself : ({ s with cores := u.cores } : State) = u := by subst hu; rfl
  generalize hw : ((((u.set (F.HRC_STAT_DTCODE n) code).set (F.HRC_STAT_STATE n) 0).set (F.HRC_STAT_HCAUSE n) 3).wr
    (.HRC_PCLO n) ((s.core n).pc.extractLsb' 0 32)).wr (.HRC_PCHI n) (((s.core n).pc.extractLsb' 32 8).setWidth 32) = w
  have hch : Changes [F.HRC_STAT_DTCODE n, F.HRC_STAT_STATE n, F.HRC_STAT_HCAUSE n, (Reg.HRC_PCLO n).whole,
      (Reg.HRC_PCHI n).whole] [] u w := by
    subst hw
    refine (((((u.set_changes _ code ?_ ?_).trans (State.set_changes _ _ 0 ?_ ?_) ?_).trans
      (State.set_changes _ _ 3 ?_ ?_) ?_).trans (hwr _ _ _ ?_) ?_).trans (hwr _ _ _ ?_) ?_) <;>
      simp [F.HRC_STAT_DTCODE, F.HRC_STAT_STATE, F.HRC_STAT_HCAUSE, Reg.whole]
  have hwcfg : ∀ r, r ≠ .HRC_STAT n → r ≠ .HRC_PCLO n → r ≠ .HRC_PCHI n → w.rd r = s.rd r := by
    intro r h1 h2 h3
    subst hw
    simp [State.rd_set, h1, h2, h3, hcfg, F.HRC_STAT_DTCODE, F.HRC_STAT_STATE, F.HRC_STAT_HCAUSE]
  have hwcores : w.cores = u.cores := by subst hw; simp
  have hget : ∀ f : Fld, (∀ j, f.reg ≠ .EVT_PEND j) → (w.haltNotice n).get f = w.get f := by
    intro f hf
    unfold State.haltNotice
    split
    · exact State.get_raise _ _ _ hf
    · rfl
  have hrd : ∀ r, (∀ j, r ≠ .EVT_PEND j) → (w.haltNotice n).rd r = w.rd r := by
    intro r hr
    unfold State.haltNotice
    split
    · exact State.rd_raise _ _ _ hr
    · rfl
  have hnc : (w.haltNotice n).cores = u.cores := by
    unfold State.haltNotice
    split <;> simp [hwcores]
  have hon : w.on (F.HRC_CFG_HEVEN n) = s.on (F.HRC_CFG_HEVEN n) := by
    simp only [State.on, State.get, hwcfg (F.HRC_CFG_HEVEN n).reg (by simp [F.HRC_CFG_HEVEN]) (by simp [F.HRC_CFG_HEVEN])
      (by simp [F.HRC_CFG_HEVEN])]
  have hevt : w.get (F.HRC_CFG_HEVT n) = s.get (F.HRC_CFG_HEVT n) := by
    simp only [State.get, hwcfg (F.HRC_CFG_HEVT n).reg (by simp [F.HRC_CFG_HEVT]) (by simp [F.HRC_CFG_HEVT])
      (by simp [F.HRC_CFG_HEVT])]
  refine ⟨?_, ?_, ?_, ?_, ?_, ?_, ?_, ?_⟩
  · rw [hnc, hself]
    have hn : Changes [] (if s.on (F.HRC_CFG_HEVEN n) then [480 + s.get (F.HRC_CFG_HEVT n)] else []) w (w.haltNotice n) := by
      unfold State.haltNotice
      rw [hon, hevt]
      split
      · exact State.raise_changes _ _
      · exact Changes.refl _
    refine (hch.trans hn ?_).mono ?_ ?_
    · simp [F.HRC_STAT_DTCODE, F.HRC_STAT_STATE, F.HRC_STAT_HCAUSE, Reg.whole]
    · intro f hf
      simp only [List.append_nil, List.mem_cons, List.not_mem_nil, or_false] at hf ⊢
      rcases hf with h | h | h | h | h <;> simp [h]
    · simp
  · rw [hget _ (by simp [F.HRC_STAT_STATE])]
    subst hw
    simp [State.get, State.rd_set, F.HRC_STAT_DTCODE, F.HRC_STAT_STATE, F.HRC_STAT_HCAUSE, getBits_setBits_ne]
  · rw [hget _ (by simp [F.HRC_STAT_HCAUSE])]
    subst hw
    simp [State.get, State.rd_set, F.HRC_STAT_DTCODE, F.HRC_STAT_STATE, F.HRC_STAT_HCAUSE, getBits_setBits_ne]
  · rw [hget _ (by simp [F.HRC_STAT_DTCODE])]
    subst hw
    simp [State.get, State.rd_set, F.HRC_STAT_DTCODE, F.HRC_STAT_STATE, F.HRC_STAT_HCAUSE, getBits_setBits_ne, hc,
      Nat.mod_eq_of_lt]
  · rw [hrd _ (by simp)]
    subst hw; simp
  · rw [hrd _ (by simp)]
    subst hw; simp
  · intro m hm
    have hne : ¬ n.val = m.val := fun h => hm (Fin.ext h.symm)
    rw [State.core, hnc, hcores]
    simp [hne, State.core]
  · rw [State.core, hnc, hcores]
    simp

/-- R71: a trap outside a trap leaves the core running, with the halt request it had. -/
theorem State.settle_trap (s : State) (n : Fin 5) (code detail : Nat) (h : (s.core n).inTrap = false)
    (hq : (s.core n).haltReq = false) : (s.takeTrap n code detail).settle n = s.takeTrap n code detail := by
  rw [State.takeTrap_fresh s n code detail h]
  refine State.settle_running _ _ ?_ ?_
  · exact State.get_set_self _ _ _ (by simp [F.HRC_STAT_STATE])
  · rw [State.core_congr (State.set_cores _ _ _), State.core_setCore_self]
    exact hq

/-- R97: a halted core's PC words hold its resume address. -/
theorem State.settle_halted (s : State) (n : Fin 5) (h : s.coreState n = 0) :
    s.settle n = s.setResume n (s.core n).pc := by
  simp [State.settle, coreHalted, h]

theorem State.setResume_changes (s : State) (n : Fin 5) (pc : BitVec 40) :
    Changes [(Reg.HRC_PCLO n).whole, (Reg.HRC_PCHI n).whole] [] s (s.setResume n pc) := by
  unfold State.setResume
  exact (s.wr_changes _ _ (by simp)).trans (State.wr_changes _ _ _ (by simp)) (by simp [Reg.whole])

/-- R73, R97: the end of the instruction leaves the halt of a double trap as it is. -/
theorem DoubleTrap.settle {n : Fin 5} {code : Nat} {s t : State} (h : DoubleTrap n code s t) :
    DoubleTrap n code s (t.settle n) := by
  have hpc : (t.core n).pc = (s.core n).pc := by rw [h.core]
  rw [State.settle_halted t n h.state, hpc]
  have hc : (t.setResume n (s.core n).pc).cores = t.cores := by simp [State.setResume]
  have hg : ∀ f : Fld, f.reg = .HRC_STAT n → (t.setResume n (s.core n).pc).get f = t.get f := by
    intro f hf
    simp [State.get, State.setResume, hf]
  refine ⟨?_, ?_, ?_, ?_, ?_, ?_, ?_, ?_⟩
  · rw [hc]
    refine (h.frame.trans (State.setResume_changes t n _)
      (by simp [Reg.whole, F.HRC_STAT_STATE, F.HRC_STAT_HCAUSE, F.HRC_STAT_DTCODE])).mono ?_ ?_
    · intro f hf
      simp only [List.cons_append, List.nil_append, List.mem_cons, List.not_mem_nil, or_false] at hf ⊢
      rcases hf with h | h | h | h | h | h | h <;> simp [h]
    · simp
  · exact (hg _ rfl).trans h.state
  · exact (hg _ rfl).trans h.cause
  · exact (hg _ rfl).trans h.code
  · simp [State.setResume]
  · simp [State.setResume]
  · intro m hm
    rw [State.core_congr hc]
    exact h.others m hm
  · rw [State.core_congr hc]
    exact h.core

/-- R71, R73: what a trap of a running core does. -/
theorem State.trapTaken (s : State) (n : Fin 5) (code detail : Nat) (hr : s.coreState n = 1) (hc : code < 256) :
    TrapTaken n code detail s (s.takeTrap n code detail) := by
  unfold TrapTaken
  split
  · next h => exact State.doubleTrap s n code detail h hc
  · next h => exact State.trapEntered s n code detail (by simpa using h) hr

/-- R71, R73: an instruction that ends in a trap. -/
theorem State.finish_trap (s : State) (n : Fin 5) (code detail : Nat) (h : s.runs n) (hc : code < 256) :
    TrapTaken n code detail s (s.finish n (.trap code detail)) := by
  have ht := State.trapTaken s n code detail h.1 hc
  unfold State.finish State.close
  unfold TrapTaken at ht ⊢
  split at ht
  · next hi => rw [if_pos hi]; exact ht.settle
  · next hi => rw [if_neg hi]; dsimp only; rw [State.settle_trap s n code detail (by simpa using hi) h.2.2]; exact ht

end Sys2Proof.Machine
end

