-- ==== Sys2Proof/Laws/Memory.lean ====
section
/-! SUPPORT. The memories: what is read after a write, and that every operation on them keeps the canonical form. -/

namespace Sys2Proof.Machine

/-- Every listed address is above a bound. -/
def Memory.above (a : Nat) (m : List Host.Cell) : Prop := ∀ c ∈ m, a < c.1

theorem Memory.wf_cons (c : Host.Cell) (m : List Host.Cell) :
    Memory.wf (c :: m) = true ↔ c.2 ≠ 0 ∧ Memory.above c.1 m ∧ Memory.wf m = true := by
  induction m generalizing c with
  | nil => simp [Memory.wf, Memory.above]
  | cons d m ih =>
    have := ih d
    simp only [Memory.wf, Bool.and_eq_true, decide_eq_true_eq] at *
    constructor
    · rintro ⟨⟨h1, h2⟩, h3⟩
      refine ⟨h1, ?_, h3⟩
      intro x hx
      rcases List.mem_cons.1 hx with h | h
      · rw [h]; exact h2
      · exact Nat.lt_trans h2 ((this.1 h3).2.1 x h)
    · rintro ⟨h1, h2, h3⟩
      exact ⟨⟨h1, h2 d (by simp)⟩, h3⟩

theorem Memory.above_write {a : Nat} (m : List Host.Cell) (b : Nat) (v : Byte) (hm : Memory.above a m) (hb : a < b) :
    Memory.above a (Memory.write m b v) := by
  induction m with
  | nil =>
    unfold Memory.write
    split <;> simp [Memory.above, hb]
  | cons c m ih =>
    have hc : a < c.1 := hm c (by simp)
    have ht : Memory.above a m := fun x hx => hm x (by simp [hx])
    unfold Memory.write
    split
    · split
      · exact hm
      · intro x hx
        rcases List.mem_cons.1 hx with h | h
        · rw [h]; exact hb
        · exact hm x h
    · split
      · split
        · exact ht
        · intro x hx
          rcases List.mem_cons.1 hx with h | h
          · rw [h]; exact hb
          · exact ht x h
      · intro x hx
        rcases List.mem_cons.1 hx with h | h
        · rw [h]; exact hc
        · exact ih ht x h

/-- A write of one byte keeps the canonical form. -/
theorem Memory.wf_write (m : List Host.Cell) (a : Nat) (v : Byte) (h : Memory.wf m = true) :
    Memory.wf (Memory.write m a v) = true := by
  induction m with
  | nil =>
    unfold Memory.write
    split
    · rfl
    · next hv => simpa [Memory.wf] using hv
  | cons c m ih =>
    obtain ⟨h1, h2, h3⟩ := (Memory.wf_cons c m).1 h
    unfold Memory.write
    split
    · next hlt =>
      split
      · exact h
      · next hv =>
        refine (Memory.wf_cons _ _).2 ⟨hv, ?_, h⟩
        intro x hx
        rcases List.mem_cons.1 hx with e | e
        · rw [e]; exact hlt
        · exact Nat.lt_trans hlt (h2 x e)
    · next hge =>
      split
      · next he =>
        split
        · exact h3
        · next hv => exact (Memory.wf_cons _ _).2 ⟨hv, fun x hx => by simpa [he] using h2 x hx, h3⟩
      · next hne => exact (Memory.wf_cons _ _).2 ⟨h1, Memory.above_write m a v h2 (by omega), ih h3⟩

/-- A write of bytes keeps the canonical form. -/
theorem Memory.wf_writeBytes (l : List Byte) (m : List Host.Cell) (a : Nat) (h : Memory.wf m = true) :
    Memory.wf (Memory.writeBytes m a l) = true := by
  induction l generalizing m a with
  | nil => exact h
  | cons b l ih => exact ih _ _ (Memory.wf_write m a b h)

/-- Clearing some addresses keeps the canonical form. -/
theorem Memory.wf_filter (m : List Host.Cell) (p : Host.Cell → Bool) (h : Memory.wf m = true) :
    Memory.wf (m.filter p) = true := by
  induction m with
  | nil => rfl
  | cons c m ih =>
    obtain ⟨h1, h2, h3⟩ := (Memory.wf_cons c m).1 h
    by_cases hp : p c
    · rw [List.filter_cons_of_pos hp]
      exact (Memory.wf_cons _ _).2 ⟨h1, fun x hx => h2 x (List.mem_filter.1 hx).1, ih h3⟩
    · rw [List.filter_cons_of_neg hp]
      exact ih h3

theorem Memory.read_above (m : List Host.Cell) (a : Nat) (h : Memory.above a m) : Memory.read m a = 0 := by
  cases m with
  | nil => rfl
  | cons c m =>
    have : a < c.1 := h c (by simp)
    simp [Memory.read, this, Nat.ne_of_gt this]

/-- A byte that has been written is read back, and every other byte stays. -/
theorem Memory.read_write (m : List Host.Cell) (a b : Nat) (v : Byte) (h : Memory.wf m = true) :
    Memory.read (Memory.write m a v) b = if b = a then v else Memory.read m b := by
  induction m with
  | nil =>
    unfold Memory.write
    split
    · next hv => simp [Memory.read, hv]
    · by_cases hb : b = a
      · simp [Memory.read, hb]
      · simp [Memory.read, hb, Ne.symm hb]
  | cons c m ih =>
    obtain ⟨h1, h2, h3⟩ := (Memory.wf_cons c m).1 h
    unfold Memory.write
    split
    · next hlt =>
      split
      · next hv =>
        by_cases hb : b = a
        · have : b < c.1 := by omega
          simp [Memory.read, hb, hv, hlt, Nat.ne_of_gt hlt]
        · simp [hb]
      · by_cases hb : b = a
        · simp [Memory.read, hb]
        · by_cases hba : b < a
          · have : b < c.1 := by omega
            simp [Memory.read, hb, Ne.symm hb, hba, this, Nat.ne_of_gt this]
          · simp [Memory.read, hb, Ne.symm hb, hba]
    · next hge =>
      split
      · next he =>
        have hab : Memory.above a m := fun x hx => by simpa [he] using h2 x hx
        split
        · next hv =>
          by_cases hb : b = a
          · simp [hb, hv, Memory.read_above m a hab]
          · by_cases hba : b < a
            · have : Memory.above b m := fun x hx => Nat.lt_trans hba (hab x hx)
              simp [hb, Memory.read_above m b this, Memory.read, he, Ne.symm hb, hba]
            · simp [hb, Memory.read, he, Ne.symm hb, hba]
        · by_cases hb : b = a
          · simp [Memory.read, hb]
          · simp [Memory.read, hb, he, Ne.symm hb]
      · next hne =>
        by_cases hb : b = c.1
        · have : b ≠ a := by omega
          simp [Memory.read, ← hb, this]
        · by_cases hbc : b < c.1
          · have : b ≠ a := by omega
            simp [Memory.read, Ne.symm hb, hbc, this]
          · simp [Memory.read, Ne.symm hb, hbc, ih h3]

/-- Bytes that have been written are read back, and every byte outside them stays. -/
theorem Memory.read_writeBytes (l : List Byte) (m : List Host.Cell) (a b : Nat) (h : Memory.wf m = true) :
    Memory.read (Memory.writeBytes m a l) b = if a ≤ b ∧ b < a + l.length then l.getD (b - a) 0 else Memory.read m b := by
  induction l generalizing m a with
  | nil =>
    have : ¬ (a ≤ b ∧ b < a) := by omega
    simp [Memory.writeBytes, this]
  | cons v l ih =>
    rw [Memory.writeBytes, ih _ _ (Memory.wf_write m a v h), Memory.read_write m a b v h]
    by_cases hb : b = a
    · have h1 : ¬ (a + 1 ≤ b ∧ b < a + 1 + l.length) := by omega
      rw [if_neg h1, if_pos (by omega : b = a), if_pos (by simp; omega)]
      simp [hb]
    · by_cases h1 : a + 1 ≤ b ∧ b < a + 1 + l.length
      · have h2 : a ≤ b ∧ b < a + (l.length + 1) := by omega
        have h3 : b - a = (b - (a + 1)) + 1 := by omega
        simp [h1, h2, h3]
      · rw [if_neg h1, if_neg hb, if_neg (by rw [List.length_cons]; omega)]

/-- Bytes written are read back. -/
theorem Memory.readBytes_writeBytes (l : List Byte) (m : List Host.Cell) (a : Nat) (h : Memory.wf m = true) :
    Memory.readBytes (Memory.writeBytes m a l) a l.length = l := by
  refine List.ext_getElem (by simp [Memory.readBytes]) fun i h1 h2 => ?_
  have h3 : i < l.length := h2
  simp [Memory.readBytes, Memory.read_writeBytes _ _ _ _ h, h3]

/-! ### The operations of the state -/

theorem State.putBytes_wf (s : State) (a : Nat) (l : List Byte) (h : Memory.wf s.mem = true) :
    Memory.wf (s.putBytes a l).mem = true := Memory.wf_writeBytes l s.mem a h

/-- The read of a word changes no memory. -/
theorem State.readWord_mem (s : State) (w : Nat) : (s.readWord w).mem = s.mem := by
  unfold State.readWord
  dsimp only
  split
  · split <;> simp
  · split
    · split
      · unfold State.corrected
        dsimp only
        split <;> simp
      · simp
    · rfl

theorem State.putWord_wf (s : State) (w a : Nat) (l : List Byte) (h : Memory.wf s.mem = true) :
    Memory.wf (s.putWord w a l).mem = true := by
  have hr : Memory.wf (s.readWord w).mem = true := by rw [State.readWord_mem]; exact h
  unfold State.putWord
  split
  · exact h
  · split
    · exact State.putBytes_wf s a l h
    · split
      · exact hr
      · exact State.putBytes_wf _ a l hr

theorem State.setSr_mem (s : State) (v : Nat) : (s.setSr v).mem = s.mem := by
  unfold State.setSr
  split <;> simp

theorem State.touchDram_mem (s : State) : s.touchDram.mem = s.mem := by
  unfold State.touchDram
  dsimp only
  split <;> simp [State.setSr_mem]

/-- A fold keeps what each of its steps keeps. -/
theorem foldl_keeps {α σ : Type} (P : σ → Prop) (f : σ → α → σ) (l : List α) (s : σ) (h : P s)
    (hf : ∀ s a, P s → P (f s a)) : P (l.foldl f s) := by
  induction l generalizing s with
  | nil => exact h
  | cons a l ih => exact ih _ (hf _ _ h)

/-- A store keeps the canonical form. -/
theorem State.store_wf (s : State) (a : Nat) (l : List Byte) (h : Memory.wf s.mem = true) :
    Memory.wf (s.store a l).mem = true := by
  have h' : Memory.wf (if inDram a then s.touchDram else s).mem = true := by
    split
    · rw [State.touchDram_mem]; exact h
    · exact h
  unfold State.store
  split
  · exact h
  · generalize (if inDram a then s.touchDram else s) = u at h'
    dsimp only
    split
    · exact State.putBytes_wf _ _ _ h'
    · exact foldl_keeps (fun t : State => Memory.wf t.mem = true) _ _ _ h' fun t w ht => State.putWord_wf t w _ _ ht

theorem State.readEffects_mem (s : State) (a n : Nat) : (s.readEffects a n).mem = s.mem := by
  unfold State.readEffects
  refine foldl_keeps (fun t : State => t.mem = s.mem) _ _ _ ?_ ?_
  · split
    · exact State.touchDram_mem s
    · rfl
  · intro t w ht
    rw [State.readWord_mem]
    exact ht

/-- A read changes no memory. -/
theorem State.load_mem (s : State) (a n : Nat) : (s.load a n).2.mem = s.mem := by
  unfold State.load
  split
  · dsimp only
    split <;> exact State.readEffects_mem s a n
  · split <;> rfl

end Sys2Proof.Machine
end

