-- ==== Sys2Proof/Tests/Slice0.lean ====
section
/-! SUPPORT. The model's own tests: the smoke test of well-formedness, one step of commands with the values that the
rules give, and for each statement with hypotheses a concrete state that meets them. -/

namespace Sys2Proof.Tests

open Sys2Proof.Machine

set_option Elab.async false

/-- The state right after reset with some fields changed. -/
def put (l : List (Fld × Nat)) (s : State := State.reset) : State := l.foldl (fun s e => s.set e.1 e.2) s

/-- A part in tile role. -/
def tile : State := put [(F.BOT_STAT_ROLE, 1)]

/-- A core changed. -/
def onCore (n : Fin 5) (f : Core → Core) (s : State := State.reset) : State := s.setCore n (f (s.core n))

/-- General registers of HC0 set. -/
def gregs (l : List (BitVec 5 × Word)) (s : State := State.reset) : State :=
  onCore 0 (fun c => l.foldl (fun c e => c.wg e.1 e.2) c) s

/-- HC0 in user mode. -/
def user (s : State := State.reset) : State := onCore 0 (fun c => { c with sup := false }) s

/-- What a state answers to a command, read by a function; 0 where it answers none. -/
def after (c : Instr) (s : State) (f : State → Nat) : Nat := match exec c s with
  | .next t => f t
  | _ => 0

/-- A general register of HC0 after a command. -/
def greg (c : Instr) (s : State) (r : BitVec 5) : Nat := after c s fun t => ((t.core 0).rg r).toNat

/-- The trap code and detail of HC0 after a command, and the pc it goes on at. -/
def trapOf (c : Instr) (s : State) : Nat × Nat × Nat :=
  (after c s fun t => (t.core 0).causeCode.toNat, after c s fun t => (t.core 0).causeDetail.toNat,
    after c s fun t => (t.core 0).pc.toNat)

/-! ### Well-formedness -/

/-- Each check of WellFormed refuses an ill-formed command. -/
theorem test_wellFormed_refuses :
    Instr.wellFormed (.qspiUnknownCommand 0x05) = false
    ∧ Instr.wellFormed (.hostRead .qspi 0 false (2 ^ 32) 0) = false
    ∧ Instr.wellFormed (.hostWrite .qspi 0 false (2 ^ 64) [0]) = false
    ∧ Instr.wellFormed (.hostFill .qspi 0 false 4 (2 ^ 64) 0) = false
    ∧ Instr.wellFormed (.doorbell .qspi 0 (2 ^ 64) 0) = false
    ∧ Instr.wellFormed (.token 0 ⟨1, 0, 0, 0, 0, 0, []⟩) = false
    ∧ Instr.wellFormed (.msgCell 0 ⟨0, 0, false, false, [0, 0, 0]⟩) = false
    ∧ Instr.wellFormed (.pictureRun 0 0 0 0 []) = false
    ∧ Instr.wellFormed (.hostrec [0, 0]) = false
    ∧ Instr.wellFormed (.ckdata 0 0 []) = false
    ∧ Instr.wellFormed (.fwd 0 false []) = false
    ∧ Instr.wellFormed (.senseSample [0] 0) = false
    ∧ Instr.wellFormed (.slowRound [] []) = false
    ∧ Instr.wellFormed (.colourSensorStop []) = false
    ∧ Instr.wellFormed (.sdCardDetect (some ⟨1, false, false, [(512, 1)]⟩)) = false := by decide +kernel

theorem test_wellFormed_refuses_requests :
    Instr.wellFormed (.wallRead 0 ⟨0, 0, 0, 257, 0, [], 0⟩) = false
    ∧ Instr.wellFormed (.wallWrite 0 ⟨0, 0, 0, 1, 0, [0, 0, 0], 0⟩) = false
    ∧ Instr.wellFormed (.wallFill 0 ⟨0, 0, 0, 0, 0, [], 0⟩) = false
    ∧ Instr.wellFormed (.probe 0 ⟨0, 0, 0, 0, 4, [], 0⟩) = false
    ∧ Instr.wellFormed (.wallResponse 0 ⟨0, 0, 0, 0, 1, 0, []⟩) = false := by decide +kernel

theorem test_wellFormed_refuses_payload (payload : List Byte) (h : payload.length = 2 ^ 32) :
    Instr.wellFormed (.leaseResponse .qspi 0 payload) = false := by
  simp [Instr.wellFormed, h]

/-! ### Hour cores -/

/-- HC0 with a number of operands. -/
def arith : State := gregs [(2, 0x80000000), (4, 0xFFFFFFFF), (6, 7), (8, 0)]

theorem test_add_wraps : greg (.add 0 1 2 2) arith 1 = 0 := by decide +kernel
theorem test_mulh_signed : greg (.mulh 0 1 4 6) arith 1 = 0xFFFFFFFF := by decide +kernel
theorem test_sra_fills : greg (.srai 0 1 2 31) arith 1 = 0xFFFFFFFF := by decide +kernel
theorem test_addi_sign_extends : greg (.addi 0 1 6 0xFFFF) arith 1 = 6 := by decide +kernel
theorem test_ori_zero_extends : greg (.ori 0 1 8 0xFFFF) arith 1 = 0xFFFF := by decide +kernel
theorem test_g0_discards : greg (.add 0 0 6 6) arith 0 = 0 := by decide +kernel
theorem test_div_most_negative : greg (.div 0 1 2 4) arith 1 = 0x80000000 ∧ greg (.rem 0 1 2 4) arith 1 = 0 := by decide +kernel
theorem test_rem_sign_of_dividend : greg (.rem 0 1 4 6) arith 1 = 0xFFFFFFFF := by decide +kernel
theorem test_divide_by_zero_traps : trapOf (.divu 0 1 6 8) arith = (6, 0, 0xFFFFFF0040) := by decide +kernel

theorem witness_ArithmeticInstructionsWriteTheirResults :
    arith.coreState 0 = 1 ∧ arith.coresLive = true ∧ (arith.core 0).haltReq = false ∧ (arith.core 0).rg 6 ≠ 0 ∧ (arith.core 0).rg 2 = 0x80000000
    ∧ (arith.core 0).rg 4 = 0xFFFFFFFF ∧ (arith.core 0).rg 8 = 0 := by decide +kernel

/-- HC0 at an address of its local memory. -/
def atPc (pc : BitVec 40) : State := onCore 0 (fun c => { c with pc := pc }) arith

theorem test_branch_back : after (.breq 0 6 6 0x1FFF) (atPc 0xE000000008) (fun t => (t.core 0).pc.toNat) = 0xE000000004 := by
  decide +kernel
theorem test_jalr_no_wrap : (trapOf (.jalr 0 4 2 2) (gregs [(2, 0xFFFFFFFC), (3, 0xFFFFFFFF)])).1 = 3 := by decide +kernel
theorem test_jal_links : greg (.jal 0 4) (atPc 0xE000000008) 30 = 0x0000000C ∧ greg (.jal 0 4) (atPc 0xE000000008) 31 = 0xE0 := by
  decide +kernel

theorem witness_BranchesAndJumpsReachTheirTargets :
    (atPc 0).coreState 0 = 1 ∧ (atPc 0).coresLive = true ∧ ((atPc 0).core 0).haltReq = false
    ∧ 0 ≤ ((atPc 4).core 0).pc.toNat + 4 * (-1 : BitVec 13).toInt
    ∧ ((atPc 0).core 0).pc.toNat + 4 * (-1 : BitVec 13).toInt < 0
    ∧ 2 ^ 40 ≤ ((atPc 0xFFFFFFFFFC).core 0).pc.toNat + 4 * (1 : BitVec 13).toInt
    ∧ 0 ≤ ((atPc 4).core 0).pc.toNat + 4 * (-1 : BitVec 26).toInt
    ∧ 2 ^ 40 ≤ ((atPc 0xFFFFFFFFFC).core 0).pc.toNat + 4 * (1 : BitVec 26).toInt
    ∧ ((0 : BitVec 64) + (4 : BitVec 16).signExtend 64 * 4).toNat < 2 ^ 40
    ∧ 2 ^ 40 ≤ ((0 : BitVec 64) + (0xFFFF : BitVec 16).signExtend 64 * 4).toNat := by decide +kernel

/-- HC0 with a base in its local memory, one in the common memory, one in the device state words and one in DRAM. -/
def based : State :=
  { gregs [(2, 0), (3, 0xE0), (4, 0), (5, 0xE1), (6, 0xF0), (7, 0xF0), (8, 0xFFFFFFFC), (9, 0xFF), (10, 0x89ABCDEF),
      (11, 0x01234567), (12, 0), (13, 0)] with mem := [(0xE000000000, 0x80), (0xE000000001, 0xFF)] }

theorem test_loads_extend :
    greg (.lb 0 1 2 0) based 1 = 0xFFFFFF80 ∧ greg (.lbu 0 1 2 0) based 1 = 0x80 ∧ greg (.lh 0 1 2 0) based 1 = 0xFFFFFF80
    ∧ greg (.lhu 0 1 2 0) based 1 = 0xFF80 ∧ greg (.lw 0 1 2 0) based 1 = 0xFF80 := by decide +kernel
theorem test_sd_is_little_endian :
    after (.sd 0 10 4 8) based (fun t => (t.byte 0xE100000008).toNat + 256 * (t.byte 0xE10000000F).toNat) = 0x01EF := by
  decide +kernel
theorem test_misaligned_word_traps : trapOf (.lw 0 1 2 2) based = (5, 0, 0xFFFFFF0040) := by decide +kernel
theorem test_user_refused_device_words : trapOf (.lw 0 1 6 0) (user based) = (4, 0, 0xFFFFFF0040) := by decide +kernel
theorem test_odd_base_is_illegal : trapOf (.lw 0 1 3 0) based = (1, 0, 0xFFFFFF0040) := by decide +kernel

theorem witness_LoadsAndStoresMoveLittleEndianBytes :
    based.coreState 0 = 1 ∧ based.coresLive = true ∧ (based.core 0).haltReq = false ∧ (based.core 0).dataAddr 2 0 = some 0xE000000000
    ∧ based.loadAllowed 0 (based.core 0) 0xE000000000 8 = true ∧ touchesWords 0xE000000000 8 = false
    ∧ based.badRange 0xE000000000 8 = false ∧ Memory.wf based.mem = true
    ∧ based.storeAllowed 0 (based.core 0) 0xE000000000 8 = true ∧ based.bad 0xE000000000 = false
    ∧ (based.core 0).dataAddr 6 0 = some 0xF0000000F0 ∧ touchesWords 0xF0000000F0 4 = true
    ∧ based.loadAllowed 0 (based.core 0) 0xF000010000 4 = true ∧ based.storeAllowed 0 (based.core 0) 0xF000010000 4 = true := by
  decide +kernel

theorem test_atcas_swaps :
    greg (.atcas 0 1 2 12) based 1 = 0xFF80
    ∧ after (.atadd 0 1 2 10) based (fun t => leNat (t.bytes 0xE000000000 4)) = 0x89ACCD6F := by decide +kernel

theorem witness_AtomicsReturnTheOldWord :
    based.coreState 0 = 1 ∧ based.coresLive = true ∧ (based.core 0).haltReq = false ∧ (based.core 0).dataAddr 2 0 = some 0xE000000000 ∧ Memory.wf based.mem = true
    ∧ based.atomicAllowed 0 (based.core 0) 0xE000000000 = true ∧ based.bad 0xE000000000 = false
    ∧ based.badRange 0xE000000000 4 = false := by decide +kernel

theorem witness_RefusedAndMisalignedAccessesTrap :
    based.coreState 0 = 1 ∧ based.coresLive = true ∧ (based.core 0).haltReq = false ∧ (based.core 0).dataAddr 8 4 = none ∧ (based.core 0).dataAddr 2 2 = some 0xE000000002
    ∧ based.loadAllowed 0 (based.core 0) 0xE000000002 4 = true ∧ 0xE000000002 % 4 ≠ 0
    ∧ based.storeAllowed 0 (based.core 0) 0xE000000002 4 = true ∧ based.atomicAllowed 0 (based.core 0) 0xE000000002 = true
    ∧ based.loadAllowed 0 (based.core 0) 0xE600000000 4 = false ∧ based.storeAllowed 0 (based.core 0) 0xFFFFFF0000 4 = false
    ∧ based.atomicAllowed 0 (based.core 0) 0xF000000000 = false ∧ ((user based).core 0).sup = false := by decide +kernel

theorem test_trap_saves :
    trapOf (.trap 0 5) State.reset = (9, 5, 0xFFFFFF0040)
    ∧ after (.trap 0 5) State.reset (fun t => (t.core 0).epc.toNat) = 0xFFFFFF0000 := by decide +kernel
theorem test_double_trap_halts :
    after (.trap 0 5) (onCore 0 fun c => { c with inTrap := true }) (fun t => t.coreState 0 * 16 + t.get (F.HRC_STAT_HCAUSE 0)) = 3 := by
  decide +kernel

theorem witness_TrapsSaveTheStateAndEnterAtTvec :
    State.reset.coreState 0 = 1 ∧ State.reset.coresLive = true ∧ (State.reset.core 0).haltReq = false ∧ coreWordLegal 0xFFFFFFFF = false
    ∧ fetchAllowed (atPc 0xF000000000) ((atPc 0xF000000000).core 0) = false
    ∧ fetchAllowed (atPc 0xE000000000) ((atPc 0xE000000000).core 0) = true
    ∧ ({ atPc 0xE000000000 with poison := [(0xE000000000, true)] } : State).badRange 0xE000000000 4 = true := by decide +kernel

theorem test_eret_restores :
    after (.eret 0) (onCore 0 fun c => { c with epc := 0x40, inTrap := true }) (fun t =>
      (t.core 0).pc.toNat + (t.core 0).sup.toNat + (t.core 0).inTrap.toNat) = 0x40 := by decide +kernel
theorem test_halt_stops : after (.halt 0) State.reset (fun t => t.coreState 0) = 0 := by decide +kernel

theorem witness_SystemInstructionsActOnTheCore :
    State.reset.coreState 0 = 1 ∧ State.reset.coresLive = true ∧ (State.reset.core 0).haltReq = false ∧ (State.reset.core 0).sup = true ∧ (30 : BitVec 5).toNat % 2 = 0 ∧ (30 : BitVec 5) ≠ 0
    ∧ 5 < (6 : BitVec 7).toNat := by decide +kernel

theorem witness_PrivilegeAndRoleTraps :
    user.coreState 0 = 1 ∧ user.coresLive = true ∧ (user.core 0).haltReq = false ∧ (user.core 0).sup = false ∧ (State.reset.core 0).sup = true ∧ State.reset.isTile = false := by
  decide +kernel

/-- R47 to R50: words written out field by field from Tables 3.1 to 3.5, 3.10 and 3.11, one for each family of the core. -/
theorem test_core_words :
    decodeCore 0 0x00221800 = some (.add 0 1 2 3) ∧ decodeCore 0 0x0BE5FFFF = some (.addi 0 31 5 0xFFFF)
    ∧ decodeCore 0 0x1822801F = some (.srai 0 1 2 31) ∧ decodeCore 0 0x24864008 = some (.lw 0 4 6 8)
    ∧ decodeCore 0 0x28865FFC = some (.sw 0 4 6 0x1FFC) ∧ decodeCore 0 0x2C223FFF = some (.brne 0 1 2 0x1FFF)
    ∧ decodeCore 0 0x33FFFFFF = some (.jal 0 0x3FFFFFF) ∧ decodeCore 0 0x38443002 = some (.atcas 0 2 4 6)
    ∧ decodeCore 0 0x40000050 = some (.trap 0 5) ∧ decodeCore 0 0x54222001 = some (.nvwr 0 1 2 4) := by decide +kernel
/-- R48: a field that is not used and not zero. -/
theorem test_core_words_illegal : decodeCore 0 0x44000800 = none ∧ decodeCore 0 0x44000000 = some (.await 0 0 0) := by
  decide +kernel
/-! ### Waiting, words of events, commits, the journal, messages, transfers -/

/-- HC0 with events 8 and 40 admitted (EVMASK 3) and routed to it, both pending, and operands. -/
def evented : State :=
  onCore 0 (fun c => { c with evmask := 3 })
    (put [(F.EVT_ROUTE_TARGET 8, 0), (F.EVT_ROUTE_TARGET 40, 0), (⟨.EVT_PEND 0, 8, 1⟩, 1), (⟨.EVT_PEND 1, 8, 1⟩, 1)]
      (gregs [(2, 15), (3, 16)]))

theorem test_await_lowest : greg (.await 0 1 2) evented 1 = 8 := by decide +kernel
theorem test_await_waits : after (.await 0 1 2) (onCore 0 (fun c => { c with evmask := 4 }) evented) (fun t => t.coreState 0) = 2 := by
  decide +kernel
theorem test_signal_raises : after (.signal 0 2) evented (fun t => (t.isPending 495).toNat) = 1 := by decide +kernel

/-- HC0 waiting in AWAIT with a timeout. -/
def awaiting : State := put [(F.HRC_STAT_STATE 0, 2)] (onCore 0 (fun c => { c with wait := some (.await 1 5) }) evented)

theorem test_await_times_out :
    greg (.awaitWake 0 true) (onCore 0 (fun c => { c with evmask := 4 }) awaiting) 1 = 0xFFFFFFFF := by decide +kernel

/-- HC0 with a wall time of 1 s, valid or not, and the target of 2 s in g4 to g7, of 1 s in g8 to g11, of 0 in g12 to
g15 and one out of range in g16 to g19. -/
def timed (valid : Nat) : State :=
  let s := put [(F.TIM_STAT_VALID, valid)] (gregs [(5, 2), (9, 1), (18, 1000000000)])
  { s with tim := { s.tim with wall := 1000000000 * 2 ^ 32 } }

theorem test_waitt_codes :
    greg (.waitt 0 1 8) (timed 0) 1 = 1 ∧ greg (.waitt 0 1 12) (timed 1) 1 = 2 ∧ greg (.waitt 0 1 8) (timed 1) 1 = 0
    ∧ after (.waitt 0 1 4) (timed 1) (fun t => t.coreState 0) = 2 := by decide +kernel
theorem test_time_reads : greg (.time 0 20) (timed 0) 20 = 0x80000000 ∧ greg (.time 0 20) (timed 1) 21 = 1 := by decide +kernel

theorem witness_CoresWaitForEventsAndForTime :
    evented.coreState 0 = 1 ∧ evented.coresLive = true ∧ (evented.core 0).haltReq = false ∧ evented.isPending 8 = true ∧ evented.route 8 = 0 ∧ (evented.core 0).evmask.getLsbD 0 = true
    ∧ ((List.range 8).all fun j => !(evented.isPending j)) = true ∧ ((List.range 512).all fun j => !(State.reset.isPending j)) = true
    ∧ ((evented.core 0).rg 2).toNat ≤ 15 ∧ 15 < ((evented.core 0).rg 3).toNat
    ∧ awaiting.coreState 0 = 2 ∧ (awaiting.core 0).wait = some (.await 1 5)
    ∧ (4 : BitVec 5).toNat % 4 = 0 ∧ ((timed 1).core 0).rg 18 = 1000000000 ∧ (timed 0).on F.TIM_STAT_VALID = false
    ∧ (timed 1).on F.TIM_STAT_VALID = true ∧ (timed 1).tim.wall / 65536 = 1000000000 * 65536
    ∧ (put [(F.HRC_STAT_STATE 0, 2)] (onCore 0 (fun c => { c with wait := some (.waitt 1 4) }) (timed 1))).coreState 0 = 2 := by
  decide +kernel

theorem test_start_boots : after (.coreStart 1) State.reset (fun t => t.coreState 1 + (t.core 1).pc.toNat) = 0xFFFFFF0001 := by decide +kernel

theorem witness_CoresStartAndHaltOnRequest :
    State.reset.coreState 1 = 0 ∧ State.reset.get F.BOT_STAT_STAGE = 1
    ∧ (put [(F.BOT_STAT_STAGE, 7)]).get F.BOT_STAT_STAGE = 7 ∧ (put [(F.HRC_STAT_STATE 1, 1)]).coreState 1 = 1
    ∧ ((onCore 1 fun c => { c with haltReq := true }).core 1).haltReq = true
    ∧ ((onCore 1 fun c => { c with haltReq := true }).core 1).holdsHalt = false
    ∧ ((onCore 1 fun c => { c with wait := some (.nvwr 1 0 []) }).core 1).holdsHalt = true := by decide +kernel

theorem test_route_six_is_none : after (.evtRouteWrite 3 6) State.reset (fun t => t.route 3) = 7 := by decide +kernel
theorem test_force_and_clear :
    after (.evtForce 480) State.reset (fun t => (t.isPending 480).toNat) = 1
    ∧ after (.evtPendClear 0 0x100) evented (fun t => (t.isPending 8).toNat) = 0 := by decide +kernel

/-- A tile's HC0 with a commit id, slots and group masks. -/
def committing : State :=
  put [(F.CMP_STAT_SLOT, 2), ((Reg.CMP_BIND 1).whole, 9), (F.SCN_GSTAT_ARMED 1, 1), ((Reg.SCN_GARM 1).whole, 9)]
    (gregs [(2, 7), (3, 1), (4, 2), (5, 0xFFFF), (6, 0x10000), (7, 9), (8, 1)] tile)

theorem test_commit_binds :
    greg (.commit 0 1 2 0) committing 1 = 0 ∧ greg (.commit 0 1 2 3) committing 1 = 1 ∧ greg (.commit 0 1 7 0) committing 1 = 1 := by
  decide +kernel
theorem test_scansw_all_or_none :
    greg (.scansw 0 1 5 2) committing 1 = 1 ∧ greg (.scansw 0 1 5 7) committing 1 = 0
    ∧ after (.scansw 0 1 5 7) committing (fun t => (t.on (F.SCN_GSTAT_ARMED 15)).toNat) = 1 := by decide +kernel

theorem witness_CommitAndScanswHandSlotsOver :
    committing.coreState 0 = 1 ∧ committing.coresLive = true ∧ (committing.core 0).haltReq = false ∧ (committing.core 0).sup = true ∧ committing.isTile = true
    ∧ ((committing.core 0).rg 3).toNat ≤ 1 ∧ committing.rd (.CMP_BIND 1) ≠ (committing.core 0).rg 2
    ∧ committing.rd (.CMP_BIND 0) = 0 ∧ 1 < ((committing.core 0).rg 4).toNat
    ∧ ((committing.core 0).rg 5).toNat ≤ 65535 ∧ 65535 < ((committing.core 0).rg 6).toNat
    ∧ committing.on (F.SCN_GSTAT_ARMED 1) = true ∧ committing.rd (.SCN_GARM 1) ≠ (committing.core 0).rg 2 := by decide +kernel

/-- HC0 with page numbers and an address of its local memory, in MANUFACTURE with a proven temperature. -/
def writing : State :=
  put [(F.BOT_LCS_STATE, 1), (F.HKP_DIE_VALID 0, 1), (F.HKP_DIE_VALID 1, 1)] (gregs [(2, 0), (3, 0xE0), (4, 127), (5, 128), (6, 15), (8, 16)])

/-- HC0 waiting in an NVWR of page 15, whose job is in hand. -/
def programming : State :=
  let s := put [(F.HRC_STAT_STATE 0, 2)] (onCore 0 (fun c => { c with wait := some (.nvwr 1 15 (List.replicate 32 7)) }) writing)
  { s with asr := { s.asr with jobs := [⟨.core 0 1, [(15, List.replicate 32 7)], false⟩] } }

theorem test_nvwr_refuses_class : greg (.nvwr 0 1 8 2) writing 1 = 3 := by decide +kernel
theorem test_nvwr_completes :
    greg (.nvwrComplete 0 true) programming 1 = 0 ∧ greg (.nvwrComplete 0 false) programming 1 = 4
    ∧ after (.nvwrComplete 0 true) programming (fun t => ((t.nvPage 15).getD 31 0).toNat) = 7 := by decide +kernel

theorem witness_JournalPagesAreReadAndWritten :
    writing.coreState 0 = 1 ∧ writing.coresLive = true ∧ (writing.core 0).haltReq = false ∧ (writing.core 0).sup = true ∧ ((writing.core 0).rg 4).toNat ≤ 127
    ∧ 127 < ((writing.core 0).rg 5).toNat ∧ nearMemory 0 ((writing.core 0).pair 2) 32 32 = true
    ∧ writing.inMemory 0xE000000000 32 = true ∧ writing.badRange 0xE000000000 32 = false ∧ writing.soft = []
    ∧ writing.nvwrCheck 15 = 0 ∧ writing.nvwrCheck 16 ≠ 0 ∧ nearMemory 0 ((writing.core 0).pair 4) 32 32 = false
    ∧ programming.asr.jobs = ⟨.core 0 1, [(15, List.replicate 32 7)], false⟩ :: []
    ∧ (programming.core 0).wait = some (.nvwr 1 15 (List.replicate 32 7)) ∧ Memory.wf programming.nvj.data = true
    ∧ programming.nvFailed 15 = false ∧ bit (programming.get F.ASR_NVSTAT_SPARES) 0 = false := by decide +kernel

/-- A tile's HC0 with a message of 8 bytes for its master, whose port 0 is up or not, with some messages waiting there. -/
def messaging (up : Nat) (k : Nat) : State :=
  let s := put [(F.LNK_PSTAT_STATE 0, up)] (gregs [(2, 0), (3, 0xE0), (4, 0x00210008), (8, 2)] tile)
  s.modPort 0 fun x => { x with vc1 := List.replicate k ⟨[], none, true, none⟩ }

theorem witness_TileMessagesGoToTheMaster :
    (messaging 2 0).coreState 0 = 1 ∧ (messaging 2 0).coresLive = true ∧ ((messaging 2 0).core 0).haltReq = false ∧ (messaging 2 0).isTile = true ∧ (messaging 2 0).masterPort = 0
    ∧ (messaging 2 0).up 0 = true ∧ (messaging 0 0).up 0 = false ∧ (messaging 2 31).msgsWaiting 0 = 31
    ∧ (messaging 2 32).msgsWaiting 0 = 32
    ∧ nearMemory 0 (((messaging 2 0).core 0).pair 2) 8 4 = true ∧ (messaging 2 0).inMemory 0xE000000000 8 = true
    ∧ (messaging 2 0).badRange 0xE000000000 8 = false ∧ (messaging 2 0).soft = []
    ∧ nearMemory 0 (((messaging 2 0).core 0).pair 8) 8 4 = false := by decide +kernel

theorem test_msg_codes :
    greg (.msg 0 1 2 4) (messaging 0 0) 1 = 6 ∧ greg (.msg 0 1 2 4) (messaging 2 32) 1 = 3
    ∧ greg (.msg 0 1 2 4) (messaging 2 31) 1 = 0 ∧ greg (.msg 0 1 8 4) (messaging 2 0) 1 = 1 := by decide +kernel

/-- HC0 with a transfer descriptor in its local memory, its address in g2 and g3: KIND, EVEN and EVT, LENGTH 8, from the
common memory (or with a pattern) to DRAM-free memory 0xE1_0000_1000. -/
def describing (ctrl len src : Nat) : State :=
  let s := gregs [(2, 0), (3, 0xE0), (4, 15), (6, 16)]
  s.putBytes 0xE000000000 (leBytes 4 ctrl ++ leBytes 4 len ++ leBytes 8 src ++ leBytes 8 0xE100001000 ++ leBytes 8 0)

/-- A state with a transfer of 8 bytes in progress under HC0's ticket 3, and HC0 waiting for it. -/
def moving (kind src : Nat) : State :=
  let x : Transfer := ⟨kind, true, 2, 8, src, 0xE100001000, []⟩
  let s := put [(F.HRC_STAT_STATE 0, 2)] (onCore 0 fun c => { c with wait := some (.xwait 1 3) })
  (s.setTicket 0 3 ⟨some x, 0⟩).putBytes 0xE100000000 [1, 2, 3, 4, 5, 6, 7, 8]

theorem test_xfer_takes_ticket : greg (.xfer 0 1 2) (describing 0 8 0xE100000000) 1 = 0 := by decide +kernel
theorem test_xfer_refuses_overlap : trapOf (.xfer 0 1 2) (describing 0 8 0xE100001004) = (7, 0, 0xFFFFFF0040) := by decide +kernel
theorem test_copy_moves :
    after (.transferEnd 0 3) (moving 0 0xE100000000) (fun t => leNat (t.bytes 0xE100001000 8)) = 0x0807060504030201
    ∧ greg (.transferEnd 0 3) (moving 0 0xE100000000) 1 = 0
    ∧ after (.transferEnd 0 3) (moving 0 0xE100000000) (fun t => (t.isPending 482).toNat) = 1 := by decide +kernel
theorem test_fill_repeats :
    after (.transferEnd 0 3) (moving 1 0x04030201) (fun t => leNat (t.bytes 0xE100001000 8)) = 0x0403020104030201 := by decide +kernel

theorem witness_TransfersTakeTicketsAndMoveTheirBytes :
    (describing 0 8 0xE100000000).coreState 0 = 1 ∧ (describing 0 8 0xE100000000).coresLive = true
    ∧ ((describing 0 8 0xE100000000).core 0).haltReq = false
    ∧ nearMemory 0 (((describing 0 8 0xE100000000).core 0).pair 2) 32 8 = true
    ∧ (describing 0 8 0xE100000000).inMemory 0xE000000000 32 = true
    ∧ (describing 0 8 0xE100000000).badRange 0xE000000000 32 = false ∧ (describing 0 8 0).soft = []
    ∧ (descriptorOf ((describing 0 8 0xE100000000).bytes 0xE000000000 32)).ok = true
    ∧ (descriptorOf ((describing 1 0x1000000 0xFFFFFFFF).bytes 0xE000000000 32)).ok = true
    ∧ (descriptorOf ((describing 1 8 0x100000000).bytes 0xE000000000 32)).ok = false
    ∧ nearMemory 0 (((describing 0 8 0).core 0).pair 4) 32 8 = false
    ∧ ((describing 0 8 0).core 0).tickets[(0 : Fin 16)].busy = none
    ∧ (((describing 0 8 0).core 0).rg 4).toNat = (15 : Fin 16).val ∧ 15 < (((describing 0 8 0).core 0).rg 6).toNat
    ∧ ((moving 0 0).core 0).tickets[(3 : Fin 16)].busy.isSome = true
    ∧ (moving 0 0xE100000000).midnight = false ∧ (moving 0 0xE100000000).transfer 0 3 ≠ none
    ∧ Memory.wf (moving 0 0xE100000000).mem = true ∧ (moving 0 0).poison = []
    ∧ (moving 0 0xE100000000).writable 0xE100001000 8 = true ∧ inDram 0xE100001000 = false ∧ inDram 0xE100000000 = false
    ∧ (moving 0 0xE100000000).inMemory 0xE100000000 8 = true
    ∧ (moving 0 0).coreState 0 = 2 ∧ ((moving 0 0).core 0).wait = some (.xwait 1 (3 : Fin 16).val) := by decide +kernel

/-- HC0 with a HASH context of its local memory: CTRL, LENGTH, the address of the data. -/
def hashing (ctrl len addr : Nat) : State :=
  (put [(F.TIM_STAT_STEPPEND, 1)] (gregs [(2, 0), (3, 0xE0), (4, 3), (6, 4), (8, 0xFF)])).putBytes 0xE000000000
    (leBytes 4 ctrl ++ leBytes 4 len ++ leBytes 8 addr)

/-- The SHA-256 digest of the empty message, from FIPS 180-4. -/
theorem test_hash_of_nothing :
    after (.hash 0 1 2) (hashing 0x101 0 0) (fun t => beNat (t.bytes 0xE000000020 32)) =
      0xe3b0c44298fc1c149afbf4c8996fb92427ae41e4649b934ca495991b7852b855 := by decide +kernel
theorem test_spare_arms : greg (.spare 0 1 4 6) (hashing 0 0 0) 1 = 0 ∧ trapOf (.spare 0 1 8 6) (hashing 0 0 0) = (7, 0, 0xFFFFFF0040) := by
  decide +kernel
theorem test_tstep_without_step : greg (.tstep 0 1) State.reset 1 = 1 := by decide +kernel

/-- A held step of 1 ms. -/
def stepping (s : State := State.reset) : State :=
  let s := put [(F.TIM_STAT_STEPPEND, 1)] s
  { s with tim := { s.tim with held := 1000000 * 65536, slew := 64, slewLeft := 9, first := true, offsets := [3] } }

theorem test_tstep_steps :
    after (.tstep 0 1) (stepping tile) (fun t => t.tim.wall / 2 ^ 32) = 1000000
    ∧ after (.tstep 0 1) stepping (fun t => t.tim.slewLeft + t.tim.offsets.length + t.get F.TIM_STAT_STEPPEND) = 0 := by
  decide +kernel

/-- HC0 with a class and an index for SPARE in g2 and g3. -/
def sparing (cls idx : Word) (s : State := tile) : State := gregs [(2, cls), (3, idx)] s

theorem test_spare_classes :
    greg (.spare 0 1 2 3) (sparing 4 7) 1 = 0 ∧ greg (.spare 0 1 2 3) (sparing 4 7 State.reset) 1 = 3
    ∧ after (.spare 0 1 2 3) (sparing 2 9) (fun t => t.get (F.LMP_PSTAT_SPARECELL 9)) = 1 := by decide +kernel

theorem witness_HashTstepAndSpareGiveTheirResults :
    (hashing 0x101 0 0).coreState 0 = 1 ∧ (hashing 0x101 0 0).coresLive = true ∧ ((hashing 0x101 0 0).core 0).haltReq = false
    ∧ ((hashing 0x101 0 0).core 0).sup = true
    ∧ nearMemory 0 (((hashing 0x101 0 0).core 0).pair 2) 128 64 = true ∧ (hashing 0x101 0 0).inMemory 0xE000000000 128 = true
    ∧ (hashing 0x101 0 0).badRange 0xE000000000 128 = false ∧ (hashing 0x101 0 0).soft = []
    ∧ hashArgsOk ((hashing 0x101 0 0).bytes 0xE000000000 128) = true
    ∧ hashArgsOk ((hashing 0x1 65 0).bytes 0xE000000000 128) = false
    ∧ hashArgsOk ((hashing 0x1 64 0xE600000000).bytes 0xE000000000 128) = true
    ∧ (hashing 0 0 0).inMemory 0xE600000000 64 = false
    ∧ State.reset.on F.TIM_STAT_STEPPEND = false ∧ (hashing 0 0 0).on F.TIM_STAT_STEPPEND = true
    ∧ (((hashing 0 0 0).core 0).rg 4).toNat = 3 ∧ (((hashing 0 0 0).core 0).rg 6).toNat ≤ 4
    ∧ State.reset.on F.HRC_MAP_SPAREUSED = false ∧ (put [(F.HRC_MAP_SPAREUSED, 1)]).on F.HRC_MAP_SPAREUSED = true
    ∧ State.reset.armedIn 3 = none ∧ spareIndexOk 3 5 = false ∧ spareIndexOk 0xFF 0 = false
    ∧ (hashing 2 128 0xE100000000).inMemory 0xE100000000 128 = true ∧ (hashing 2 128 0xE100000000).badRange 0xE100000000 128 = false
    ∧ hashArgsOk ((hashing 2 128 0xE100000000).bytes 0xE000000000 128) = true
    ∧ (put [(F.MEM_SIZE_MIB, 256), (F.MEM_STAT_READY, 1)] (hashing 0x102 8 0)).inMemory 0 8 = true ∧ hashArgsOk ((hashing 0x102 8 0).bytes 0xE000000000 128) = true
    ∧ (stepping tile).isTile = true ∧ (stepping tile).on F.TIM_STAT_STEPPEND = true ∧ (stepping).isTile = false
    ∧ (sparing 2 9).isTile = true ∧ ((sparing 2 9).core 0).sup = true ∧ spareIndexOk 2 9 = true
    ∧ (put [(F.SCN_GSTAT_STATE 1, 1)] (sparing 2 9)).running (9 / 8) = true
    ∧ (sparing 2 9).on (F.LMP_PSTAT_SPARECELL 9) = false ∧ (sparing 2 9).on (F.LMP_PSTAT_ARMED 9) = false
    ∧ (put [(F.LMP_PSTAT_ARMED 9, 1)] (sparing 2 9)).on (F.LMP_PSTAT_ARMED 9) = true
    ∧ (sparing 4 7).armedIn 4 = none ∧ spareUsed ((sparing 4 7).rd .CMP_LANEMAP) = false
    ∧ (((sparing 4 7).arm 4 0).armedIn 4).isSome = true
    ∧ (sparing 6 7).spareSensors ≠ 0 ∧ (((sparing 6 7).arm 6 0).arm 6 1).spareSensors = 0
    ∧ (sparing 2 9 State.reset).isTile = false := by decide +kernel

/-- A core spare armed, the cores of it halted. -/
def armed (idx : Nat) : State :=
  put [(F.HRC_STAT_STATE 0, 0)] { State.reset with asr := { State.reset.asr with armed := [(3, idx)] } }

theorem test_substitution_maps :
    after (.coreSubstitution 3) (armed 3) (fun t => bits (t.get F.HRC_MAP_PHYS) 9 3 + 10 * t.coreState 4) = 34 := by decide +kernel

theorem witness_TheSpareCoreTakesOver :
    (armed 3).armedIn 3 = some (3 : Fin 5).val ∧ (armed 0).coreState 0 = 0 ∧ (armed 3).coreState 4 = 0
    ∧ Memory.wf (armed 3).mem = true ∧ (armed 4).armedIn 3 = some 4 := by decide +kernel

/-! ### Start, resets, clocks, lanes -/

/-- The always-on domain in a phase of the start sequence. -/
def phase (k : Nat) : State := { State.reset with aon := { State.reset.aon with phase := k, freq := 3, supply := k != 0 } }

theorem test_start_check_bands :
    after (.startCheck 18874) (phase 2) (fun t => t.get F.CLK_STAT_REFFREQ) = 3
    ∧ after (.startCheck 28836) (phase 2) (fun t => t.get F.CLK_STAT_REFFREQ) = 2
    ∧ after (.startCheck 36045) (phase 2) (fun t => t.get F.CLK_STAT_REFFREQ) = 1
    ∧ after (.startCheck 36046) (phase 2) (fun t => t.get F.CLK_START_TRIES) = 1 := by decide +kernel
theorem witness_StartSequenceReachesTheBootRom :
    (phase 0).aon.supply = false ∧ (phase 1).aon.phase = 1 ∧ (phase 2).aon.phase = 2 ∧ (phase 3).aon.phase = 3
    ∧ (phase 4).aon.phase = 4 ∧ (phase 4).aon.freq ≠ 0 ∧ (phase 5).aon.phase = 5 ∧ (phase 5).aon.resetLow = false
    ∧ (phase 5).bootSource ≠ 2 ∧ (put [(F.BOT_STAT_BOOTSEL, 2), (F.BOT_LCS_STATE, 1), (F.BOT_STAT_ROLE, 1)] (phase 5)).bootSource = 2
    ∧ (put [(F.BOT_STAT_BOOTSEL, 2), (F.BOT_LCS_STATE, 1), (F.BOT_STAT_ROLE, 1)] (phase 5)).lifeCycle ≠ 4 := by decide +kernel

/-- A reset asked for on QSPI, with the responses that GET has still to end, at a tick. -/
def resetting (after : Option Nat) (ticks : Nat) : State :=
  { State.reset with
    bot := { State.reset.bot with reset := some (.host .qspi), resetAfter := after }
    tim := { State.reset.tim with ticks := ticks } }

theorem witness_EveryFullResetLeavesResetValues :
    ({ State.reset with aon := { State.reset.aon with resetLow := true } } : State).aon.resetLow = true
    ∧ State.reset.aon.resetLow = false ∧ State.reset.aon.phase = 6 ∧ (phase 5).aon.phase ≠ 6
    ∧ (put [(F.PWR_STAT_MIDNIGHT, 1), (F.PWR_STAT_HALTOK, 1)]).on F.PWR_STAT_HALTOK = true
    ∧ (0x1A5 : Word).toNat % 256 = 0xA5 ∧ (0xA4 : Word).toNat % 256 ≠ 0xA5
    ∧ ({ State.reset with bot := { State.reset.bot with reset := some .core } } : State).bot.reset.isSome = true
    ∧ State.reset.bot.reset = none
    ∧ (resetting (some 0) 0).resetDue = true ∧ (resetting (some 1) 0).resetDue = false
    ∧ 0 + usTicks 100000 ≤ (resetting none (usTicks 100000)).tim.ticks ∧ (resetting none (usTicks 100000)).resetDue = true := by
  decide +kernel

theorem test_coast : after .refclkLoss State.reset (fun t => (t.on F.CLK_STAT_COAST).toNat + 2 * (t.isPending 496).toNat) = 3 := by
  decide +kernel

theorem witness_ClockLossCoastsAndReturns :
    State.reset.on F.CLK_STAT_COAST = false ∧ (put [(F.CLK_STAT_COAST, 1)]).on F.CLK_STAT_COAST = true
    ∧ (put [(F.LAN_CTL_EN 35, 1)]).quadEnabled 8 = true ∧ State.reset.quadEnabled 0 = false
    ∧ (put [(⟨.CLK_STAT, 13, 1⟩, 1)]).on ⟨.CLK_STAT, 13, 1⟩ = true
    ∧ (put [(F.LAN_STAT_STATE 9, 9), (F.LAN_CTL_EN 9, 1)]).lane 9 = 9 := by decide +kernel

theorem test_forced_switch_resets : after (.clockSwitchForced 1) (put [(F.MEM_SCRUB_HOURS, 5)]) (fun t => t.get F.MEM_SCRUB_HOURS) = 24 := by
  decide +kernel

theorem witness_GatesCloseAndSwitchesForce :
    tile.isTile = true ∧ (put [(⟨.CLK_GATE, 1, 1⟩, 1)]).on ⟨.CLK_GATE, 1, 1⟩ = true
    ∧ State.reset.on (F.CLK_DSTAT_GATED 1) = false ∧ (put [(F.CLK_DSTAT_GATED 1, 1)]).on (F.CLK_DSTAT_GATED 1) = true := by
  decide +kernel

/-- Lane `n` in a state, enabled. -/
def laneIn (n st : Nat) : State := put [(F.LAN_STAT_STATE n, st), (F.LAN_CTL_EN n, 1)]

theorem test_lane_stages :
    after (.receiverDetectPulse 8 true) (laneIn 8 2) (fun t => t.lane 8) = 3
    ∧ after (.trainWindowEnd 8 false false 0 0) (laneIn 8 3) (fun t => t.lane 8 * 16 + t.get (F.LAN_STAT_LASTFAIL 8)) = 0x93
    ∧ after (.blockLock 8 5 0) (laneIn 8 4) (fun t => t.lane 8) = 5
    ∧ after (.backoffExpiry 8) (laneIn 8 9) (fun t => t.lane 8) = 2 := by decide +kernel
theorem test_block_lock_loss : after (.blockLockLoss 8 16) (laneIn 8 6) (fun t => t.lane 8 * 16 + t.get (F.LAN_STAT_LASTFAIL 8)) = 0x94 := by
  decide +kernel

theorem witness_LanesPassTheirStagesAndLeaveThem :
    (laneIn 8 1).lanePowered 8 = true ∧ (laneIn 8 1).lane 8 = 1 ∧ tile.lanePowered 14 = false ∧ tile.lanePowered 13 = true
    ∧ (laneIn 35 8).lane 35 = 8 ∧ (laneIn 8 6).lane 8 = 6 ∧ (laneIn 8 7).lane 8 = 7 ∧ (laneIn 8 2).lane 8 = 2
    ∧ (laneIn 8 3).lane 8 = 3 ∧ (laneIn 8 4).lane 8 = 4 ∧ (laneIn 8 5).lane 8 = 5 ∧ (laneIn 8 5).exchanged 8 = false
    ∧ (laneIn 8 9).lane 8 = 9 ∧ (laneIn 8 9).on (F.LAN_CTL_EN 8) = true ∧ (laneIn 7 1).isTile = false
    ∧ (laneIn 7 6).lane 7 = 6 ∧ (laneIn 7 1).on (F.LAN_CTL_EN 7) = true := by decide +kernel

theorem test_txeq_sum : after (.txeqWrite 8 0x0000FFFF) State.reset (fun t => (t.rd (.LAN_TXEQ 8)).toNat) = 0x4604 := by decide +kernel

/-- Lane 8 in EXCHANGE with two equal capability blocks counted. -/
def exchanging (st : Nat) : State :=
  let s := laneIn 8 st
  { s with lan := { s.lan with caps := [(8, 0, 2)], surveying := [9] } }

theorem witness_ExchangesTxeqAndSurveysComplete :
    (exchanging 5).lane 8 = 5 ∧ (exchanging 5).lan.caps.find? (fun e => e.1 == 8) = some (8, 0, 2)
    ∧ (((List.range (laneCount 0)).filter fun i => !(bit ((exchanging 5).get (F.LAN_PSUB_RETIRED 0) ||| bits 0 42 4) i)).take 2).length = 2
    ∧ (((List.range (laneCount 0)).filter fun i => !(bit ((exchanging 5).get (F.LAN_PSUB_RETIRED 0) ||| bits (3 * 2 ^ 42) 42 4) i)).take 2).length < 2
    ∧ (exchanging 5).laneSub 0 = none ∧ (exchanging 5).lanePowered 8 = true
    ∧ 31 + 32 + 0 ≤ 63 ∧ (exchanging 6).lane 8 = 6 ∧ 8 ∉ (exchanging 6).lan.surveying ∧ 9 ∈ (exchanging 6).lan.surveying
    ∧ State.reset.get F.LAN_SURV_PERIOD ≠ 0 ∧ (put [(F.LAN_SURV_PERIOD, 0)]).get F.LAN_SURV_PERIOD = 0
    ∧ State.reset.get (F.LAN_EYE_SURVEYS 9) = 0 ∧ 19 < State.reset.get F.LAN_EYELIM_WIDTH := by decide +kernel

/-- A substitution of port 0's lane 0 by lane 2. -/
def substituting (acked : Bool) : State :=
  { State.reset with lan := { State.reset.lan with subs := [⟨0, 0, 2, true, true, acked, acked, acked, false⟩] } }

theorem test_swap_ends : after (.swapBlocks 8 0) (substituting true) (fun t => t.lane 8 * 16 + t.lane 10) = 0x86 := by decide +kernel

/-- The same substitution with the spare in STANDBY. -/
def answering (heard : Bool) : State :=
  { put [(F.LAN_STAT_STATE 10, 7)] with
    lan := { State.reset.lan with subs := [⟨0, 0, 2, true, true, false, heard, false, true⟩] } }

theorem witness_LaneSubstitutionsEnd :
    (substituting true).laneSub 0 = some ⟨0, 0, 2, true, true, true, true, true, false⟩ ∧ portOfLane 8 = 0 ∧ portLane 8 = 0 ∧ 2 < laneCount 0
    ∧ (substituting false).laneSub 0 = some ⟨0, 0, 2, true, true, false, false, false, false⟩
    ∧ (answering true).laneSub 0 = some ⟨0, 0, 2, true, true, false, true, false, true⟩ ∧ portLane 10 = 2 ∧ portOfLane 10 = 0
    ∧ (answering true).lane 10 = 7
    ∧ (answering false).laneSub 0 = some ⟨0, 0, 2, true, true, false, false, false, true⟩ := by decide +kernel

/-! ### The wall link -/

/-- A frame with its CRC, of a sequence number, with acknowledgement type 0 and no content. -/
def emptyFrame (seq : Nat) : LinkFrame :=
  frameOf (BitVec.ofNat 56 (seq * 2 ^ 44)) (Vector.replicate 4 0) (Vector.replicate 117 0) 0

/-- A null frame that acknowledges a sequence number. -/
def nullFrame (seq : Nat) : LinkFrame :=
  frameOf (BitVec.ofNat 56 (seq * 2 ^ 32 + 2 ^ 30 + 2 ^ 28)) (Vector.replicate 4 0) (Vector.replicate 117 0) 0

/-- The halves of a word of two halves. -/
theorem halves (c low : BitVec 32) : (c ++ low).extractLsb' 0 32 = low ∧ (c ++ low).extractLsb' 32 32 = c := by
  constructor
  · apply BitVec.eq_of_getLsbD_eq
    intro i hi
    rw [BitVec.getLsbD_extractLsb', BitVec.getLsbD_append]
    simp [hi]
  · apply BitVec.eq_of_getLsbD_eq
    intro i hi
    rw [BitVec.getLsbD_extractLsb', BitVec.getLsbD_append]
    simp [hi]

/-- A frame built with its CRC holds it above the low half of its trailer. -/
theorem frameOf_crc (h : BitVec 56) (d : Vector (BitVec 64) 4) (a : Vector (BitVec 64) 117) (low : BitVec 32) :
    let f := frameOf h d a low
    f.trailer.extractLsb' 32 32 = frameCrc f.header f.desc f.area (f.trailer.extractLsb' 0 32) := by
  have h0 : (frameOf h d a low).trailer.extractLsb' 0 32 = low := (halves _ low).1
  have h1 : (frameOf h d a low).trailer.extractLsb' 32 32 = frameCrc h d a low := (halves _ low).2
  simp only [h0, h1]; rfl

/-- A sender with port `p` up and its two lanes active. -/
def linked (p : Nat) : State :=
  put [(F.LNK_PSTAT_STATE p, 2), (F.LAN_STAT_STATE (laneOf p 0), 6), (F.LAN_STAT_STATE (laneOf p 1), 6)]

/-- A frame kept for an acknowledgement. -/
def keptFrame (seq : Nat) : KeptFrame := ⟨seq, Vector.replicate 4 0, Vector.replicate 117 0, 0, none⟩

/-- Port 0 with frames that wait for an acknowledgement. -/
def unacked (rounds k : Nat) : State :=
  (linked 0).modPort 0 fun x => { x with kept := (List.range k).map keptFrame, rounds := rounds, nakOpen := true }

theorem test_ninth_round_ends : after (.resendTimeout 0) (unacked 8 1) (fun t => (t.up 0).toNat) = 0 := by decide +kernel

theorem witness_LinkFramesAreAcknowledgedAndResent :
    (linked 0).up 0 = true ∧ State.reset.up 0 = false ∧ (linked 0).onMaster 0 = false
    ∧ (linked 0).frameFits 0 (emptyFrame 0) = true ∧ (emptyFrame 0).header.getLsbD 28 = false
    ∧ bits (emptyFrame 0).header.toNat 44 12 = ((linked 0).port 0).rxNext ∧ bits (emptyFrame 1).header.toNat 44 12 ≠ 0
    ∧ segments (emptyFrame 0) = [] ∧ (nullFrame 1).header.getLsbD 28 = true ∧ (unacked 3 4).frameFits 0 (nullFrame 1) = true
    ∧ ((unacked 3 4).port 0).kept.findIdx? (fun k => k.seq == bits (nullFrame 1).header.toNat 32 12) = some 1
    ∧ ((linked 0).port 0).resend = [] ∧ ((unacked 7 64).port 0).rounds < 8 ∧ 64 ≤ ((unacked 0 64).port 0).kept.length
    ∧ ((unacked 0 63).port 0).kept.length < 64 ∧ 8 ≤ ((unacked 8 1).port 0).rounds ∧ ((unacked 8 1).port 0).nakOpen = true
    ∧ (put [(F.LNK_PSTAT_STATE 0, 0)] (linked 0)).activeLanes 0 = 8 :: 9 :: []
    ∧ (linked 0).pairsWith 0 0 = true ∧ (linked 0).pairsWith 0 2 = false ∧ (State.reset.activeLanes 0).length < 2 := by
  decide +kernel

/-- A tile at position 5 with a master of epoch 7 on port 0, both ports up, and an accepted token. -/
def fed : State :=
  let s := put [(F.LNK_PSTAT_STATE 0, 2), (F.LNK_PSTAT_STATE 1, 2), ((Reg.LNK_MASTER).whole, 7), (F.LNK_POS_VALID, 1),
    (F.LNK_POS_POSITION, 5), (F.LNK_MRXCFG_EN, 1), (F.TIM_LDELAY_VALID 0, 1)] tile
  { s with lnk := { s.lnk with masterId := 9, tokens := [⟨65536, 0, [], false⟩], lastShow := some 65536 } }

/-- A token of the master for the show instant of some nanoseconds. -/
def token (ns : BitVec 32) : TokenCell := ⟨0, 7, 0, 0, ns, 0, []⟩

theorem test_token_taken : after (.token 0 (token 2)) fed (fun t => t.lnk.tokens.length * 10 + t.get F.LNK_TOKCNT_COUNT) = 21 := by
  decide +kernel
theorem test_token_off_master_dropped :
    after (.token 1 (token 2)) fed (fun t => t.lnk.tokens.length * 10 + t.get (F.LNK_DROP_COUNT 1)) = 11 := by decide +kernel
theorem test_pos_sets : after (.pos 0 9 true) fed (fun t => t.get F.LNK_POS_POSITION) = 9 := by decide +kernel
theorem test_message_ring :
    after (.msgCell 0 ⟨3, 5, false, false, [1, 2, 3, 4]⟩) fed (fun t =>
      leNat (t.bytes 0xE100000000 4) + 2 ^ 32 * leNat (t.bytes 0xE100000010 4)) = 0x0403020100000103 := by decide +kernel

theorem witness_TilesTakeAndForwardCells :
    fed.isTile = true ∧ fed.onMaster 0 = true ∧ fed.onMaster 1 = false ∧ fed.masterEpoch.toNat < (8 : BitVec 32).toNat
    ∧ fed.masterEpoch ≠ 0 ∧ (8 : BitVec 128).toNat < fed.lnk.masterId.toNat
    ∧ fed.lnk.tokens.find? (fun x => x.instant == tokenInstant (token 2)) = none ∧ (token 2).epoch = fed.masterEpoch
    ∧ (token 2).n.toNat ≤ 16 ∧ fed.lnk.tokens.length < 4 ∧ 65536 < tokenInstant (token 2)
    ∧ fed.lnk.tokens.find? (fun x => x.instant == tokenInstant (token 1)) = some ⟨65536, (token 1).commit.toNat, (token 1).layers, false⟩
    ∧ ¬ (65536 < tokenInstant (token 0)) ∧ fed.get F.LNK_POS_POSITION = (5 : BitVec 7).toNat
    ∧ fed.on F.LNK_MRXCFG_EN = true ∧ (fed.get F.LNK_MRXHEAD_SLOT + 1) % 64 ≠ fed.get F.LNK_MRXTAIL_SLOT
    ∧ (put [(F.LNK_MRXTAIL_SLOT, 1)] fed).get F.LNK_MRXTAIL_SLOT = 1
    ∧ MsgCell.wellFormed ⟨3, 5, false, false, [1, 2, 3, 4]⟩ = true ∧ Memory.wf fed.mem = true ∧ fed.poison = [] ∧ fed.soft = [] := by
  decide +kernel

/-- A surface at 64 blocks in DRAM memory of a tile: a slot of generation 3 in a state, one empty. -/
def surface (st : Nat) : State :=
  { fed with srf := [(2, ⟨1, false, 8, 8, 0, 0, 8, 8, 0xE100010000, [⟨st, 3, 0, false⟩, Slot.empty], none, none, none, none, [], 0⟩)] }

theorem test_retract_frees :
    after (.retract 0 ⟨7, 2, 3⟩) (surface 3) (fun t => ((t.handle 2).map fun x => (x.slots.getD 0 Slot.empty).st + 10 * x.retracted.getD 0).getD 99) = 30 := by
  decide +kernel

theorem witness_TilesTakeAndForwardCells_retract :
    ((surface 1).handle 2).isSome = true ∧ ((surface 1).handle 2).bind (fun x => x.find 3) = some 0
    ∧ ((surface 2).handle 2).bind (fun x => x.find 4) = none ∧ (fed.handle 2) = none := by decide +kernel

/-- A request for the tile, of 2 words. -/
def request (addr : BitVec 40) (data : List Byte) : RequestCell := ⟨5, 1, 1, 2, addr, data, 0x01020304⟩

theorem test_wall_write_executes :
    after (.wallWrite 0 (request 0xE100000000 [1, 2, 3, 4, 5, 6, 7, 8])) fed (fun t => leNat (t.bytes 0xE100000000 8)) = 0x0807060504030201 := by
  decide +kernel
theorem test_wall_read_misaligned :
    after (.wallRead 0 (request 0xE100000002 [])) fed (fun t => ((t.tileTag 1 1).map (·.status)).getD 0) = 4 := by decide +kernel

theorem witness_TilesExecuteWallRequestsOnce :
    fed.onMaster 0 = true ∧ fed.onMaster 1 = false ∧ fed.up 0 = true ∧ fed.get F.LNK_POS_POSITION = (request 0 []).position.toNat
    ∧ fed.tileTag 1 1 = none ∧ (1, 1) ∉ fed.lnk.refusedTags ∧ fed.on F.PWR_STAT_MIDNIGHT = false
    ∧ 0xE100000000 % 4 = 0 ∧ Memory.wf fed.mem = true ∧ inDram 0xE100000000 = false ∧ touchesWords 0xE100000000 8 = false
    ∧ fed.inMemory 0xE1001FFFF8 8 = true ∧ fed.inMemory 0xE600000000 8 = false ∧ inNvjWindow 0xE600000000 8 = false
    ∧ inBootRom 0xE600000000 8 = false ∧ fed.on F.LNK_RPLBASE_EN = false ∧ fed.writable 0xE100000000 8 = true
    ∧ RequestCell.writeForm (request 0 [1, 2, 3, 4, 5, 6, 7, 8]) = true ∧ fed.writable 0xFFFFFF0000 8 = false
    ∧ ({ fed with lnk := { fed.lnk with tileTags := [⟨1, 1, 2, 0, 0, 0, false⟩] } } : State).tileTag 1 1 = some ⟨1, 1, 2, 0, 0, 0, false⟩
    ∧ (1, 1) ∈ ({ fed with lnk := { fed.lnk with refusedTags := [(1, 1)] } } : State).lnk.refusedTags := by decide +kernel

/-- A sender with chain port 0 up, chain 0 armed for a generation, and a tag of a QSPI request. -/
def sending (probing : Bool) : State :=
  let s := put [((Reg.LNK_EPOCH 0).whole, 4), (F.LNK_GENKEY_ARM 0 15, 1), (F.LNK_GENKEY_HANDLE 0 15, 2), (F.LNK_GENKEY_GEN 0 15, 3),
    (F.LNK_PSTAT_TILES 0, 2)] (linked 0)
  { s with
    lnk := { s.lnk with tags := [⟨0, 1, 1, probing, false, 0, 0, 0, 1, 0, .relay .qspi⟩] }
    hst := { s.hst with inFlight := [⟨.qspi, headBytes 1 1 0 4 0, false, none, 0, true, 0⟩] } }

theorem test_gack_sets_done :
    after (.gack 0 ⟨33, 4, 2, 3, 0⟩) (sending false) (fun t => (t.rd (.LNK_GENDONE 0 15 1)).toNat) = 2 := by decide +kernel
theorem test_announce_outranks :
    after (.announceAtSender 0 ⟨false, 5, 0⟩) (sending false) (fun t => (t.rd (.LNK_EPOCH 0)).toNat + 16 * (t.on (F.LNK_PSTAT_OUTRANKED 0)).toNat) = 21 := by
  decide +kernel
theorem test_response_frees_tag :
    after (.wallResponse 0 ⟨0, 0, 1, 1, 1, 0, [1, 2, 3, 4]⟩) (sending false) (fun t => t.lnk.tags.length + 10 * t.hst.responses.length) = 10 := by
  decide +kernel

theorem witness_SendersTakeCellsAndProbeTags :
    (sending false).isTile = false ∧ (sending false).paired = false ∧ (sending false).chainOf 0 = 0
    ∧ ((sending false).rd (.LNK_EPOCH 0)).toNat < (5 : BitVec 32).toNat ∧ ¬ ((sending false).isBEnd 0 = true)
    ∧ (put [(F.LNK_CFG_RING, 1), (F.LNK_RING_SPLIT 0, 1)] (sending false)).isBEnd 1 = true
    ∧ (put [(F.LNK_CFG_RING, 1), (F.LNK_RING_SPLIT 0, 1)] (sending false)).split 0 = true
    ∧ (sending false).on (F.LNK_GENKEY_ARM 0 15) = true ∧ (sending false).get (F.LNK_GENKEY_GEN 0 15) = 3
    ∧ State.reset.on (F.LNK_GENKEY_ARM 0 0) = false ∧ State.reset.lnk.tags = [] ∧ State.reset.ringPort 0 = false
    ∧ ((sending false).lnk.tags.find? fun e => e.chain == 0 && e.tag == 1 && e.tgen == 1).isSome = true
    ∧ ((sending false).hst.inFlight.find? fun z => whoCarrier z.who == some Carrier.qspi && (txnHead z.bytes).tag == 0).isSome = true
    ∧ ((List.finRange 5).all fun n => (List.finRange 16).all fun i => (sending false).transfer n i == none) = true
    ∧ ((sending true).lnk.tags.find? fun e => e.chain == 0 && e.tag == 1).map (·.probing) = some true
    ∧ (sending false).feedPort 0 0 = some 0 := by decide +kernel

/-- A tile's TIME cell of its master for the second 1. -/
def timeCell (sec : BitVec 48) : TimeCell := ⟨1, 7, sec, 2, false, 0, 0, 0⟩

theorem test_first_time_cell_sets :
    after (.timeCell 0 (timeCell 1) 0) fed (fun t => t.tim.wall / 2 ^ 32 + (t.on F.TIM_STAT_VALID).toNat) / 1000000000 = 1 := by
  decide +kernel
theorem test_far_time_cell_held :
    after (.timeCell 0 (timeCell 1) 0) (put [(F.TIM_STAT_VALID, 1)] fed) (fun t => t.tim.wall + (t.on F.TIM_STAT_STEPPEND).toNat) = 1 := by
  decide +kernel

/-- Port 0 with a link delay measurement open and some kept. -/
def measuring (kept : Nat) : State := fed.modPort 0 fun x => { x with ldPending := some (4, 0), ldKept := kept }

/-- The same tile 200 ms later. -/
def later : State := { fed with tim := { fed.tim with wall := 65536 * (13107200000 + fed.portRxLat 0) } }

theorem witness_TimeCellsSteerAndLinkDelaysAreKept :
    fed.onMaster 0 = true ∧ fed.onMaster 1 = false ∧ fed.on (F.TIM_LDELAY_VALID 0) = true ∧ (timeCell 1).epoch = fed.masterEpoch
    ∧ tile.on (F.TIM_LDELAY_VALID 0) = false ∧ State.reset.ringPort 0 = false ∧ (put [(F.LNK_CFG_RING, 1)]).ringPort 0 = true
    ∧ (put [(F.TIM_CFG_SRC, 3), (F.MIR_STAT_ROLE, 2)]).get F.TIM_CFG_SRC = 3 ∧ (put [(F.MIR_STAT_ROLE, 2)]).role = 2
    ∧ fed.up 0 = true ∧ ((measuring 0).port 0).ldPending = some (4, 0) ∧ (fed.port 0).ldPending = none
    ∧ Int.fdiv (((later.now : Int) - later.portRxLat 0) - 0 - ldSpan ⟨4, 0, 0, 0, 0, 0, 0⟩) 2 = 6553600000
    ∧ Int.fdiv (((fed.now : Int) - fed.portRxLat 0) - 0 - ldSpan ⟨4, 0, 0, 1, 0, 0, 0⟩) 2 < 0
    ∧ ((measuring 15).port 0).ldKept = 15 ∧ (put [(F.LNK_CFG_PAIR, 1), (F.MIR_STAT_ROLE, 1)]).paired = true := by decide +kernel

theorem witness_PictureRunsAreStoredAndAcknowledged :
    fed.onMaster 0 = true ∧ fed.onMaster 1 = false ∧ fed.handle 2 = none ∧ ((surface 1).handle 2).bind (fun x => x.find 3) = some 0
    ∧ ((surface 1).handle 2).map (fun x => (x.retracted, x.reclaim, x.used)) = some (none, false, none)
    ∧ ((surface 0).handle 2).bind (fun x => x.slots.findIdx? fun e => decide (e.st = 0)) = some 0
    ∧ ((surface 1).handle 2).map (fun x => (blockBytes x.fmt / 8, x.windowIndex 63, decide (x.fmt < 6))) = some (6, some 63, true)
    ∧ ((surface 1).handle 2).map (fun x => (surface 1).present x 0 63) = some false
    ∧ ((surface 1).handle 2).map (fun x => (surface 1).inMemory (x.blockAddr 0 63) 48 && (surface 1).inMemory (x.mapAddr 0 + 7) 1
        && decide (x.blockAddr 0 63 + 48 ≤ x.mapAddr 0)) = some true
    ∧ (surface 1).poison = [] ∧ (surface 1).soft = [] ∧ (put [(F.LNK_CFG_RING, 1)]).ringPort 1 = true
    ∧ (put [(F.LNK_CFG_RING, 1)]).silent 1 = false := by decide +kernel

theorem test_epoch_write_keeps_higher :
    after (.epochWrite 0 3) (sending false) (fun t => (t.rd (.LNK_EPOCH 0)).toNat) = 4
    ∧ after (.epochWrite 0 4) (sending false) (fun t => (t.rd (.LNK_EPOCH 0)).toNat) = 4 := by decide +kernel

theorem witness_LinkWordsAnnounceAndArm :
    (sending false).isTile = false ∧ (sending false).chainValid 0 = true ∧ (sending false).aPort 0 = some 0
    ∧ (put [(F.LNK_CFG_RING, 1)]).bPort 0 = some 1 ∧ (put [(F.LNK_CFG_RING, 1)]).chainValid 1 = false
    ∧ (((linked 0).modPort 0 fun x => { x with announcing := true }).port 0).announcing = true ∧ (linked 0).silent 0 = false
    ∧ ((sending false).rd (.LNK_EPOCH 0)).toNat ≤ (4 : Word).toNat ∧ (3 : Word).toNat < ((sending false).rd (.LNK_EPOCH 0)).toNat
    ∧ ((List.range 8).all fun i => State.reset.get (F.LNK_PSTAT_STATE i) == 0) = true ∧ (linked 7).get (F.LNK_PSTAT_STATE 7) ≠ 0 := by
  decide +kernel

/-! ### Wall time and launches -/

theorem test_five_ticks : after (.timeTick 5) State.reset (fun t => t.tim.wall) = 32 * 2 ^ 32 := by decide +kernel
/-- A part that follows source 1 and had its last measurement some ticks ago. -/
def silentFor (ticks : Nat) : State :=
  let s := put [(F.TIM_CFG_SRC, 1), (F.TIM_STAT_VALID, 1), (F.TIM_STAT_LOCKED, 1)]
  { s with tim := { s.tim with ticks := ticks } }

/-- A part in HOLD since reset, limited to a second, some ticks after it. -/
def holding (ticks : Nat) : State :=
  let s := put [(F.TIM_STAT_VALID, 1), (F.TIM_STAT_HOLD, 1), (F.TIM_HOLDMAX_SEC, 1)]
  { s with tim := { s.tim with ticks := ticks } }

/-- A part at the second 1, with TS_OUT0 on pulse per second, of a width, and a pulse on it. -/
def pulsing (width : Nat) (ends : Option Nat) : State :=
  let s := put [(F.TIM_STAT_VALID, 1), (F.TIM_PULCFG_MODE 0, 1), (F.TIM_PULWID_WIDTH 0, width)]
  { s with tim := { s.tim with wall := 10 ^ 9 * 2 ^ 32, pulses := s.tim.pulses.set 0 ⟨ends, 0⟩ } }

theorem test_pulse_starts_at_the_second :
    after (.pulseEdge 0) (pulsing 50 none) (fun t => ((t.tim.pulses[(0 : Fin 4)]).ends).getD 9) = 50 := by decide +kernel
theorem test_hold_onset :
    after .holdOnset (silentFor 156250000) (fun t =>
      (t.on F.TIM_STAT_HOLD).toNat + 2 * (t.on F.TIM_STAT_LOCKED).toNat + 4 * (t.isPending 216).toNat) = 5 := by decide +kernel
theorem test_capture_overrun :
    after (.captureEdge 2 ⟨true, 0⟩) (put [(F.TIM_CAPCFG_EDGE 2, 3), (F.TIM_CAPFR_FULL 2, 1)]) (fun t =>
      t.get (F.TIM_CAPFR_OVERRUN 2)) = 1 := by decide +kernel

theorem witness_TimekeeperCountsHoldsAndCaptures :
    State.reset.tim.phase < 5 ∧ (State.reset.rd .TIM_RATE).toInt = 0 ∧ min 5 State.reset.tim.slewLeft = 0
    ∧ (silentFor 156250000).on F.TIM_STAT_VALID = true ∧ (silentFor 156250000).on F.TIM_STAT_HOLD = false
    ∧ (silentFor 156250000).get F.TIM_CFG_SRC = 1 ∧ (silentFor 0).tim.lastMeasure = 0
    ∧ (holding 156250000).get F.TIM_HOLDMAX_SEC = 1 ∧ (holding 156250000).tim.holdSince + 1 * 156250000 ≤ (holding 156250000).tim.ticks
    ∧ (holding 156250000).on F.TIM_STAT_HOLD = true ∧ ¬ (holding 0).tim.holdSince + 1 * 156250000 ≤ (holding 0).tim.ticks
    ∧ State.reset.codec = none ∧ State.reset.tim.edges[(3 : Fin 4)] = none
    ∧ (pulsing 50 (some 39)).tim.pulses[(0 : Fin 4)] = ⟨some 39, 0⟩ ∧ 39 < State.reset.tim.ticks * 40 + 40
    ∧ (pulsing 50 none).tim.pulses[(0 : Fin 4)] = ⟨none, 0⟩ ∧ (pulsing 50 none).pulseStart 0 = some 0
    ∧ (pulsing 50 none).pulseAllowed 0 = true ∧ (pulsing 0 none).pulseAllowed 0 = false ∧ State.reset.pulseStart 0 = none
    ∧ (pulsing 50 none).get (F.TIM_PULOFF_OFFSET 0) = 0 ∧ (pulsing 50 none).tim.wall ≤ 1 * 10 ^ 9 * 2 ^ 32
    ∧ 1 * 10 ^ 9 * 2 ^ 32 < (pulsing 50 none).nextWall ∧ (pulsing 50 none).nextWall ≤ (1 + 1) * 10 ^ 9 * 2 ^ 32
    ∧ (put [(F.TIM_STAT_VALID, 1), (F.TIM_STAT_HOLD, 1), (F.TIM_HOLDMAX_SEC, 1)] tile).isTile = true
    ∧ State.reset.isTile = false ∧ (1 : BitVec 2).toNat ≠ State.reset.get F.TIM_CFG_SRC
    ∧ (0 : BitVec 2).toNat = State.reset.get F.TIM_CFG_SRC ∧ State.reset.on F.TIM_STAT_VALID = false
    ∧ State.reset.on F.CLK_STAT_COAST = false ∧ (put [(F.TIM_CAPCFG_EDGE 3, 1)]).get (F.TIM_CAPCFG_EDGE 3) = 1
    ∧ (put [(F.TIM_CAPCFG_EDGE 3, 1)]).on (F.TIM_CAPFR_FULL 3) = false
    ∧ (put [(F.TIM_CAPFR_FULL 3, 1)]).on (F.TIM_CAPFR_FULL 3) = true ∧ State.reset.get (F.TIM_CAPCFG_EDGE 0) ≠ 3 := by
  decide +kernel

/-- A launch descriptor: CTRL, LENGTH, address, seconds, nanoseconds, HANDLE and GENERATION. -/
def launchWord (ctrl len src sec h g : Nat) : List Byte :=
  leBytes 4 ctrl ++ leBytes 4 len ++ leBytes 8 src ++ leBytes 4 sec ++ leBytes 4 0 ++ leBytes 2 h ++ leBytes 2 g ++ leBytes 4 0

/-- A queue entry of cells, or of a generation's end, for a second. -/
def launch (kind sec : Nat) (started : Bool) : LaunchEntry :=
  ⟨4, kind, if kind = 0 then 16 else 0, if kind = 0 then 0xE100000100 else 0, wuOf sec 0 0, 2, 3, started⟩

/-- A sender at the second 5 with port 0 in a state, a RETRACT cell in memory, a handle with a generation, a descriptor at
the start of the common memory and a queue. -/
def launching (up : Nat) (d : List Byte) (q : List LaunchEntry) : State :=
  let s := put [(F.LNK_PSTAT_STATE 0, up), (F.TIM_STAT_VALID, 1)]
  let s := { s with
    tim := { s.tim with wall := wuOf 5 0 0 * 65536, queues := s.tim.queues.set 0 q, nextEntry := 5 }
    srf := [(2, ⟨1, false, 8, 8, 0, 0, 8, 8, 0xE100010000, [⟨3, 3, 0, false⟩, Slot.empty], none, none, none, none, [], 0⟩)] }
  (s.putBytes 0xE100000000 d).putBytes 0xE100000100 (unitsToBytes (Cell.retract ⟨0, 2, 3⟩).units)

theorem test_launch_push :
    after (.lqPush 0 0) (launching 2 (launchWord 0 16 0xE100000100 6 0 0) []) (fun t =>
      (t.queue 0).length * 10 + t.get (F.TIM_LQSTAT_ENTRIES 0)) = 11 := by decide +kernel
theorem test_launch_push_refuses_bits :
    after (.lqPush 0 0) (launching 2 (launchWord 4 16 0xE100000100 6 0 0) []) (fun t =>
      (t.queue 0).length * 10 + t.get (F.TIM_LQSTAT_EVBAD 0)) = 1 := by decide +kernel
theorem test_launch_starts_cells :
    after (.launchEntryStart 0) (launching 2 [] [launch 0 5 false]) (fun t => (t.port 0).vc1.length) = 1 := by decide +kernel
theorem test_launch_drops_when_down :
    after (.launchEntryStart 0) (launching 0 [] [launch 0 5 false]) (fun t => t.get (F.TIM_LQCNT_DROP 0)) = 1 := by decide +kernel

/-- A sender with an entry started and one to start. -/
def launchable : State := launching 2 (launchWord 0 16 0xE100000100 6 0 0) [launch 0 5 true, launch 0 5 false]

theorem witness_LaunchQueuesTakeAndStartEntries :
    launchable.isTile = false ∧ ¬ 64 ≤ (launchable.queue 0).length
    ∧ 64 ≤ ((launching 2 [] (List.replicate 64 (launch 0 5 true))).queue 0).length
    ∧ ((launchable.loadData 0xE100000000 32).bind (launchEntry 5 launchable.now)).isSome = true
    ∧ ((launching 2 [] []).loadData 0xE100000000 32).bind (launchEntry 5 0) = none
    ∧ (launchable.queue 0).find? (fun e => !e.started) = some (launch 0 5 false) ∧ launchable.on F.TIM_STAT_VALID = true
    ∧ (launch 0 5 false).time ≤ launchable.now ∧ launchable.now < (launch 0 6 false).time ∧ (launch 0 4 false).time + 65536000 < launchable.now
    ∧ launchable.on (F.LNK_PSTAT_OUTRANKED 0) = false ∧ launchable.on F.PWR_STAT_MIDNIGHT = false ∧ launchable.up 0 = true
    ∧ (launching 0 [] []).up 0 = false ∧ launchable.silent 0 = false
    ∧ (match (launchable.load 0xE100000100 16).1 with | .ok l => (launchCells l).isSome | _ => false) = true
    ∧ (match (launchable.load 0xE100000000 16).1 with | .ok l => (launchCells l).isNone | _ => false) = true
    ∧ (launchable.launchVc3 (launch 2 5 false)).isSome = true ∧ launchable.launchVc3 { launch 2 5 false with gen := 9 } = none
 := by decide +kernel

/-! ### Hosts -/

/-- The bytes of a READ of 4 bytes of the common memory. -/
def readReq (wall : Nat) : List Byte := headBytes 1 wall 7 4 0xE100000000

/-- A part whose QSPI host holds the lease, with two words of common memory. -/
def leasedHost : State :=
  (put [(F.HST_STAT_LEASED, 1), (F.HST_STAT_CARRIER, 1)]).putBytes 0xE100000000 [1, 2, 3, 4, 5, 6, 7, 8]

/-- The same with a chain of two tiles that is up. -/
def relayHost : State :=
  put [(F.LNK_PSTAT_STATE 0, 2), (F.LNK_PSTAT_TILES 0, 2), ((Reg.LNK_EPOCH 0).whole, 1)] leasedHost

/-- A QSPI transaction that waits. -/
def waitingTxn (l : List Byte) (busy : Bool) : HostTxn := ⟨.qspi, l, busy, none, 0, true, 0⟩

/-- A state with transactions waiting and in flight. -/
def queuedHost (w f : List HostTxn) (s : State := leasedHost) : State :=
  { s with hst := { s.hst with waiting := w, inFlight := f } }

/-- Reading the QSPI response of a transaction as a number. -/
def reply (c : Instr) (s : State) : Nat := after c s fun t => beNat (t.hst.responses.headD [])

theorem test_read_answers : reply (.hostRead .qspi 7 false 8 0xE100000000) leasedHost = 0x8100000700000008000000E1000000000102030405060708 := by
  decide +kernel
theorem test_read_without_lease : reply (.hostRead .qspi 7 false 4 0xE100000000) State.reset = 0x8102000700000000000000E100000000 := by
  decide +kernel
theorem test_misaligned_read_is_format : reply (.hostRead .qspi 7 false 4 0xE100000002) leasedHost = 0x8104000700000000000000E100000002 := by
  decide +kernel
theorem test_fill_repeats_host :
    after (.hostFill .qspi 7 false 8 0xE100000004 0xAABBCCDD) leasedHost (fun t => beNat (t.bytes 0xE100000000 12)) =
      0x01020304AABBCCDDAABBCCDD := by decide +kernel
theorem test_claim_grants : reply (.claim .qspi 1) State.reset = 0x8500000100000004000000000000000000000001 := by decide +kernel
theorem test_other_host_dropped :
    after (.status (.channel 1 2) 1) leasedHost (fun t => t.get F.HST_DROPCNT_COUNT + 2 * (t.isPending 478).toNat) = 3 := by decide +kernel

/-- A transaction runs, and its response fits. -/
def fitsAfter (s : State) (x : HostTxn) : Option Bool := (s.runTxn x).map fun u => s.responseFits u x

theorem witness_HostTransactionsPassTheirChecksInOrder :
    hostBytes (.hostRead .qspi 7 false 4 0xE100000000) = some (.qspi, readReq 0)
    ∧ leasedHost.on F.PWR_STAT_MIDNIGHT = false ∧ leasedHost.inProgress .qspi = 0
    ∧ leasedHost.responseBytesHeld + 16 + 4 ≤ 4096 ∧ leasedHost.qspiOpen = true ∧ (phase 5).qspiOpen = false
    ∧ leasedHost.requestBytesHeld + 16 ≤ 4096 ∧ leasedHost.claimWaits (leasedHost.arriving .qspi (readReq 0) false) = false
    ∧ (queuedHost [⟨.qspi, headBytes 5 0 1 0 0, false, none, 0, false, 0⟩] [] State.reset).claimWaits
      { leasedHost.arriving (.channel 1 2) (headBytes 5 0 1 0 0) false with tick := 1 } = true
    ∧ leasedHost.accepted (leasedHost.arriving .qspi (readReq 0) false) = true
    ∧ leasedHost.accepted (leasedHost.arriving (.channel 1 2) (readReq 0) false) = false
    ∧ fitsAfter leasedHost (waitingTxn (readReq 0) false) = some true
    ∧ (queuedHost [waitingTxn (readReq 0) false] []).inProgress .qspi = 1
    ∧ (queuedHost (List.replicate 64 (waitingTxn (readReq 0) false)) []).inProgress .qspi = 64
    ∧ (put [(F.PWR_STAT_MIDNIGHT, 1)]).on F.PWR_STAT_MIDNIGHT = true ∧ whoCarrier .master = none
    ∧ leasedHost.dropsTxn (.channel 1 2) (txnHead (readReq 0)) = true ∧ leasedHost.dropsTxn .qspi (txnHead (readReq 0)) = false
    ∧ (txnHead (readReq 0)).badFormat = false ∧ (txnHead (headBytes 1 0 7 2 0)).badFormat = true
    ∧ leasedHost.needsLease .qspi (txnHead (readReq 0)) = false ∧ State.reset.needsLease .qspi (txnHead (readReq 0)) = true
    ∧ (put [(F.BOT_LCS_STATE, 4)] leasedHost).retiredRefuses (txnHead (readReq 0)) = true
    ∧ leasedHost.retiredRefuses (txnHead (readReq 0)) = false ∧ (txnHead (readReq 1)).wall = true
    ∧ relayHost.dropsTxn .qspi (txnHead (readReq 1)) = false ∧ relayHost.needsLease .qspi (txnHead (readReq 1)) = false
    ∧ relayHost.chainValid 0 = true ∧ relayHost.chainValid 1 = true ∧ (put [(F.LNK_CFG_RING, 1)]).chainValid 1 = false
    ∧ relayHost.wallRefusal 0 1 = none ∧ (relayHost.wallRefusal 0 126).isSome = true ∧ (relayHost.freeTag 0).isSome = true
    ∧ leasedHost.hst.waiting = []
    ∧ (queuedHost [waitingTxn (readReq 0) false] []).hst.waiting.find? (fun y => whoCarrier y.who == some .qspi)
      = some (waitingTxn (readReq 0) false)
    ∧ (leasedHost.runTxn (waitingTxn (readReq 0) false)).isSome = true ∧ (waitingTxn (readReq 0) true).busy = true
    ∧ fitsAfter { leasedHost with hst := { leasedHost.hst with responses := [List.replicate 4090 0] } }
      (waitingTxn (readReq 0) false) = some false
    ∧ 4096 < ({ leasedHost with hst := { leasedHost.hst with responses := [List.replicate 4097 0] } } : State).responseBytesHeld
    ∧ 4096 < (queuedHost [waitingTxn (List.replicate 4090 0) false] []).requestBytesHeld + (readReq 0).length := by decide +kernel

/-- A chain of which the first tags are in use. -/
def tagged (n : Nat) : State := { relayHost with lnk := { relayHost.lnk with
  tags := (List.range n).map fun i => ⟨0, i, 0, false, false, 0, 1, 0, 1, 0, .relay .qspi⟩ } }

theorem tagged_any (n i : Nat) (h : i < n) : ((tagged n).lnk.tags.any fun e => e.chain == 0 && e.tag == i) = true := by
  have h0 : (tagged n).lnk.tags = (List.range n).map fun i => ⟨0, i, 0, false, false, 0, 1, 0, 1, 0, .relay .qspi⟩ := rfl
  rw [h0]
  simpa using h

theorem witness_HostTransactionsPassTheirChecksInOrder_tags :
    (tagged 4096).freeTag 0 = none ∧ (tagged 4096).wallRefusal 0 1 = none := by
  refine ⟨List.find?_eq_none.mpr fun x hx => ?_, by decide +kernel⟩
  simp only [tagged_any 4096 x (List.mem_range.mp hx), Bool.not_true, Bool.false_eq_true, not_false_eq_true]

/-- A key and a signature of the nonce of 32 zeros at a part of identity 0 by the QSPI host, computed outside the model. -/
def leaseKey : List Byte :=
  beBytes 64 0x1ceec4e72242a6a914975620d0fc91451bcf6168029f661e7da0587988cefaf8574bf09c063ae92b630299b915d044c0dbdae16d4378d8eb526530647b4198de
def leaseSig : List Byte :=
  beBytes 64 0xbf30d6978a924d186374107f9eab48ce7fd942c9ca600ab72beebe9371b5da1eea659cdc838619b3767c057fdf8e6d99fde2680c5d8517eb06761c0878d40c40

/-- A part in FIELD with that key's hash fused and that challenge outstanding. -/
def challenged : State :=
  let s := put ([((Reg.ASR_HKHASH 0).whole, 0x7a55b39f), ((Reg.ASR_HKHASH 1).whole, 0xbf85b048),
    ((Reg.ASR_HKHASH 2).whole, 0x833138f8), ((Reg.ASR_HKHASH 3).whole, 0x47d3f00b), ((Reg.ASR_HKHASH 4).whole, 0x34b8ffb0),
    ((Reg.ASR_HKHASH 5).whole, 0x7821215a), ((Reg.ASR_HKHASH 6).whole, 0xe03633ac), ((Reg.ASR_HKHASH 7).whole, 0x57e4c101),
    (F.HST_STAT_CHALLENGE, 1), (F.BOT_LCS_STATE, 2)])
  { s with hst := { s.hst with nonce := some (.qspi, List.replicate 32 0) } }

theorem test_response_proves :
    challenged.on F.HST_STAT_LOCKOUT = false ∧ challenged.hst.nonce = some (.qspi, List.replicate 32 0)
    ∧ sha256 ((leaseKey ++ leaseSig).take 64) = challenged.hostKeyHash
    ∧ ecdsaVerify ((leaseKey ++ leaseSig).take 64) (challenged.challengeDigest .qspi (List.replicate 32 0)) ((leaseKey ++ leaseSig).drop 64)
      = true := by decide +kernel

theorem witness_HostTransactionsTakeEffect :
    leasedHost.memSound = true ∧ leasedHost.dropsTxn .qspi (txnHead (readReq 0)) = false
    ∧ touchesWords 0xE100000000 4 = false ∧ leasedHost.inMemory 0xE100000000 4 = true
    ∧ leasedHost.badRange 0xE100000000 4 = false ∧ ({ leasedHost with poison := [(0xE100000000, true)] } : State).badRange 0xE100000000 4 = true
    ∧ leasedHost.inMemory 0xE600000000 4 = false ∧ inNvjWindow 0xE600000000 4 = false ∧ inBootRom 0xE600000000 4 = false
    ∧ inBootRom 0xFFFFFF0000 4 = true ∧ touchesWords 0xF000010000 8 = true ∧ inOneBlock 0xF000010000 8 = true
    ∧ inOneBlock 0xF00000FFFC 8 = false ∧ leasedHost.writable 0xE100000000 1024 = true ∧ leasedHost.writable 0xFFFFFF0000 4 = false
    ∧ leasedHost.poison = [] ∧ leasedHost.soft = [] ∧ leasedHost.chFailed 0 = false ∧ leasedHost.chFailed 1 = false
    ∧ (put [(F.HST_STAT_BOOTWAIT, 1)]).on F.HST_STAT_BOOTWAIT = true ∧ leasedHost.retired = false
    ∧ (put [(F.HST_STAT_LOCKOUT, 1)]).on F.HST_STAT_LOCKOUT = true ∧ leasedHost.lifeCycle ≤ 1 ∧ 1 < challenged.lifeCycle
    ∧ challenged.dropsTxn .qspi (txnHead (headBytes 5 0 1 128 1)) = false ∧ (txnHead (headBytes 5 0 1 128 1)).badFormat = false
    ∧ leasedHost.isHolder .qspi = true ∧ Reg.ofAddr 0xE100000000 = none ∧ (Reg.ofAddr Reg.TIM_HOLDMAX.addr).isSome = true
    ∧ Reg.TIM_HOLDMAX.powered false = true ∧ Reg.LNK_POS.powered false = false ∧ Reg.TIM_HOLDMAX.actsOnWrite = false := by
  decide +kernel

theorem test_poll_byte : after .poll leasedHost (fun t => t.sent.length + 16 * t.pollByte.toNat) = 1 := by decide +kernel
theorem test_get_shifts :
    after (.get 3) { leasedHost with hst := { leasedHost.hst with responses := [[9, 8]] } } (fun t =>
      match t.sent with | [.qspi l] => beNat l | _ => 0) = 0x090800 := by decide +kernel
theorem test_lease_expires : after .leaseExpiry leasedHost (fun t => t.get F.HST_STAT_LEASED + 2 * (t.isPending 477).toNat) = 2 := by
  decide +kernel

theorem witness_QspiFramesAndLeaseTimersTakeEffect :
    leasedHost.aon.phase = 6 ∧ leasedHost.aon.resetLow = false ∧ (phase 5).aon.phase ≠ 6
    ∧ 16 ≤ (readReq 0).length ∧ 16 + payloadLen (txnHead (readReq 0)) ≤ (readReq 0).length
    ∧ leasedHost.requestBytesHeld + 16 ≤ 4096 ∧ 16 + payloadLen (txnHead (headBytes 2 0 7 4 0)) = 20
    ∧ qspiCommands.contains 0xFF = false ∧ qspiCommands.contains 0x05 = true ∧ leasedHost.on F.HST_STAT_LEASED = true
    ∧ leasedHost.get F.HST_STAT_CARRIER ≠ 3 ∧ State.reset.on F.HST_STAT_LEASED = false ∧ leasedHost.isTile = false
    ∧ tile.isTile = true ∧ State.reset.hst.holderPeer = none ∧ State.reset.alert = false
    ∧ (put [(F.HST_STAT_LEASED, 1), (F.HST_STAT_CARRIER, 2), (F.EVT_ROUTE_TARGET 3, 6)] { State.reset with
        hst := { State.reset.hst with holderPeer := some ⟨0, 0, 0, 0, 0, 0⟩ } }).get F.HST_STAT_CARRIER = 2 := by decide +kernel

/-! ### Frame programs and frames -/

/-- A frame program of a tile rectangle of 8 by 8 pixels and ENDF, and the words of one that ends in a fault. -/
def frameWords : List Byte := leBytes 4 0xC6000000 ++ leBytes 4 0 ++ leBytes 4 0xE8000000
def faultWords : List Byte := leBytes 4 0xE8000000

/-- A tile with slot 0 in use and a program being read. -/
def reading (p : FrameProg) : State :=
  let s := put [(F.CMP_STAT_SLOT, 0), (F.CMP_STAT_STATE, 2), (F.TIM_STAT_VALID, 1)] tile
  { s with cmp := { s.cmp with prog := p } }

/-- Programs with a tile rectangle; with an empty layer part; with a complete one. -/
def placed : FrameProg := { FrameProg.empty with pos := 2, tile := some ⟨0, false, 8, 8, 0, 0⟩ }
def parting : FrameProg := { placed with layers := [.empty 1] }
def parted : FrameProg :=
  { placed with layers := [{ LayerPart.empty 1 with place := some (0, 0, 8, 8), crop := some (0, 0, 8, 8) }] }

theorem test_layer_begins : after (.layer 5) (reading placed) (fun t => t.cmp.prog.layers.length * 10 + t.cmp.prog.pos) = 13 := by
  decide +kernel
theorem test_repeated_layer_faults :
    after (.layer 1) (reading parted) (fun t => t.get F.CMP_STAT_STATE * 100 + t.get F.CMP_STAT_ERRCODE * 10
      + t.get F.CMP_STAT_ERRWORD) = 332 := by decide +kernel
theorem test_scale_limits :
    after (.scale 0 0 2047 2048 0 0) (reading parting) (fun t => t.get F.CMP_STAT_ERRCODE) = 2
    ∧ after (.scale 0 0 2048 524288 0 0) (reading parting) (fun t => t.get F.CMP_STAT_ERRCODE) = 0 := by decide +kernel
theorem test_off_canvas : after (.place (.tile 1 false 1 0 0xFFF8 0xFFF1)) (reading .empty) (fun t => t.get F.CMP_STAT_ERRCODE) = 5 := by
  decide +kernel

theorem witness_ComposeInstructionsBuildTheProgram :
    (reading placed).isTile = true ∧ (reading placed).get F.CMP_STAT_SLOT ≠ 2 ∧ (reading placed).get F.CMP_STAT_STATE ≠ 3
    ∧ placed.ended = false ∧ placed.fault = none ∧ placed.layers = [] ∧ placed.tile ≠ none ∧ FrameProg.empty.tile = none
    ∧ parted.layers = [] ++ [{ LayerPart.empty 1 with place := some (0, 0, 8, 8), crop := some (0, 0, 8, 8) }]
    ∧ parting.layers = [] ++ [.empty 1] ∧ (LayerPart.empty 1).scale = none ∧ placed.post = none ∧ placed.bg = none ∧ placed.stand = none
    ∧ placeInstr (.tile 0 false 0 0 0xFFF8 0xFFF8) = .placeTile ⟨0, false, 8, 8, 0xFFF8, 0xFFF8⟩
    ∧ (⟨0, false, 8, 8, 0xFFF8, 0xFFF8⟩ : TilePlace).onCanvas = true ∧ (⟨0, false, 8, 8, 0xFFF9, 0⟩ : TilePlace).onCanvas = false
    ∧ 8 * (0xFF + 1) * (8 * (0x7F + 1)) > 262144 ∧ (0xFFFF0000 : BitVec 32).toInt = -65536 ∧ (0x10000 : BitVec 32).toInt > 65535
    ∧ fillInstr (.background 1 2 3) = .fillBg 1 2 3 ∧ fillInstr (.layer 1 2 3) = .fillLayer 1 2 3
    ∧ State.reset.isTile = false ∧ (put [(F.CMP_STAT_STATE, 3)] tile).get F.CMP_STAT_STATE = 3 ∧ (1 : BitVec 4).toNat = 1 := by
  decide +kernel

/-- A show instant: a frame period of 20 ms and 2 ns. -/
def showAt : Nat := (20000000 + 2) * 65536

/-- A tile at that show instant's compose start: commit id 9 bound to slot 0 with a program, and its accepted token. -/
def composing (words : List Byte) : State :=
  let s := put [(F.CMP_STAT_SLOT, 2), (F.TIM_STAT_VALID, 1), ((Reg.CMP_BIND 0).whole, 9)] tile
  ({ s with
    lnk := { s.lnk with tokens := [⟨showAt, 9, [], false⟩] }
    tim := { s.tim with wall := 131072 * 65536 } }).putBytes 0xE500000000 words

theorem test_compose_takes_id :
    after (.composeStart showAt) (composing frameWords) (fun t =>
      (t.rd .CMP_CID).toNat * 100 + t.get F.CMP_STAT_SLOT * 10 + t.get F.CMP_STAT_STATE) = 901 := by decide +kernel
theorem test_compose_faulty_program_halts :
    after (.composeStart showAt) (composing faultWords) (fun t => t.get F.CMP_STAT_STATE * 10 + t.get F.CMP_STAT_ERRCODE) = 33 := by
  decide +kernel

/-- A frame of an instant. -/
def frame (complete : Bool) : FrameRun := ⟨131072, 0, 8, 8, 1, List.replicate 64 (0, 0, 0), [], [], 0, 0, complete, 5⟩

/-- A tile with a frame at its show instant, which a token names. -/
def framed (complete : Bool) : State :=
  let s := put [(F.TIM_STAT_VALID, 1), (F.CMP_STAT_STATE, 1), (F.CMP_CTIMEMAX_US, 7)] tile
  { s with
    cmp := { s.cmp with frames := [frame complete], dims := some (8, 8) }
    lnk := { s.lnk with tokens := [⟨131072, 0, [], false⟩] }
    tim := { s.tim with wall := 131072 * 65536 } }

/-- A tile whose grid goes on from an instant at which a half was shown. -/
def shown (instant : Nat) (noGrid : Bool) : State :=
  { framed true with
    lnk := { (framed true).lnk with tokens := [] }
    scn := { (framed true).scn with timeHold := noGrid, period := some ⟨instant, true, false, false, false, none⟩ } }

theorem witness_FramesAreComposedAndCompleted :
    (composing frameWords).isTile = true ∧ (composing frameWords).on F.TIM_STAT_VALID = true ∧ tile.on F.TIM_STAT_VALID = false
    ∧ (composing frameWords).tokenFor showAt = some ⟨showAt, 9, [], false⟩ ∧ (composing frameWords).tokenFor 65536 = none
    ∧ (composing frameWords).cmp.closed = none ∧ (composing frameWords).period ≤ showAt
    ∧ (composing frameWords).tim.wall ≤ (showAt - (composing frameWords).period) * 65536
    ∧ (showAt - (composing frameWords).period) * 65536 < (composing frameWords).nextWall
    ∧ (composing frameWords).composeDue showAt = true ∧ (composing frameWords).composeDue 65536 = false
    ∧ (framed true).cmp.took.lookup 131072 = none
    ∧ (composing frameWords).boundSlot 9 = some 0 ∧ (composing frameWords).boundSlot 8 = none
    ∧ (composing frameWords).get F.CMP_STAT_SLOT = 2 ∧ ((composing frameWords).readSlot 0).fault = none
    ∧ ((composing frameWords).readSlot 0).tile = some ⟨0, false, 8, 8, 0, 0⟩
    ∧ ((composing faultWords).readSlot 0).fault = some (3, 0) ∧ (framed false).cmp.frames = frame false :: []
    ∧ (frame false).complete = false ∧ (framed true).cmp.frames = [frame true] ∧ tile.cmp.frames = [] := by decide +kernel

/-- A tile whose compositor lanes are under a test slice, with a compose start held or not. -/
def sliced (held : Option Nat) (s : State) : State :=
  { s with
    asr := { s.asr with slice := some ⟨0, 744, 1, 0, some 0⟩ }
    cmp := { s.cmp with held := held } }

theorem witness_FramesAreComposedAndCompleted_held :
    (sliced none (composing frameWords)).composeHeld = true ∧ (composing frameWords).composeHeld = false
    ∧ (sliced none (composing frameWords)).composeDue showAt = true := by decide +kernel
/-- R510: a compose start held by a slice takes place at its end. -/
theorem test_compose_held : after (.testSliceEnd 1 0 none 300) (sliced (some showAt) (composing frameWords)) (fun t =>
      (t.rd .CMP_CID).toNat * 10 + t.cmp.held.getD 0) = 90
    ∧ after (.composeStart showAt) (sliced none (composing frameWords)) (fun t =>
      (t.rd .CMP_CID).toNat * 10 + (t.cmp.held.getD 0 - showAt)) = 0 := by decide +kernel

theorem test_half_complete :
    after (.halfComplete 5) (framed false) (fun t => t.get F.CMP_CTIMEMAX_US * 100 + t.get F.CMP_CTIME_US * 10 + t.get F.CMP_STAT_STATE) = 752 := by
  decide +kernel
theorem test_show_instant_switches :
    after (.showInstant 131072) (framed true) (fun t => t.get F.SCN_STAT_HALF * 10 + t.get F.SCN_MISSCNT_COUNT) = 10
    ∧ after (.showInstant 131072) (framed false) (fun t => t.get F.SCN_STAT_HALF * 10 + t.get F.SCN_MISSCNT_COUNT) = 1 := by decide +kernel

/-- A tile with a frame period armed for any commit id. -/
def periodArmed : State := { framed true with tim := { (framed true).tim with armedFper := some 0 } }

theorem witness_ShowInstantsAndBoundariesAdvanceTheLamps_late :
    let s := put [(F.CMP_STAT_SLOT, 0)] (sliced (some 131072) { framed true with cmp := { (framed true).cmp with frames := [] } })
    s.cmp.held = some 131072 ∧ (s.tokenFor 131072).isSome = true ∧ s.get F.CMP_STAT_SLOT ≠ 2 ∧ s.showDue 131072 = true
    ∧ after (.showInstant 131072) s (·.get F.SCN_MISSCNT_COUNT) = 1 := by decide +kernel

theorem witness_ShowInstantsAndBoundariesAdvanceTheLamps :
    (framed true).isTile = true ∧ (framed true).on F.TIM_STAT_VALID = true ∧ (framed true).cmp.frames.find? (fun f => f.instant == 131072) = some (frame true)
    ∧ (framed false).cmp.frames.find? (fun f => f.instant == 131072) = some (frame false)
    ∧ (framed true).cmp.frames.find? (fun f => f.instant == 65536) = none ∧ periodArmed.tim.armedFper = some 0
    ∧ (framed true).tim.armedFper = none ∧ (framed true).dueSwitches 131072 = [] ∧ (framed true).continuesGrid 131072 = false
    ∧ (framed true).showDue 131072 = true ∧ (framed true).showDue 65536 = false ∧ (framed true).scn.period = none
    ∧ (shown 0 false).scn.timeHold = false ∧ (shown 0 false).period = 20000000 * 65536 ∧ (shown 0 false).lnk.tokens = []
    ∧ (shown 131072 false).refreshes = 0 ∧ (shown 131072 false).scn.boundary = 0
    ∧ (shown 131072 false).tim.wall ≤ 131072 * 65536 ∧ 131072 * 65536 < (shown 131072 false).nextWall
    ∧ ((shown 131072 false).boundaryEdge 0).isSome = true ∧ (shown 131072 true).boundaryEdge 0 = none
    ∧ (put [(F.SCN_GSTAT_STATE 15, 1)] (framed true)).running 15 = true
    ∧ (put [(F.COR_CFG_LOOPEN, 1)] (framed true)).on F.COR_CFG_LOOPEN = true ∧ (framed true).cor.windowDark = false
    ∧ (framed true).get F.COR_LOOPLIM_MIN ≤ (framed true).get F.COR_LOOPLIM_MAX := by decide +kernel

/-! ### Greyscale and scan -/

theorem test_refresh_average : (refreshSum 8 0xFFFFF 0 4).1 = 4 * 255 ∧ (refreshSum 8 (4 * 512) 0 4).1 = 2 := by decide +kernel
theorem witness_RefreshValuesAverageTheLampCode :
    4 ≤ 18 ∧ (0 : Nat) < 2 ^ (18 - 18) ∧ (2 ^ 14 - 1 : Nat) < 2 ^ (18 - 4) ∧ 0xFFFFF / 4 ≤ (2 ^ 18 - 1) * 2 ^ (18 - 18)
    ∧ (2 ^ 4 - 1) * 2 ^ (18 - 4) < 0xFFFFF / 4 := by decide +kernel

/-- A scan program of 4 planes at LOW, one line and one visit. -/
def scanProgram : List Byte :=
  ([0x84100000, 0x84300000, 0x84500000, 0x84700000, 0xA47C0032, 0x80000000, 0x9C000000, 0x8C0003E8, 0x88000000, 0x88200000, 0x88400000,
    0x88600000, 0xAC000000].map (leBytes 4)).flatten

/-- The head of that program. -/
def scanHead : ScanHead := ⟨[(0, true), (1, true), (2, true), (3, true)], [], 32, 1, 50⟩

/-- A tile whose frame programs show 8 by 8 pixels, with a group in a state. -/
def scanning (st : Nat) (x : Group) : State :=
  let s := put [(F.SCN_GSTAT_STATE 0, st), (F.LMP_CFG_RBEN, 1)] tile
  let s := { s with
    cmp := { s.cmp with dims := some (8, 8) }
    scn := { s.scn with noHalf := false, timeHold := false, groups := s.scn.groups.set 0 x } }
  (s.putBytes 0xE400000000 scanProgram).putBytes 0xE400002000 (leBytes 4 0xFFFFFFFF)

/-- A group with a head, on a line. -/
def visiting : Group := { Group.reset with head := scanHead, line := some 0, ready := true, values := [[1, 2]], pos := 7 }

theorem test_scan_line : after (.line 0 false 0 false) (scanning 1 { Group.reset with head := scanHead, pos := 5 }) (fun t =>
    ((t.group 0).line.getD 9) * 100 + (t.group 0).pos * 10 + t.get F.SCN_UNDERCNT_COUNT) = 61 := by decide +kernel
theorem test_scan_slot_lights :
    after (.slot 0 1 0) (scanning 1 visiting) (fun t => match t.sent.getLast? with
      | some (.light g st on) => g * 10000 + st.toNat * 10 + on | _ => 0) = 1300 := by decide +kernel
theorem test_scan_slot_out_of_place : after (.slot 0 1 0) (scanning 1 Group.reset) (fun t =>
    t.get (F.SCN_GSTAT_ERRCODE 0) * 10 + t.get (F.SCN_GSTAT_STATE 0)) = 32 := by decide +kernel

theorem witness_ScanInstructionsRunTheBody :
    (scanning 1 visiting).memSound = true ∧ (scanning 1 visiting).isTile = true
    ∧ (scanning 1 visiting).get (F.SCN_GSTAT_STATE 0) = 1 ∧ (scanning 1 visiting).groupUsed 0 = true
    ∧ ((scanning 1 visiting).group 0).stopping = false ∧ ((scanning 1 { visiting with stopping := true }).group 0).stopping = true
    ∧ (0 : BitVec 6).toNat < scanHead.lines ∧ scanHead.lines ≤ (1 : BitVec 6).toNat
    ∧ ((scanning 1 visiting).groupPorts 0).all (fun p => decide ((p + 1) * ((scanning 1 visiting).groupGeometry 0).perPort ≤ 786432)) = true
    ∧ visiting.line = some 0 ∧ Group.reset.line = none ∧ scanHead.k = 4 ∧ visiting.loop = none
    ∧ (ScanHead.plane (Group.reset.head.fresh) 17 true).2 = true ∧ (ScanHead.plane scanHead 3 true).2 = false
    ∧ (ScanHead.gain scanHead 3 0).2 = true ∧ scanHead.planesOk = true ∧ (⟨[], [], 0, 0, 0⟩ : ScanHead).planesOk = false
    ∧ (scanning 0 visiting).get (F.SCN_GSTAT_STATE 0) ≠ 1 ∧ State.reset.isTile = false := by decide +kernel

theorem test_readback_records :
    after (.readbk 0 true true 5) (put [(F.LMP_STAT_RBSHORT, 0)] { scanning 1 visiting with cmp := { (scanning 1 visiting).cmp with dims := some (64, 64) } })
      (fun t => t.get (F.LMP_HR_SHORT 0)) = 5 := by decide +kernel

/-- The same tile with frames of 256 by 256 pixels. -/
def wide : State := { scanning 1 visiting with cmp := { (scanning 1 visiting).cmp with dims := some (256, 256) } }

theorem witness_ReadbackFillsTheLampStateMap :
    wide.memSound = true ∧ wide.isTile = true ∧ wide.get (F.SCN_GSTAT_STATE 0) = 1 ∧ ((wide.group 0).line).isSome = true
    ∧ wide.on F.LMP_CFG_RBEN = true ∧ (put [(F.LMP_CFG_RBEN, 0)] wide).on F.LMP_CFG_RBEN = false ∧ 800 ≤ wide.groupShift 0
    ∧ (scanning 1 visiting).groupShift 0 < 280 ∧ wide.rotationOf 0 ≠ [] ∧ (put [(F.LMP_STAT_CLEARING, 1)] wide).on F.LMP_STAT_CLEARING = true
    ∧ wide.poison = [] ∧ wide.soft = [] ∧ wide.chFailed 0 = false ∧ wide.chFailed 1 = false := by decide +kernel

theorem test_group_starts : after (.groupStart 0 false) (scanning 0 Group.reset) (fun t => t.get (F.SCN_GSTAT_STATE 0)) = 2
    ∧ after (.groupStart 0 false) { scanning 0 Group.reset with cmp := { State.reset.cmp with dims := some (16, 16) } } (fun t =>
      t.get (F.SCN_GSTAT_STATE 0) * 10 + (t.group 0).head.k) = 14 := by decide +kernel

/-- A tile with a stopped group and no frame program yet. -/
def unsized (x : Group) : State := { scanning 0 x with cmp := State.reset.cmp }

theorem witness_GroupsStartStopAndHold :
    (unsized Group.reset).isTile = true ∧ (unsized Group.reset).groupUsed 0 = true ∧ (unsized Group.reset).get (F.SCN_GSTAT_STATE 0) ≠ 1
    ∧ ((unsized { Group.reset with sliceHold := true }).group 0).sliceHold = true
    ∧ (match (unsized Group.reset).checkSlot 0 0 none (unsized Group.reset).period [] with | .ok p => p.head == scanHead | .error _ => false) = true
    ∧ (match (unsized Group.reset).checkSlot 0 1 none (unsized Group.reset).period [] with | .ok _ => false | .error e => e == (1, 0)) = true
    ∧ (unsized Group.reset).otherRunning 0 = [] ∧ ((scanning 1 visiting).group 0).line = some 0
    ∧ ((scanning 1 Group.reset).group 0).line = none ∧ (put [(F.HKP_STAT_TRIP, 1)] tile).tripCondition = true
    ∧ tile.tripCondition = false ∧ State.reset.isTile = false := by decide +kernel
/-! ### Surfaces -/

/-- A raw handle of one block with two slots. -/
def rawHandle (a b : Slot) : Handle := ⟨6, false, 1, 1, 0, 0, 1, 1, 0x2000, [a, b], some 3, none, none, none, [], 0⟩

/-- A slot in a state with generation 3. -/
def slot3 (st : Nat) : Slot := ⟨st, 3, 0, false⟩

/-- A sender with 1 MiB of DRAM that holds a descriptor of such a handle for handle 2, and handles. -/
def codec (l : List (Nat × Handle)) : State :=
  let s := put [(F.MEM_SIZE_MIB, 1)]
  ({ s with srf := l }).putBytes 0x40 (leBytes 4 0x16 ++ leBytes 4 0x10001 ++ leBytes 4 0 ++ leBytes 4 0x10001 ++ leBytes 8 0x2000 ++ leBytes 8 0)

/-- RESULT after a codec command. -/
def result (c : Instr) (s : State) : Nat := after c s fun t => t.get F.SRF_CMDSTAT_RESULT

theorem test_create : after (.create 2) (codec []) (fun t => t.get F.SRF_CMDSTAT_RESULT * 100 + t.srf.length * 10
    + ((t.handle 2).map (·.slots.length)).getD 0) = 12 := by decide +kernel
theorem test_create_again_refused : result (.create 2) (codec [(2, rawHandle .empty .empty)]) = 2 := by decide +kernel
theorem test_open_old_generation_refused : result (.openGen 2 3) (codec [(2, rawHandle .empty .empty)]) = 2
    ∧ result (.openGen 2 4) (codec [(2, rawHandle .empty .empty)]) = 0 := by decide +kernel
theorem test_free_in_use_deferred :
    result (.freeGen 2 3) { codec [(2, rawHandle (slot3 3) .empty)] with tim := { State.reset.tim with
      queues := State.reset.tim.queues.set 0 [⟨0, 2, 0, 0, 0, 2, 3, true⟩] } } = 1 := by decide +kernel

/-- The sender with a codec command in hand, that ends at tick 5. -/
def commanded (value : Word) : State :=
  { put [(F.SRF_CMDSTAT_BUSY, 1), (F.SRF_CMDSTAT_RESULT, 15)] (codec [(2, rawHandle .empty .empty)]) with codec := some (value, 5) }

/-- A tile that releases a generation, with the newest that a finished composition used. -/
def passing (done : Option (Nat × Nat)) (b : Slot) : State :=
  put [(F.BOT_STAT_ROLE, 1)] (codec [(2, { rawHandle (slot3 5) b with done := done, used := done })])

theorem witness_CodecCommandsManageHandlesAndSlots :
    (codec []).memSound = true ∧ (codec []).handle 2 = none ∧ inDram ((codec []).get F.SRF_HTBASE_ADDR * 4096 + 32 * 2) = true
    ∧ inDram ((put [(F.SRF_HTBASE_ADDR, 0x400000)]).get F.SRF_HTBASE_ADDR * 4096) = false
    ∧ ((codec []).loadData 0x40 32).isSome = true ∧ State.reset.loadData 0x40 32 = none
    ∧ ((codec []).loadData 0x40 32).bind handleOf = some { rawHandle .empty .empty with opened := none }
    ∧ ((codec []).loadData 0x60 32).bind handleOf = none
    ∧ 0x2000 + 2 * (rawHandle .empty .empty).slotSize ≤ (codec []).dramBytes ∧ (codec []).slotTotal + 2 ≤ 16384
    ∧ (rawHandle .empty .empty).whole = true ∧ fmtRaw 6 = true ∧ fmtRaw 5 = false ∧ genLater 4 3 = true ∧ genLater 3 3 = false
    ∧ (codec [(2, rawHandle (slot3 3) .empty)]).slotFor 2 (rawHandle (slot3 3) .empty) = some 1
    ∧ (codec []).slotFor 2 (rawHandle (slot3 1) (slot3 3)) = none
    ∧ (rawHandle (slot3 3) .empty).find 3 = some 0 ∧ (rawHandle (slot3 3) .empty).find 4 = none
    ∧ (codec []).inMemory ((rawHandle .empty .empty).slotAddr 1) 4096 = true ∧ (codec []).chFailed 0 = false
    ∧ (codec []).chFailed 1 = false ∧ (codec []).inMemory ((rawHandle .empty .empty).mapAddr 0) 1 = true
    ∧ (codec []).genInUse 2 (rawHandle .empty .empty) (slot3 3) = false
    ∧ ({ codec [] with tim := { State.reset.tim with queues := State.reset.tim.queues.set 0 [⟨0, 2, 0, 0, 0, 2, 3, true⟩] } } : State).genInUse 2
      (rawHandle .empty .empty) (slot3 3) = true
    ∧ getBits (0x00030024 : Word) 0 4 = 4 ∧ getBits (0x00030024 : Word) 4 12 = 2 ∧ getBits (0x00030024 : Word) 16 16 = 3
    ∧ getBits (8 : Word) 0 4 ∉ [1, 2, 3, 4, 5, 6, 7]
    ∧ (codec []).codec = none ∧ (commanded 0x00030024).codec = some (0x00030024, 5) ∧ (commanded 0).tim.ticks + 4 < 5
    ∧ Reg.ofAddr (0xF000060004 : BitVec 40).toNat = some .SRF_CMD
    ∧ (passing (some (4, 0)) .empty).memSound = true ∧ (passing (some (4, 0)) .empty).isTile = true
    ∧ (rawHandle (slot3 5) .empty).find 3 = some 0
    ∧ (slot3 5).olderThan (4, 0) = true ∧ (passing (some (3, 0)) .empty).genInUse 2 (rawHandle (slot3 5) .empty) (slot3 5) = false := by
  decide +kernel

/-- A codec command given by a write ends. -/
theorem test_codec_ends : result (.timeTick 5) (commanded 0x00000027) = 0 ∧ result (.timeTick 5) (commanded 0x00030024) = 2
    ∧ after (.timeTick 4) (commanded 0x00000027) (fun t => t.get F.SRF_CMDSTAT_BUSY) = 1
    ∧ after (.create 3) (commanded 0x00000027) (fun t => t.get F.SRF_CMDSTAT_LOST) = 1 := by decide +kernel

/-- The same sender with a stream whose open frame's generation is in the raw handle. -/
def codecStream : State :=
  let s := put [(F.ING_SHANDLE_HANDLE 0, 2)] (codec [(2, rawHandle (slot3 1) .empty)])
  let x : Stream := { Stream.reset with frames := [⟨0, 3, 0, true, 0, [], [], false, false, none⟩] }
  { s with ing := { s.ing with streams := s.ing.streams.set 0 x } }

theorem witness_CodecCommandsManageHandlesAndSlots_free :
    codecStream.get (F.ING_SHANDLE_HANDLE 0) = 2
    ∧ ((codecStream.stream 0).frames.any fun f => f.held && f.gen == 3) = true := by decide +kernel

/-! ### Source ingest -/

/-- The CRC-32 that the spec gives of the nine bytes "123456789". -/
theorem test_crc32_check : crc32 [0x31, 0x32, 0x33, 0x34, 0x35, 0x36, 0x37, 0x38, 0x39] = 0xCBF43926 := by decide +kernel

/-- A sender with source port 4 in use, its addresses set, stream 0 of 8 by 8 pixels of RGB in 8 bits with flow A on that
port, and the handle that takes it. -/
def ingest (frames : List OpenFrame) (st : Nat) : State :=
  let s := put [(F.ING_QCFG_MODE 1, 2), (F.ING_MACHI_MAC, 0), ((Reg.ING_MACLO).whole, 0x100), ((Reg.ING_PADDR 4).whole, 0x0A000004),
    (F.ING_SCTL_EN 0, 1), (F.ING_SPORTA_EN 0, 1), (F.ING_SPORTA_SRCPORT 0, 4), ((Reg.ING_SDSTA 0).whole, 0xEF000001),
    (F.ING_SPORTA_UDP 0, 5004), (F.ING_SFMT_SAMP 0, 2), (F.ING_SFMT_DEPTH 0, 0), (F.ING_SSIZE_W 0, 8), (F.ING_SSIZE_H 0, 8),
    (F.ING_SRATE_NUM 0, 50), (F.ING_SRATE_DEN 0, 1), (F.ING_SHANDLE_HANDLE 0, 2), (F.TIM_STAT_VALID, 1), (F.ING_SSTAT_STATE 0, 2),
    (F.MEM_SIZE_MIB, 1)]
  { s with
    srf := [(2, ⟨1, false, 1, 1, 0, 0, 1, 1, 0x2000, [⟨st, 3, 0, false⟩, Slot.empty], none, none, none, none, [], 0⟩)]
    ing := { s.ing with streams := s.ing.streams.set 0 { Stream.reset with frames := frames } } }

/-- The datagram of a stream: an RTP packet with the first row's first pixels. -/
def rtp (seq stamp : Nat) : List Byte :=
  [0x80, 96] ++ beBytes 2 seq ++ beBytes 4 stamp ++ beBytes 4 0 ++ beBytes 2 0 ++ beBytes 2 3 ++ beBytes 2 0 ++ beBytes 2 0
    ++ List.replicate 3 0xFF

/-- A frame with a datagram of the flow, or of another UDP port, and one with an ARP request for the port. -/
def flowFrame (dport : Nat) (l : List Byte) : List Byte :=
  etherFrame (groupMac 0xEF000001) 0x42 0x0800 (udpPacket 0x0A000001 0xEF000001 9 dport l)
def arpFrame : List Byte :=
  etherFrame 0xFFFFFFFFFFFF 0x42 0x0806 (beBytes 8 0x0001080006040001 ++ beBytes 6 0x42 ++ beBytes 4 0x0A000001 ++ beBytes 6 0
    ++ beBytes 4 0x0A000004)

/-- An open frame of media tick count 0 with pixels. -/
def openFrame (px : List StagedPixel) (closed : Bool) : OpenFrame := ⟨0, 3, 0, true, 0, px, [], closed, false, none⟩

theorem test_packet_stages :
    after (.ethernetFrame 4 ⟨(flowFrame 5004 (rtp 1 0)), 0⟩) (ingest [openFrame [] false] 1) (fun t =>
      (t.stream 0).frames.foldl (fun a f => a * 100 + f.pixels.length) 0) = 1 := by decide +kernel
theorem test_short_frame_dropped :
    after (.ethernetFrame 4 ⟨(arpFrame.drop 1), 0⟩) (ingest [] 0) (fun t => t.get (F.ING_PDROP_COUNT 4)) = 1 := by decide +kernel
theorem test_unknown_port_dropped :
    after (.ethernetFrame 4 ⟨(flowFrame 5006 []), 0⟩) (ingest [] 0) (fun t => t.get (F.ING_PDROP_COUNT 4)) = 1 := by decide +kernel
theorem test_arp_answered : after (.ethernetFrame 4 ⟨arpFrame, 0⟩) (ingest [] 0) (fun t => match t.sent with
    | [.ethernet p l] => p * 1000 + l.length | _ => 0) = 4064 := by decide +kernel

/-- What the port makes of that datagram: the address accepted, the protocol, the flow and whether it is RTP; and of its
RTP packet. -/
def seen : Option (Bool × Nat × Option (Nat × Bool) × Bool) :=
  (parseEther (flowFrame 5004 (rtp 1 0))).bind fun f => (parseIp f.payload).bind fun p => (parseUdp p).map fun d =>
    ((ingest [] 0).macAccepted 4 f, p.proto, (ingest [] 0).flowOf 4 p.dst d.dport, (parseRtp d.data).isSome)
def seenRtp : Option (Bool × Nat × Nat × Nat) :=
  (parseRtp (rtp 1 0)).map fun r => ((ingest [] 0).rtpOk 0 r, ((ingest [] 0).stream 0).seqCheck r.seq,
    unwrapStamp (ingest [] 0).now r.stamp, (r.rows.flatMap ((ingest [] 0).segment 0)).length)

/-- A stream that has had packet 1. -/
def heardOne : Stream := { Stream.reset with seqs := [1] }

theorem witness_SourceFramesReachHostsPtpAndStreams :
    (ingest [] 0).sourcePort 4 = true ∧ (ingest [] 0).isTile = false ∧ (ingest [] 0).bootNet = false ∧ (ingest [] 0).sourcePort 0 = false
    ∧ (parseEther (arpFrame.drop 1)).isNone = true
    ∧ (parseEther arpFrame).map (fun f => (f.type, (ingest [] 0).macAccepted 4 f, beAt f.payload 0 8, beAt f.payload 24 4))
      = some (0x0806, true, 0x0001080006040001, 0x0A000004)
    ∧ (ingest [] 0).maySend 4 = true ∧ (ingest [] 0).hostPort 4 = false ∧ (ingest [] 0).portIp 4 = 0x0A000004
    ∧ (ingest [] 0).on F.TIM_STAT_VALID = true := by decide +kernel
theorem witness_SourceFramesReachHostsPtpAndStreams_flow :
    seen = some (true, 17, some (0, false), true) ∧ seenRtp = some (true, 0, 0, 1)
    ∧ (ingest [] 0).flowOf 4 0xEF000001 5006 = none ∧ (parseRtp []).isNone = true
    ∧ ((ingest [openFrame [] false] 1).openFrames 0).find? (fun f => f.m == 0) = some (openFrame [] false)
    ∧ ((ingest [] 0).stream 0).lastGen = none ∧ ((ingest [] 0).stream 0).refused = []
    ∧ heardOne.seqCheck 1 = 1 ∧ 0x11 = beAt [0x11] 0 1 ∧ hostMessageGood [] = false := by
  decide +kernel

theorem test_loss : after (.streamLoss 0) (ingest [openFrame [] false] 1) (fun t =>
    t.get (F.ING_SSTAT_STATE 0) * 10 + ((t.stream 0).frames.map fun f => f.closed.toNat).foldl (· + ·) 0) = 31 := by decide +kernel
theorem test_generation_completes :
    after (.generationComplete 0 3) (ingest [openFrame [] true] 1) (fun t =>
      (t.handle 2).map (fun x => (x.slots.getD 0 Slot.empty).st * 100 + ((x.used.map (·.1)).getD 0) * 10) |>.getD 0) = 330 := by decide +kernel

/-- An open frame behind a later one that opened at tick 0, and a stream with it, 4 ms later. -/
def lateFrame (held : Bool) (l : List StagedPixel) : OpenFrame := { openFrame l false with held := held, later := some 0 }
def skewed (held : Bool) (l : List StagedPixel) : State :=
  let s := put [(F.ING_SCTL_SKEW 0, 4)] (ingest [lateFrame held l] 1)
  { s with tim := { s.tim with ticks := 625000 } }

theorem test_skew_closes :
    after (.frameCloseSkew 0) (skewed true []) (fun t => t.get (F.ING_SSTAT_EVERR 0) * 10
      + ((t.stream 0).frames.map fun f => f.closed.toNat).foldl (· + ·) 0) = 11
    ∧ after (.frameCloseSkew 0) (ingest [lateFrame true []] 1) (fun t =>
      ((t.stream 0).frames.map fun f => f.closed.toNat).foldl (· + ·) 0) = 0 := by decide +kernel

theorem witness_StreamsOpenCloseAndComplete :
    (ingest [] 0).memSound = true ∧ (put [(F.ING_SCTL_EN 0, 0)] (ingest [] 0)).streamOn 0 = false ∧ (ingest [] 0).streamOn 0 = true
    ∧ (ingest [] 0).streamFits 0 = true ∧ (ingest [] 0).streamRate 0 ≤ 2000000 ∧ (ingest [] 0).codecAccepts 0 = true
    ∧ State.reset.streamFits 0 = false ∧ (ingest [] 0).get (F.ING_SSTAT_STATE 0) ≠ 3
    ∧ (put [(F.ING_SSTAT_PATHB 0, 1)] (ingest [] 0)).on (F.ING_SSTAT_PATHB 0) = true
    ∧ (ingest [openFrame [] false, { openFrame [] false with m := 1 }] 1).openFrames 0 = [openFrame [] false, { openFrame [] false with m := 1 }]
    ∧ (ingest [] 0).frameFull 0 (openFrame [] false) = false ∧ (ingest [] 0).frameFull 0 (openFrame (List.replicate 64 ⟨0, 0, 0, 0⟩) false) = true
    ∧ ((ingest [openFrame [] true] 1).stream 0).frames.find? (fun f => f.held && f.gen == 3) = some (openFrame [] true)
    ∧ 0 < (ingest [] 0).blockRows 0 ∧ ((ingest [openFrame [] true] 1).frameSlot 0 (openFrame [] true)).isSome = true
    ∧ (ingest [] 0).frameSlot 0 (openFrame [] true) = none ∧ (ingest [] 0).inMemory 0x2000 4096 = true
    ∧ (ingest [] 0).on (F.LAN_CTL_EN 7) = false ∧ (ingest [] 0).groups 4 = [0xEF000001] ∧ (ingest [] 0).groups 5 = []
    ∧ ({ (ingest [] 0).ing.ptp with selected := some (4, 0) } : PtpState).selected = some (4, 0)
    ∧ (skewed true []).tim.ticks = 625000 ∧ (skewed true []).get (F.ING_SCTL_SKEW 0) * 156250 ≤ 625000
    ∧ (skewed true []).frameFull 0 (lateFrame true []) = false ∧ (skewed true (List.replicate 64 ⟨0, 0, 0, 0⟩)).memSound = true
    ∧ (skewed true (List.replicate 64 ⟨0, 0, 0, 0⟩)).frameFull 0 (lateFrame true (List.replicate 64 ⟨0, 0, 0, 0⟩)) = true
    ∧ (skewed false []).memSound = true ∧ (put [(F.ING_SCTL_INCPOL 0, 1)] (skewed true [])).on (F.ING_SCTL_INCPOL 0) = true
    ∧ (skewed true []).on (F.ING_SCTL_INCPOL 0) = false ∧ (ingest [openFrame [] true] 1).memSound = true
    ∧ (ingest [openFrame [] true] 0).memSound = true := by decide +kernel

/-! ### The sender pair -/

/-- A sender of a pair in a role with port 8 up and a partner that was heard as lead a tick ago, or not. -/
def pairIn (role : Nat) (heard : Bool) : State :=
  let s := put [(F.LNK_CFG_PAIR, 1), (F.MIR_STAT_ROLE, role), (F.LNK_PSTAT_STATE 8, 2), (F.MIR_CFG_HBPER, 10), (F.MIR_CFG_AUTOTAKE, 1),
    (F.MIR_CFG_SILEN, 1), (F.LNK_PSTAT_STATE 0, 2), ((Reg.MIR_PEPOCH).whole, 5)]
  { s with
    tim := { s.tim with ticks := 1 }
    mir := { s.mir with
      lastLead := if heard then some 0 else none, lastHb := if heard then some 0 else none
      tags := [⟨0, 7, 1, 1, 0, 9, 0, 1, false⟩] } }

/-- A handover armed for a time since another. -/
def handing (role th : Nat) (since : Option Nat) : State :=
  let s := pairIn role true
  { s with mir := { s.mir with handover := some (th, since) }, tim := { s.tim with wall := 65536 * 10000000000 } }

theorem test_become_lead : after .becomeLead (pairIn 2 false) (fun t => t.role * 10 + (t.rd .MIR_PEPOCH).toNat) = 16
    ∧ after .becomeLead (pairIn 2 true) (fun t => t.role * 10 + (t.rd .MIR_PEPOCH).toNat) = 25 := by decide +kernel
theorem test_takeover_adopts_tags :
    after (.takeover none) (pairIn 2 false) (fun t => t.role * 100 + t.lnk.tags.length * 10 + t.mir.tags.length) = 110 := by decide +kernel
theorem test_outranked_lead_is_deposed :
    after (.heartbeat 1 false false 6 1 0 0) (pairIn 1 true) (fun t => t.role) = 3 := by decide +kernel

/-- A new lead to which the host has not moved yet, with a partner that is ready. -/
def lateHost (late : Bool) : State :=
  let s := handing 1 9000000000 none
  { s with mir := { s.mir with hostLate := late, partnerReady := true } }

theorem test_handover_too_late :
    after .handoverAtTh (handing 2 9000000000 (some 9000000000)) (fun t => t.get F.MIR_STAT_HORES * 10 + t.role) = 32
    ∧ after .handoverAtTh (handing 2 9000000000 (some 2446400000)) (fun t => t.get F.MIR_STAT_HORES * 10 + t.role) = 11 := by
  decide +kernel

theorem witness_ThePairKeepsOneLeadAndItsMirror :
    (pairIn 2 false).memSound = true ∧ (pairIn 2 false).isTile = false ∧ (pairIn 2 false).paired = true
    ∧ (pairIn 2 false).hbRecent (pairIn 2 false).mir.lastLead = false ∧ (pairIn 2 true).hbRecent (pairIn 2 true).mir.lastLead = true
    ∧ (pairIn 2 true).on F.MIR_CFG_AUTOTAKE = true ∧ (pairIn 2 true).up 0 = true ∧ (pairIn 2 true).split 0 = false
    ∧ (pairIn 2 true).up 7 = false ∧ (pairIn 1 true).get F.MIR_STAT_ROLE = 1
    ∧ (handing 1 9000000000 (some 0)).mir.handover = some (9000000000, some 0) ∧ 9000000000 ≤ (handing 1 9000000000 (some 0)).now
    ∧ ¬ 9000000000 < 0 + 100000 * 65536 ∧ (handing 2 0 none).now < 99999999999 ∧ (pairIn 0 false).get F.MIR_STAT_ROLE = 0
    ∧ (put [(F.MIR_STAT_PROLE, 2), (F.MIR_STAT_PARTNER, 1)] (handing 1 9000000000 (some 0))).get F.MIR_STAT_PROLE = 2
    ∧ (pairIn 2 true).up 8 = true ∧ (4 : BitVec 32).toNat < ((pairIn 1 true).rd .MIR_PEPOCH).toNat
    ∧ ((pairIn 1 true).rd .MIR_PEPOCH).toNat < (6 : BitVec 32).toNat ∧ (5 : BitVec 32) = (pairIn 1 true).rd .MIR_PEPOCH
    ∧ (put [(F.MIR_STAT_READY, 1)] (pairIn 2 true)).on F.MIR_STAT_READY = true
    ∧ (put [(F.MIR_HRBASE_EN, 1)] (pairIn 2 true)).on F.MIR_HRBASE_EN = true ∧ (0 + 1) % 64 ≠ (pairIn 2 true).get F.MIR_HRTAIL_SLOT
    ∧ (put [(F.MIR_HRTAIL_SLOT, 1)] (pairIn 2 true)).get F.MIR_HRTAIL_SLOT = 1
    ∧ (handing 2 9000000000 (some 9000000000)).mir.handover = some (9000000000, some 9000000000)
    ∧ 9000000000 < 9000000000 + 100000 * 65536 ∧ 9000000000 ≤ (handing 2 9000000000 (some 9000000000)).now
    ∧ (handing 1 9000000000 none).mir.handover = some (9000000000, none) ∧ 2446400000 + 100000 * 65536 ≤ 9000000000
    ∧ (lateHost true).get F.MIR_STAT_ROLE = 1 ∧ (lateHost true).mir.hostLate = true ∧ (lateHost true).isTile = false
    ∧ (put [(F.MIR_STAT_PROLE, 2), (F.MIR_STAT_PARTNER, 1)] (lateHost false)).mir.partnerReady = true := by decide +kernel

/-- A shadow that has received a checkpoint page, and a lone token. -/
def checkpointing : State :=
  let s := pairIn 2 true
  { s with mir := { s.mir with ckRx := some (7, 4096), tokens := [⟨3, token 0, false⟩] } }

theorem witness_ThePairKeepsOneLeadAndItsMirror_more :
    checkpointing.mir.ckRx = some ((7 : BitVec 16).toNat, (1 : BitVec 13).toNat * 4096)
    ∧ (pairIn 1 true).on F.MIR_CKSTAT_BUSY = false ∧ (Cell.decode []).isNone = true
    ∧ (Cell.decode (Cell.request 0 ⟨0, 1, 1, 1, 0, [], 0⟩).units).isSome = true
    ∧ (checkpointing.mir.tokens.find? fun t => t.ring == 3).isSome = true := by decide +kernel
/-! ### DRAM -/

/-- A part with both channels in states, DRAM of 8 GiB configured and ready. -/
def dram (a b : Nat) : State :=
  put [(F.MEM_CHSTAT_STATE 0, a), (F.MEM_CHSTAT_STATE 1, b), (F.MEM_STAT_READY, 1), (F.MEM_SIZE_MIB, 0x2000), (F.MEM_SCRUB_HOURS, 24),
    (F.MEM_NBR_PROB, 1)]

/-- Channel 0's hidden record changed. -/
def dramWith (f : DramChan → DramChan) : State := let s := dram 2 2; { s with dram := s.dram.set 0 (f s.dram[0]) }

theorem test_train_lists : after .train (put [(F.MEM_CFG_WIDTH, 1), (F.MEM_CFG_DENS, 0)]) (fun t =>
    t.get (F.MEM_CHSTAT_STATE 0) * 10 + t.get (F.MEM_CHSTAT_FAILSTEP 0)) = 39
    ∧ after .train State.reset (fun t => t.get (F.MEM_CHSTAT_STATE 1)) = 1 := by decide +kernel
theorem test_training_gives_size :
    after (.trainingComplete 1 false 1 false 0 0) (put [(F.MEM_STAT_READY, 0), (F.MEM_SIZE_MIB, 0)] (dram 2 1)) (fun t =>
      t.get F.MEM_SIZE_MIB + (t.on F.MEM_STAT_READY).toNat) = 0x4001 := by decide +kernel
theorem test_fourth_alert_fails :
    after (.parityAlert 0 true) (dramWith fun x => { x with replays := 3 }) (fun t =>
      t.get (F.MEM_CHSTAT_STATE 0) * 10 + t.get (F.MEM_CHSTAT_FAILSTEP 0)) = 38 := by decide +kernel
theorem test_scrub_corrects :
    after (.patrolScrub 1 3) { dram 2 2 with soft := [0x1018] } (fun t => t.soft.length * 10 + t.get (F.MEM_CECNT_COUNT 1)) = 1 := by
  decide +kernel

theorem witness_DramTrainsKeepsAndRepairs :
    (dram 0 0).memSound = true ∧ (dram 0 0).get (F.MEM_CHSTAT_STATE 0) = 0 ∧ (dram 2 1).get (F.MEM_CHSTAT_STATE 1) = 1
    ∧ (State.reset.get F.MEM_CFG_WIDTH, State.reset.get F.MEM_CFG_DENS, State.reset.get F.MEM_CFG_RANKS) = (0, 1, 0)
    ∧ State.reset.get F.MEM_CFG_WIDTH = b2n false ∧ State.reset.get F.MEM_CFG_RANKS ≤ b2n false ∧ State.reset.get F.MEM_CFG_DENS ≤ (1 : BitVec 2).toNat
    ∧ ¬ (put [(F.MEM_CFG_DENS, 1)]).get F.MEM_CFG_DENS ≤ (0 : BitVec 2).toNat ∧ State.reset.get F.MEM_CFG_WIDTH ≠ b2n true
    ∧ State.reset.on F.MEM_STAT_READY = false ∧ (dram 2 2).inMemory 0x1018 8 = true ∧ (dram 2 2).bad 0x1018 = false
    ∧ ({ dram 2 2 with poison := [(0x1018, false)] } : State).bad 0x1018 = true ∧ (dram 2 2).get F.MEM_STAT_SR = 0
    ∧ ((dramWith fun x => { x with replays := 2 }).dram[(0 : Fin 2)]).replays + 1 < 4
    ∧ ((dramWith fun x => { x with alert := true }).dram[(0 : Fin 2)]).alert = true
    ∧ ((dram 2 2).get (F.MEM_ADJ_MASK 0)).testBit ((dram 2 2).get (F.MEM_ADJ_SEL 0)) = false
    ∧ (dram 2 2).on (F.MEM_CHSTAT_PPRBUSY 0) = false ∧ (dram 2 2).get F.BOT_STAT_STAGE < 6
    ∧ (put [(F.BOT_STAT_STAGE, 6), (F.BOT_LCS_STATE, 2)]).get F.BOT_LCS_STATE = 2
    ∧ ((dramWith fun x => { x with ppr := some 1 }).dram[(0 : Fin 2)]).ppr = some 1 ∧ (dram 2 2).remaps 0 = []
    ∧ (put [(F.MEM_CFG_RSV, 1)] (dram 2 2)).get F.MEM_CFG_RSV = 1 ∧ (dram 2 2).on (F.MEM_REMAP_VALID 0 63) = false
    ∧ ((dramWith fun x => { x with remap := some (63, 5) }).dram[(0 : Fin 2)]).remap = some (63, 5)
    ∧ (put [(F.MEM_SRCTL_IDLE, 1)] (dram 2 2)).get F.MEM_SRCTL_IDLE ≠ 0 ∧ (put [(F.MEM_STAT_SR, 1)] (dram 2 2)).get F.MEM_STAT_SR = 1
    ∧ (dram 2 2).on F.CLK_STAT_COAST = false := by decide +kernel

/-- A part at a number of ticks since reset, whose refreshes and ZQCS were last issued at reset, with refreshes owed. -/
def upkeep (ticks sr : Nat) (owed : List Nat) : State :=
  let s := put [(F.MEM_STAT_SR, sr)] (dramWith fun x => { x with postponed := owed })
  { s with tim := { s.tim with ticks := ticks } }

theorem test_ninth_refresh :
    after (.dramRefresh 0 false true) (upkeep 1219 0 [8, 0]) (fun t => t.sent.length * 100 + t.dram[0].postponed.getD 0 0) = 108
    ∧ after (.dramRefresh 0 false false) (upkeep 1219 0 [8, 0]) (fun t => t.sent.length * 100 + t.dram[0].postponed.getD 0 0) = 900
    ∧ after (.dramRefresh 0 false false) (upkeep 1218 0 [8, 0]) (fun t => t.sent.length * 100 + t.dram[0].postponed.getD 0 0) = 8 := by
  decide +kernel
theorem test_zqcs_due : after .zqcs (upkeep 20000000 0 [0, 0]) (fun t => t.sent.length) = 2
    ∧ after .zqcs (upkeep 19999999 0 [0, 0]) (fun t => 1 + t.sent.length) = 1 := by decide +kernel
theorem witness_DramTrainsKeepsAndRepairs_upkeep :
    20000000 ≤ (upkeep 20000000 0 [0, 0]).tim.ticks ∧ 78000 ≤ ((upkeep 1219 0 [8, 0]).tim.ticks - 0) * 64
    ∧ (upkeep 1219 0 [8, 0]).dram[0].postponed = [8, 0] ∧ (upkeep 1219 0 [8, 0]).dram[0].refreshed = [0, 0]
    ∧ (upkeep 1219 2 [0, 0]).get F.MEM_STAT_SR = 2
    ∧ (let s := put [(F.BOT_LCS_STATE, 2)] (dram 2 2)
       ({ s with bot := { s.bot with dawned := true } } : State).pprPermitted = false) := by decide +kernel

/-! ### Power -/

/-- A sender whose control acts, with VCORE at a code between limits 10 and 50. -/
def avs (code above : Nat) : State :=
  let s := put [(F.PWR_AVSCFG_EN, 1), (F.PWR_STAT_COLD, 0), (F.PWR_AVSLIM_VMIN, 10), (F.PWR_AVSLIM_VMAX, 50), (F.PWR_VCORE_CODE, code),
    (F.PWR_AVSCFG_SLACKLO, 10), (F.PWR_AVSCFG_SLACKHI, 20), (F.PWR_AVSCFG_HOLDN, 3), (F.PWR_AVSCFG_UPMISS, 4)]
  { s with pwr := { s.pwr with above := above } }

/-- A tile with LED rail 1 allowed, on or off. -/
def led (on : Nat) : State :=
  put [(F.PWR_LEDMAP_EN 1, on), (F.PWR_LEDLIM_VMAX 1, 4000), (F.PWR_LEDLIM_VMIN 1, 3000), (F.PWR_PHASE_RAIL 3, 3)] tile

theorem test_avs_limits :
    after (.senderAvsWindow 50 false) (avs 50 0) (fun t => t.get F.PWR_VCORE_CODE * 10 + (t.on F.PWR_STAT_ATMAX).toNat) = 501
    ∧ after (.senderAvsWindow 201 false) (avs 20 2) (fun t => t.get F.PWR_VCORE_CODE) = 19
    ∧ after (.senderAvsWindow 0 true) (avs 48 0) (fun t => t.get F.PWR_VCORE_CODE) = 50 := by decide +kernel
theorem test_led_on : after (.ledRailEnable 1) (led 0) (fun t => t.get (F.PWR_LEDMAP_EN 1)) = 1 := by decide +kernel
theorem test_midnight : after .pfailDetect State.reset (fun t => t.get F.PWR_STAT_MIDNIGHT * 100 + t.get F.BOT_STAT_STAGE * 10
    + t.get F.PWR_STAT_HALTOK) = 171 := by decide +kernel

theorem witness_RailsFollowTheirMeasurementsAndMidnightStops :
    (avs 20 2).isTile = false ∧ (avs 20 2).on F.PWR_AVSCFG_EN = true ∧ (avs 20 2).on F.PWR_STAT_COLD = false
    ∧ (avs 20 2).on F.PWR_STAT_MIDNIGHT = false ∧ (avs 20 2).on F.ASR_STAT_SLICE = false ∧ (avs 20 2).get F.PWR_VCORE_CODE < 50
    ∧ 50 ≤ (avs 50 0).get F.PWR_VCORE_CODE ∧ (99 : BitVec 16).toNat < (avs 20 2).get F.PWR_AVSCFG_SLACKLO * 10
    ∧ (avs 20 2).get F.PWR_AVSCFG_SLACKHI * 10 < (201 : BitVec 16).toNat ∧ max 1 ((avs 20 2).get F.PWR_AVSCFG_HOLDN) ≤ (avs 20 2).pwr.above + 1
    ∧ ¬ max 1 ((avs 20 1).get F.PWR_AVSCFG_HOLDN) ≤ (avs 20 1).pwr.above + 1 ∧ (led 1).get (F.PWR_PHASE_RAIL 3) = (2 : Fin 5).val + 1
    ∧ (led 1).on (F.PWR_LEDMAP_EN 1) = true ∧ State.reset.get (F.PWR_PHASE_RAIL 0) = 1
    ∧ (put [(F.PWR_SNS_KIND 15, 1)]).get (F.PWR_SNS_KIND 15) = 1 ∧ State.reset.get (F.PWR_SNS_KIND 15) ≠ 1
    ∧ (put [(F.PWR_MID_VINEN, 1), (F.PWR_VIN_FAIL, 9)]).on F.PWR_MID_VINEN = true
    ∧ (8 : BitVec 12).toNat < (put [(F.PWR_MID_VINEN, 1), (F.PWR_VIN_FAIL, 9)]).get F.PWR_VIN_FAIL
    ∧ (put [(F.PWR_STAT_MIDNIGHT, 1)]).on F.PWR_STAT_MIDNIGHT = true ∧ State.reset.coreState 0 = 1 ∧ (State.reset.core 0).holdsHalt = false
    ∧ State.reset.asr.jobs = [] ∧ State.reset.anchorDue = false := by decide +kernel
theorem witness_RailsFollowTheirMeasurementsAndMidnightStops_led :
    (led 0).on (F.PWR_LEDMAP_EN 1) = false ∧ (led 0).get (F.PWR_LEDLIM_VMAX 1) ≠ 0
    ∧ (led 0).get (F.PWR_LEDLIM_VMIN 1) ≤ (led 0).get (F.PWR_LEDLIM_VMAX 1) ∧ (led 0).on F.HKP_STAT_TRIP = false
    ∧ ((List.range 16).all fun j => (led 0).get (F.PWR_SNS_KIND j) < 2) = true ∧ (led 1).on F.SCN_STAT_DARK = true
    ∧ (put [(F.SCN_STAT_DARK, 0)] (led 1)).on F.SCN_STAT_DARK = false ∧ (led 1).cmp.frames = []
    ∧ (framed true).cmp.frames = [frame true] := by decide +kernel

/-- The frame after the one shown at instant 131,072. -/
def nextFrame (complete : Bool) : FrameRun := { frame complete with instant := showAt }

/-- A tile with LED rail 1 on, whose groups show a half; a frame follows. -/
def lit (complete : Bool) : State :=
  let s := scanning 1 visiting
  let s := put ([(F.PWR_LEDMAP_EN 1, 1), (F.PWR_LEDLIM_VMAX 1, 4000), (F.PWR_LEDLIM_VMIN 1, 3000), (F.PWR_LEDCFG_VBASE 1, 3300),
    (F.PWR_PHASE_RAIL 3, 3), (F.PWR_PHASE_RAIL 4, 3), (F.PWR_SNS_KIND 15, 3), (F.PWR_SNS_INDEX 15, 1)]
    ++ (List.range 16).map fun g => (F.SCN_GSTAT_STATE g, 1)) s
  { s with
    cmp := { s.cmp with frames := [nextFrame complete] }
    scn := { s.scn with
      noHalf := false, timeHold := false
      period := some ⟨131072, true, false, false, false, none⟩ } }

/-- The same tile with a current input of the rail above its limit. -/
def overloaded : State := put [(F.PWR_SNS_LIM 15, 100), (F.PWR_SVAL_CODE 15, 101)] (lit true)

theorem witness_RailsFollowTheirMeasurementsAndMidnightStops_lit :
    (lit true).isTile = true ∧ (lit true).on (F.PWR_LEDMAP_EN 1) = true ∧ (lit true).darkAhead 0 (some (nextFrame true)) = false
    ∧ (lit false).cmp.frames.head? = some (nextFrame false) ∧ (lit false).darkAhead 0 (some (nextFrame false)) = false
    ∧ (lit true).darkAhead 1 none = false ∧ (led 1).darkAhead 0 none = true
    ∧ 2 ≤ overloaded.get (F.PWR_SNS_KIND 15) ∧ overloaded.get (F.PWR_SNS_INDEX 15) = 1
    ∧ overloaded.get (F.PWR_SNS_LIM 15) < overloaded.get (F.PWR_SVAL_CODE 15) := by decide +kernel
theorem test_rail_setpoints :
    after (.ledSetpointCommand 1 0) (lit false) (fun t => t.get (F.PWR_LEDSTAT_SETMV 1)) = 4000
    ∧ after (.ledSetpointCommand 1 1) (lit true) (fun t => t.get (F.PWR_LEDSTAT_SETMV 1)) = 3300 := by decide +kernel
theorem test_rail_phases : after (.pwmUpdate 2 3000) (lit true) (fun t => match t.sent with
    | [.pwm 3 (some (p, x, _)), .pwm 4 (some (_, y, _))] => p * 1000000 + x * 10000 + y
    | _ => 0) = 4000002000 := by decide +kernel
theorem test_rail_fault : after (.railFault 1) overloaded (fun t => 1 + t.get (F.PWR_LEDMAP_EN 1)) = 1
    ∧ after (.railFault 1) (lit true) (fun t => 1 + t.get (F.PWR_LEDMAP_EN 1)) = 2 := by decide +kernel

/-! ### Housekeeping -/

/-- A tile with a thermistor on channel 0 and no rise recorded; what a cool round leaves. -/
def thermal (cool : Bool) : State :=
  let s := put [(F.HKP_CH_KIND 0, 2), (F.HKP_CSADDR_EN 2, 1)] tile
  { s with hkp := { s.hkp with cool := cool } }

/-- A part with an I²C command or an ID read in progress. -/
def bus (v : Option Word) (id : Bool) : State := { thermal false with hkp := { State.reset.hkp with i2c := v, idReading := id } }

theorem test_tripclr : after .tripclr (put [(F.HKP_STAT_TRIP, 1)] (thermal true)) (fun t => 1 + t.get F.HKP_STAT_TRIP) = 1
    ∧ after .tripclr (put [(F.HKP_STAT_TRIP, 1)] (thermal false)) (fun t => 1 + t.get F.HKP_STAT_TRIP) = 2 := by decide +kernel
theorem test_i2c_read : after (.i2cCommandEnd true 0x11223344) (bus (some 0x80020080) false) (fun t =>
    (t.rd .HKP_I2CDATA).toNat) = 0x3344 := by decide +kernel
theorem test_stuck_bus : after .i2cBusStuck (bus (some 0x80020080) false) (fun t => t.get F.HKP_I2CSTAT_RESULT) = 2 := by
  decide +kernel

theorem witness_SlowRoundsWatchTemperaturesAndTheBusIsServed :
    (thermal true).hkp.cool = true ∧ (thermal false).hkp.cool = false ∧ (thermal false).isTile = true
    ∧ (thermal false).on (F.HKP_CSADDR_EN 2) = true ∧ (thermal false).get (F.HKP_CH_KIND 0) = 2
    ∧ (0x80020080 : Word).getLsbD 31 = true ∧ (thermal false).on F.HKP_I2CSTAT_BUSY = false
    ∧ (bus (some 5) false).hkp.i2c = some 5 ∧ (bus none true).hkp.idReading = true ∧ (bus none false).hkp.i2c = none
    ∧ ({ thermal false with hkp := { (thermal false).hkp with thermRise := true } } : State).hkp.thermRise = true
    ∧ (leBytes 28 0 ++ beBytes 4 (crc32 (leBytes 28 0)).toNat).length = 32
    ∧ beAt (leBytes 28 0 ++ beBytes 4 (crc32 (leBytes 28 0)).toNat) 28 4 = (crc32 (leBytes 28 0)).toNat := by decide +kernel

/-! ### Boot, Dawn, Dusk and the life cycle -/

/-- A manifest of one stage-2 loader for both roles: four bytes at common memory offset 0x2000, with a digest. -/
def manifestHead : List Byte :=
  leBytes 4 0x464D4C56 ++ leBytes 2 1 ++ leBytes 2 3 ++ leBytes 2 0x9128 ++ [1] ++ leBytes 53 0
def manifestEntry : List Byte :=
  [1, 3] ++ leBytes 2 0 ++ leBytes 4 4096 ++ leBytes 4 4 ++ leBytes 4 0 ++ leBytes 8 0xE100002000
    ++ beBytes 48 0x5a667d62430a8c253ebae433333904dc6e1d41dcdc479704773159b905a3ad82d2bad7762d81a366cc46fbb2e2327f5c

/-- A manifest: what it has beside zeros, and zeros up to a length. -/
def manifest (n : Nat) : List Byte := manifestHead ++ manifestEntry ++ List.replicate (n - 136) 0

/-- A part in BLANK with a bundle handed over: what a manifest has beside zeros, and its image. -/
def pushed (head : List Byte) : State :=
  ((put [(F.BOT_STAT_STAGE, 3)]).putBytes 0xE100000000 (head ++ manifestEntry)).putBytes 0xE100002000 [1, 2, 3, 4]

/-- The same bundle with every byte of the manifest written. -/
def imaged : State := (put [(F.BOT_STAT_STAGE, 3)]).putBytes 0xE100002000 [1, 2, 3, 4]
def bundle (l : List Byte) : State := imaged.putBytes 0xE100000000 l
def bundled : State := bundle (manifest 4096)

theorem manifest_length (n : Nat) (h : 136 ≤ n) : (manifest n).length = n := by
  have : (manifestHead ++ manifestEntry).length = 136 := by decide +kernel
  rw [manifest, List.length_append, List.length_replicate, this]
  omega
theorem imaged_wf : Memory.wf imaged.mem = true := by decide +kernel
theorem bundle_bytes (l : List Byte) (n : Nat) (h : l.length = n) : (bundle l).bytes 0xE100000000 n = l := by
  subst h; exact Memory.readBytes_writeBytes l imaged.mem 0xE100000000 imaged_wf
theorem bundled_manifest : bundled.bytes 0xE100000000 4096 = manifest 4096 :=
  bundle_bytes (manifest 4096) 4096 (manifest_length 4096 (by omega))

theorem test_push_bad_magic : after (.bootCheck false) (pushed [0]) (fun t => t.get F.BOT_STAT_ERR * 10 + t.get F.BOT_STAT_STAGE) = 32 := by
  decide +kernel

/-- A part in FIELD that boots from a card, or from none. -/
def cardBoot (c : Option SdCard) : State :=
  let s := put [(F.BOT_STAT_STAGE, 1), (F.BOT_STAT_BOOTSEL, 1), (F.BOT_LCS_STATE, 2)]
  { s with sd := ⟨c, none⟩ }

/-- A card with one partition of type 0xDA from sector 1 on, and nothing in it; and one that is blank. -/
def partCard : SdCard :=
  ⟨4096, false, false, Memory.writeBytes (Memory.writeBytes [] 450 ([0xDA, 0, 0, 0] ++ leBytes 4 1 ++ leBytes 4 4000)) 510 [0x55, 0xAA]⟩
def blankCard : SdCard := ⟨4096, false, false, []⟩

theorem test_boot_without_marker : after (.bootCheck false) (cardBoot (some blankCard)) (fun t => t.get F.BOT_STAT_ERR) = 1 := by
  decide +kernel

theorem bundle_sound (l : List Byte) : (bundle l).memSound = true := by
  have h : Memory.wf (bundle l).mem = true := State.putBytes_wf imaged _ _ imaged_wf
  have h2 : Memory.wf imaged.nvj.data = true := by decide +kernel
  exact (Bool.and_eq_true _ _).mpr ⟨h, h2⟩
theorem bundle_image (l : List Byte) (a : Nat) (h : 0xE100000000 + l.length ≤ a) : (bundle l).byte a = imaged.byte a := by
  rw [State.byte, bundle, State.putBytes, Memory.read_writeBytes _ _ _ _ imaged_wf, if_neg (by omega)]; rfl

theorem bundle_image_bytes (l : List Byte) (n : Nat) (h : l.length = n) (hn : n ≤ 0x2000) :
    (bundle l).bytes 0xE100002000 4 = [1, 2, 3, 4] := by
  have e : (bundle l).bytes 0xE100002000 4 = imaged.bytes 0xE100002000 4 :=
    List.map_congr_left fun i _ => bundle_image l (0xE100002000 + i) (by omega)
  rw [e]; decide +kernel

theorem witness_BootChecksStartTheLoaderOrWait_push :
    bundled.memSound = true ∧ bundled.get F.BOT_STAT_STAGE = 3 ∧ bundled.check5 (bundled.bytes 0xE100000000 4096) = 0
    ∧ bundled.stage2 (bundled.bytes 0xE100000000 4096) = some (manifestEntry ++ leBytes 8 0)
    ∧ sha384 (bundled.bytes (leAt (manifestEntry ++ leBytes 8 0) 16 8) (leAt (manifestEntry ++ leBytes 8 0) 8 4))
      = slice (manifestEntry ++ leBytes 8 0) 24 48 := by
  have h := bundle_image_bytes (manifest 4096) 4096 (manifest_length 4096 (by omega)) (by omega)
  have h1 : leAt (manifestEntry ++ leBytes 8 0) 16 8 = 0xE100002000 := by decide +kernel
  have h2 : leAt (manifestEntry ++ leBytes 8 0) 8 4 = 4 := by decide +kernel
  refine ⟨bundle_sound (manifest 4096), by decide +kernel, ?_, ?_, ?_⟩
  · rw [bundled_manifest]; decide +kernel
  · rw [bundled_manifest]; decide +kernel
  · rw [h1, h2]; exact (congrArg sha384 h).trans (by decide +kernel)

theorem witness_BootChecksStartTheLoaderOrWait :
    (pushed [0]).check5 ((pushed [0]).bytes 0xE100000000 4096) ≠ 0 ∧ (pushed [0]).get F.BOT_STAT_STAGE = 3
    ∧ sha384 [] ≠ slice manifestEntry 24 48
    ∧ (cardBoot none).get F.BOT_STAT_STAGE = 1 ∧ (cardBoot none).aon.phase = 6 ∧ (cardBoot none).bootSource = 1
    ∧ (cardBoot none).sd.card = none ∧ (cardBoot (some blankCard)).sd.card = some blankCard ∧ cardPartition blankCard = none
    ∧ cardPartition partCard = some (1, 4000) ∧ cardMarker partCard 1 4000 = none := by decide +kernel

/-- A journal page with its check word. -/
def nvPageOf (l : List Byte) : List Byte := l ++ checkWord l

/-- A part at a stage with two die sensors that prove the temperature, and journal pages. -/
def proven (stage lc : Nat) (pages : List (Nat × List Byte)) : State :=
  let s := put [(F.BOT_STAT_STAGE, stage), (F.BOT_LCS_STATE, lc), (F.HKP_DIE_VALID 0, 1), (F.HKP_DIE_VALID 1, 1),
    (F.ASR_NVSTAT_CREDITS, 9), (F.TIM_STAT_VALID, 1)]
  { s with nvj := { s.nvj with data := pages.foldl (fun m e => Memory.writeBytes m (e.1 * 32) e.2) [] } }

/-- The same with a seal of this boot, a second old. -/
def sealedAt (stage : Nat) : State :=
  let s := proven stage 2 [(20, nvPageOf (leBytes 4 1 ++ leBytes 6 0 ++ leBytes 2 1 ++ leBytes 4 0 ++ leBytes 4 0 ++ leBytes 8 0))]
  { s with tim := { s.tim with wall := wuOf 1 0 0 * 65536 } }

theorem test_ship : after (.ship 0xC5) (proven 6 1 []) (fun t => (t.bot.lcs.map (·.1)).getD 9) = 2
    ∧ after (.ship 0xC4) (proven 6 1 []) (fun t => t.get F.BOT_LCS_RESULT) = 3
    ∧ after (.ship 0xC5) (proven 6 2 []) (fun t => t.get F.BOT_LCS_RESULT) = 2 := by decide +kernel
theorem test_dawn : after .dawndone (proven 4 2 []) (fun t => t.get F.BOT_STAT_STAGE) = 6 := by decide +kernel

theorem witness_DawnDuskAndTheLifeCycleGoOn :
    (put [(F.HST_STAT_BOOTWAIT, 1)]).on F.HST_STAT_BOOTWAIT = true ∧ (proven 4 2 []).get F.BOT_LCS_STATE ≠ 4
    ∧ (sealedAt 4).get F.BOT_STAT_STAGE = 4 ∧ (sealedAt 4).get F.BOT_SEAL_STATE = 0 ∧ (sealedAt 4).on F.TIM_STAT_VALID = true
    ∧ (sealedAt 4).newestSeal.map (fun l => (leAt l 10 2 % 2, leAt l 16 4, leAt l 4 6)) = some (1, 0, 0)
    ∧ ((sealedAt 4).rd .BOT_MDIG).toNat = 0 ∧ wuSec (sealedAt 4).now = 1 ∧ (sealedAt 4).tempProven = true ∧ (proven 4 2 []).newestSeal = none
    ∧ (proven 5 2 []).get F.BOT_STAT_STAGE = 5 ∧ (proven 6 2 []).get F.BOT_STAT_STAGE = 6
    ∧ (250 * 256 + 256 - 1) / 256 + 100 ≤ (put [(F.BOT_DUSKCFG_BUDGET, 1)]).get F.BOT_DUSKCFG_BUDGET * 1000
    ∧ (put [(F.BOT_DUSKCFG_BUDGET, 0)]).get F.BOT_DUSKCFG_BUDGET * 1000 < 350 ∧ (proven 6 2 []).nvCheck 1 = 0
    ∧ State.reset.nvCheck 1 = 2 ∧ (put [(F.ASR_NVSTAT_CREDITS, 1)] (proven 6 2 [])).nvCheck 2 = 1
    ∧ (List.range 16).map (fun k => max ((proven 6 2 []).floors.getD k 0) ((proven 6 2 []).bootedVersion k)) = (proven 6 2 []).floors
    ∧ (proven 6 2 []).bot.mchk = none ∧ (proven 6 2 []).on F.BOT_LCS_BUSY = false := by decide +kernel
/-- A state with step 5 of Table 20.7 at tick 0. -/
def sinceBoot (ms stage : Nat) (l : List (Fld × Nat) := []) : State :=
  let s := put l (proven stage 2 [])
  { s with bot := { s.bot with step5 := some 0 }, tim := { s.tim with ticks := usTicks (1000 * ms) } }

/-- R485: a LIMIT set to a time already passed completes Dawn at once. -/
theorem test_limit_passed : ((sinceBoot 2000 4).regWrite .BOT_DAWNCFG 0x0002FFFF .core).get F.BOT_STAT_STAGE = 6
    ∧ ((sinceBoot 1999 4).regWrite .BOT_DAWNCFG 0x0002FFFF .core).get F.BOT_STAT_STAGE = 4
    ∧ ((sinceBoot 1000 4).regWrite .BOT_DAWNCFG 0x0000FFFF .core).get F.BOT_STAT_STAGE = 6 := by decide +kernel
/-- R485: a TWAIT already passed decides the seal at once; without one the power-on tests run. -/
theorem test_wait_passed : after .sealDecision (sinceBoot 499 4 [(F.TIM_STAT_VALID, 0)]) (·.get F.BOT_SEAL_STATE) = 0
    ∧ after .sealDecision (sinceBoot 500 4 [(F.TIM_STAT_VALID, 0)]) (·.get F.BOT_SEAL_STATE) = 2
    ∧ ((sinceBoot 9 4).regWrite .BOT_DAWNCFG 0x001E0009 .core).get F.BOT_STAT_STAGE = 5 := by decide +kernel

theorem witness_DawnDuskAndTheLifeCycleGoOn_times :
    (∃ n, (sinceBoot 500 4 [(F.TIM_STAT_VALID, 0)]).bot.step5 = some n ∧ n + usTicks (500 * 1000)
      ≤ (sinceBoot 500 4 [(F.TIM_STAT_VALID, 0)]).tim.ticks)
    ∧ (∃ n, (sinceBoot 30000 4).bot.step5 = some n ∧ n + usTicks (max 1 30 * 1000000) ≤ (sinceBoot 30000 4).tim.ticks)
    ∧ (put [(F.BOT_LCS_BUSY, 1)]).on F.BOT_LCS_BUSY = true := by
  refine ⟨⟨0, rfl, by decide +kernel⟩, ⟨0, rfl, by decide +kernel⟩, by decide +kernel⟩

theorem witness_DawnDuskAndTheLifeCycleGoOn_more :
    (({ proven 6 2 [] with bot := { State.reset.bot with booted := [(1, 5)] } } : State).bootedVersion 1 = 5)
    ∧ (proven 6 0 []).get F.BOT_LCS_STATE = 0 ∧ zeros ((proven 6 0 []).bytes 0xE100000000 96) 80 16 = true
    ∧ zeros (((proven 6 0 []).putBytes 0xE10000005F [1]).bytes 0xE100000000 96) 80 16 = false
    ∧ ((proven 6 2 []).bytes 0xE100000000 224).take 16 = (proven 6 2 []).devidBytes
    ∧ State.reset.tempProven = false ∧ (proven 6 1 []).tempProven = true
    ∧ ({ State.reset with bot := { State.reset.bot with lcs := some (4, [], []), mchk := some 7 } } : State).bot.lcs = some (4, [], []) := by
  decide +kernel

/-! ### The SD card -/

/-- A part with a card, the interface in a state, and a transfer. -/
def sdCardIn (c : Option SdCard) (state : Nat) (x : Option SdTransfer) (l : List (Fld × Nat) := []) : State :=
  let s := put ([(F.HKP_SDSTAT_STATE, state), ((Reg.HKP_SDCAP).whole, 4096)] ++ l)
  { s with sd := ⟨c, x⟩ }

theorem test_sd_init : after (.sdInitEnd 0) (sdCardIn (some partCard) 1 none) (fun t =>
    (t.rd .HKP_SDPART).toNat * 100000 + (t.rd .HKP_SDPLEN).toNat * 10 + t.get F.HKP_SDSTAT_STATE) = 140002 := by decide +kernel
theorem test_sd_go_past_the_end :
    after .sdGo (sdCardIn (some partCard) 2 none [((Reg.HKP_SDLBA).whole, 4096), (F.HKP_SDADDR_ADDR, 0xE100000000 / 512)])
      (fun t => t.get F.HKP_SDSTAT_RESULT) = 5 := by decide +kernel
theorem test_sd_read : after (.sdTransferEnd 0 0 3) (sdCardIn (some partCard) 2 (some ⟨false, 0, 1, 0xE100000000⟩))
    (fun t => leAt (t.bytes 0xE1000001FE 2) 0 2 * 10 + t.get F.HKP_SDCRC_COUNT) = 0xAA55 * 10 + 3 := by decide +kernel

theorem witness_TheSdCardIsBroughtUpReadAndWritten :
    (sdCardIn none 0 none).memSound = true ∧ (put [(F.HKP_SDSTAT_BUSY, 1)]).on F.HKP_SDSTAT_BUSY = true
    ∧ (sdCardIn (some ⟨8, true, false, []⟩) 1 none).get F.HKP_SDSTAT_STATE = 1
    ∧ cardPartition partCard = some (1, 4000) ∧ cardPartition blankCard = none ∧ partCard.sdsc = false
    ∧ (let s := sdCardIn (some partCard) 2 none [((Reg.HKP_SDLBA).whole, 4095), (F.HKP_SDADDR_ADDR, 0xE100000000 / 512)]
      s.get F.HKP_SDSTAT_STATE = 2 ∧ (s.rd .HKP_SDLBA).toNat + max 1 (s.get F.HKP_SDCNT_SECTORS) ≤ (s.rd .HKP_SDCAP).toNat
      ∧ s.inMemory (s.get F.HKP_SDADDR_ADDR * 512) 512 = true ∧ s.memHeld (s.get F.HKP_SDADDR_ADDR * 512) 512 = false) := by
  decide +kernel
theorem witness_TheSdCardIsBroughtUpReadAndWritten_ends :
    (∀ w ∈ [false, true], (sdCardIn (some partCard) 2 (some ⟨w, 1, 2, 0xE100000000⟩)).sd.transfer = some ⟨w, 1, 2, 0xE100000000⟩)
    ∧ Memory.wf partCard.data = true ∧ State.reset.poison = [] ∧ State.reset.soft = []
    ∧ (sdCardIn none 2 none).inMemory 0xE100000000 1024 = true ∧ (sdCardIn none 2 none).inMemory 0 512 = false := by
  decide +kernel

theorem witness_TheSdCardIsBroughtUpReadAndWritten_channels : ∀ ch, State.reset.chFailed ch = false := fun _ => rfl

/-! ### The journal, the trims and the test slices -/

/-- A part with test slices in hand. -/
def slicing (r : SliceRun) (s : State := State.reset) : State := { s with asr := { s.asr with slice := some r } }

/-- A part with writes of the journal in hand. -/
def journalWriting (l : List NvjJob) (s : State := State.reset) : State := { s with asr := { s.asr with jobs := l } }

/-- A page of the floors, once and once repeated, with another behind it. -/
def aPage : List Byte := List.replicate 32 0x5A
def floorsJob (again : Bool) : NvjJob := ⟨.floors, [(3, aPage), (4, aPage)], again⟩

theorem test_refill_saturates : after .nvjCreditRefill (put [(F.ASR_NVGUARD_BURST, 4), (F.ASR_NVSTAT_CREDITS, 9)])
    (fun t => t.get F.ASR_NVSTAT_CREDITS) = 9 := by decide +kernel
theorem test_trim_reaches_the_tap :
    after (.trimSafePoint 4) (put [((Reg.ASR_TRIMF 16).whole, 0x44332211), (F.ASR_TRIMSTAT_PEND, 16)])
      (fun t => (t.asr.taps.getD 66 0).toNat * 10 + t.get F.ASR_TRIMSTAT_PEND) = 0x330 / 16 * 10 := by decide +kernel
theorem test_slice_request_clips : after (.sliceRequest (200 + 100 * 1024)) State.reset (fun t =>
    (t.asr.slice.map (·.left)).getD 0) = 48 := by decide +kernel
theorem test_page_goes_to_a_spare : after (.nvjWriteComplete false) (journalWriting [floorsJob false]) (fun t =>
    t.nvj.phys 3 * 10 + t.get F.ASR_NVSTAT_SPARES) = 1201 := by decide +kernel

theorem witness_TheJournalTrimsAndTestSlicesGoOn :
    State.reset.get F.ASR_TRIMSTAT_PEND = 0 ∧ (put [(F.ASR_TRIMSTAT_PEND, 1)]).get F.ASR_TRIMSTAT_PEND = 1
    ∧ (∀ n < 5, (onCore 0 id (put [(F.ASR_TRIMSTAT_PEND, 1), (F.HRC_STAT_STATE 0, 0)])).coreState n ≠ 1)
    ∧ (put [(F.ASR_TRIMSTAT_PEND, 1)]).coreState 0 = 1
    ∧ (∃ j ∈ (journalWriting [⟨.trims 1 1, [], false⟩]).asr.jobs, j.owner = .calibration ∨ ∃ a b, j.owner = .trims a b)
    ∧ State.reset.get F.BOT_LCS_STATE = 0 ∧ (proven 6 2 []).get F.BOT_LCS_STATE = 2 ∧ (proven 6 2 []).asr.jobs = []
    ∧ (proven 6 2 []).on F.TIM_STAT_VALID = true ∧ (put [(F.TIM_STAT_VALID, 0)] (proven 6 2 [])).on F.TIM_STAT_VALID = false
    ∧ (proven 6 2 []).nvCheck 9 = 0 ∧ (put [(F.ASR_NVSTAT_CREDITS, 8)] (proven 6 2 [])).nvCheck 9 = 1
    ∧ (put [(F.BOT_LCS_STATE, 3), (F.TIM_STAT_VALID, 1)]).nvCheck 9 = 2 := by
  refine ⟨by decide +kernel, by decide +kernel, by decide +kernel, by decide +kernel,
    ⟨⟨.trims 1 1, [], false⟩, List.mem_cons_self, .inr ⟨1, 1, rfl⟩⟩, ?_⟩
  decide +kernel
theorem witness_TheJournalTrimsAndTestSlicesGoOn_slices :
    (slicing ⟨0, 0, 3, 0, none⟩).testAllowed 0 = true ∧ (slicing ⟨0, 0, 3, 0, none⟩).asr.slice = some ⟨0, 0, 3, 0, none⟩
    ∧ (slicing ⟨2, 247, 1, 0, some 0⟩).asr.slice = some ⟨2, 247, 1, 0, some 0⟩
    ∧ (put [(F.BOT_LCS_STATE, 2)]).get F.BOT_LCS_STATE = 2 ∧ (put [(F.BOT_STAT_STAGE, 7)]).get F.BOT_STAT_STAGE = 7
    ∧ min (max 1 (getBits (0 : Word) 10 10)) (248 - getBits (0 : Word) 0 10) = 1
    ∧ min (max 1 (getBits (248 : Word) 10 10)) (248 - getBits (248 : Word) 0 10) = 0
    ∧ 0 + State.reset.unitBound + 100 ≤ (put [(F.BOT_DUSKCFG_BUDGET, 1)]).get F.BOT_DUSKCFG_BUDGET * 1000
    ∧ (slicing ⟨0, 0, 3, 0, none⟩).sliceIdle 0 = true
    ∧ ({ slicing ⟨0, 228, 3, 0, none⟩ with codec := some (0, 5) } : State).sliceIdle 228 = false
    ∧ tile.isTile = true ∧ State.reset.isTile = false := by decide +kernel
/-- R509: at S = 1.00 the units of a slice fit its BUDGET: of 2 ms seven, and more where they took less than their bound. -/
theorem test_slice_units : (slicing ⟨0, 0, 20, 0, some 0⟩).sliceUnits 16 1 = 7 ∧ (slicing ⟨0, 0, 20, 0, some 0⟩).sliceUnits 16 9 = 9
    ∧ (put [(F.ASR_SLICECFG_BUDGET, 0)]).sliceUnits 16 0 = 1 := by decide +kernel
theorem witness_TheJournalTrimsAndTestSlicesGoOn_pages :
    (∀ b ∈ [false, true], (journalWriting [floorsJob b]).asr.jobs = [floorsJob b]) ∧ aPage.length = 32
    ∧ Memory.wf State.reset.nvj.data = true ∧ State.reset.nvFailed 3 = false
    ∧ (State.reset.get F.ASR_NVSTAT_SPARES).testBit 0 = false ∧ (0 : Nat) < 8 ∧ (∀ k < 0, (State.reset.get F.ASR_NVSTAT_SPARES).testBit k = true)
    ∧ (127 : Nat).testBit 7 = false ∧ (∀ k < 7, (127 : Nat).testBit k = true)
    ∧ (put [(F.ASR_NVSTAT_SPARES, 255)] (journalWriting [floorsJob false])).get F.ASR_NVSTAT_SPARES = 255
    ∧ (journalWriting [⟨.cut, [], false⟩]).asr.jobs = [⟨.cut, [], false⟩] := by decide +kernel

/-! ### Spares -/

/-- A part with one substitution armed. -/
def spareArmed (c i : Nat) (l : List (Fld × Nat) := []) : State :=
  let s := put l
  { s with asr := { s.asr with armed := [(c, i)] } }

theorem test_lane_spare : after .compositorLaneSubstitution (spareArmed 4 7 [(F.CMP_STAT_STATE, 0)]) (fun t =>
    getBits (t.rd .CMP_LANEMAP) 28 4) = 8 := by decide +kernel
theorem test_cell_spare : after (.lpdCellSubstitution 127) (spareArmed 2 127 [(F.LMP_PSTAT_ARMED 127, 1)]) (fun t =>
    t.get (F.LMP_PSTAT_SPARECELL 127) * 1000 + t.asr.map.cells.getD 0 0) = 1127 := by decide +kernel

theorem witness_ArmedSparesTakeOverAndAreRecorded :
    State.reset.on (F.LMP_PSTAT_ARMED 127) = false ∧ (spareArmed 2 0 [(F.LMP_PSTAT_ARMED 0, 1)]).on (F.LMP_PSTAT_ARMED 0) = true
    ∧ State.reset.asr.map.cells.length < 4 ∧ State.reset.asr.map.rows.length < 3
    ∧ (spareArmed 4 7).armedIn 4 = some 7 ∧ (spareArmed 5 0).armedIn 5 = some 0 ∧ State.reset.armedIn 4 = none
    ∧ (spareArmed 4 7).get F.CMP_STAT_STATE ≠ 1 ∧ (put [(F.CMP_STAT_STATE, 1)] (spareArmed 5 0)).get F.CMP_STAT_STATE = 1
    ∧ (7, (7 * 2 ^ 19 : BitVec 23).toNat) ∈ (spareArmed 7 (7 * 2 ^ 19)).asr.armed ∧ sramOf (7 * 2 ^ 19 : BitVec 23).toNat = 7
    ∧ (spareArmed 7 (7 * 2 ^ 19)).cmp.frames = [] ∧ (put [] (proven 6 2 [])).tempProven = true ∧ State.reset.tempProven = false := by
  decide +kernel
theorem witness_ArmedSparesTakeOverAndAreRecorded_full :
    (let s := spareArmed 7 5; ({ s with asr := { s.asr with map := { s.asr.map with cells := [0, 1, 2, 3], rows := [1, 2, 3] } } } : State)).asr.map.rows.length
      = 3 := by decide +kernel

/-! ### The test access port -/

theorem test_idcode : after .idcode State.reset (fun t => match t.sent with
    | [.tdo l] => l.foldr (fun b n => b2n b + 2 * n) 0
    | _ => 0) = 0x29128367 := by decide +kernel
theorem test_bypass_delays : (match exec (.bypass [true, false, true]) State.reset with
    | .next t => t.sent == [.tdo [false, true, false]]
    | _ => false) = true := by decide +kernel
theorem witness_TheTestAccessPortDrivesTheBalls :
    (∀ lc ∈ [0, 1, 3], (put [(F.BOT_LCS_STATE, lc)]).get F.BOT_LCS_STATE = lc)
    ∧ (∀ lc ∈ [2, 4], (put [(F.BOT_LCS_STATE, lc)]).get F.BOT_LCS_STATE = lc) := by decide +kernel

/-! ### The machine -/

/-- A queue of two commands. -/
def queue : State := { State.reset with pending := [.idcode, .dusk] }

theorem test_step_takes_the_front : (match step queue with
    | .next t => t.pending == [Instr.dusk] && t.tap.instr == .idcode
    | _ => false) = true := by decide +kernel
theorem test_unknown_opcode_must_be_unlisted : (match exec (.qspiUnknownCommand 0x05) State.reset with
    | .fault _ => true
    | _ => false) = true := by decide +kernel

theorem witness_TheFrontCommandIsExecutedNext : queue.pending = Instr.idcode :: [Instr.dusk] ∧ State.reset.pending = [] := by
  decide +kernel
theorem witness_CommandsCompleteAndLeaveTheQueue : queue.queueSound = true ∧ queue.pending ≠ []
    ∧ Instr.wellFormed (.hostWrite .qspi 0 false 0 [1]) = true := by decide +kernel
theorem witness_StepsKeepTheMemoriesCanonical : queue.memSound = true ∧ ∃ t, step queue = .next t ∧ t.memSound = true :=
  ⟨by decide +kernel, { State.reset with
    pending := [.dusk]
    tap := ⟨.idcode, State.reset.tap.cells, .functions⟩
    sent := [.tdo ((List.range 32).map fun i => (0x29128367 : Nat).testBit i)] }, rfl, by decide +kernel⟩

end Sys2Proof.Tests
end

section
/-! PROOFS. The instructions of the Hour cores: how the end of an instruction answers, and the arithmetic and logic
instructions of Table 3.3. -/

namespace Sys2Proof.Machine

/-! ### What an instruction of a running core answers, by the way it ends -/

/-- A command that runs an instruction on core `n` answers the end of that instruction. -/
theorem answers_runInstr {s : State} {n : Fin 5} {i : Instr} {body : Core → Ends} {e : Ends} {P : State → Prop}
    (h : s.runs n) (hi : exec i s = .next (s.runInstr n body)) (he : body (s.core n) = e) (hP : P (s.finish n e)) :
    Answers i s P :=
  ⟨_, hi, by rw [State.runInstr_running s n body h, he]; exact hP⟩

theorem answers_result {s : State} {n : Fin 5} {i : Instr} {body : Core → Ends} {gd : BitVec 5} {v : Word}
    (h : s.runs n) (hi : exec i s = .next (s.runInstr n body)) (he : body (s.core n) = resultIn s n gd v) :
    Answers i s (CoreWrites n (oneReg gd v) s) :=
  answers_runInstr h hi he (State.finish_result s n gd v h)

theorem answers_trap {s : State} {n : Fin 5} {i : Instr} {body : Core → Ends} {code detail : Nat}
    (h : s.runs n) (hi : exec i s = .next (s.runInstr n body)) (he : body (s.core n) = .trap code detail)
    (hc : code < 256) : Answers i s (TrapTaken n code detail s) :=
  answers_runInstr h hi he (State.finish_trap s n code detail h hc)

/-! ### The results of Table 3.3 -/

theorem AluOp.apply_slt (a b : Word) : AluOp.slt.apply a b = if a.toInt < b.toInt then 1 else 0 := by
  simp [AluOp.apply, BitVec.slt_iff_toInt_lt]

theorem AluOp.apply_sltu (a b : Word) : AluOp.sltu.apply a b = if a.toNat < b.toNat then 1 else 0 := by
  simp [AluOp.apply, BitVec.ult]

theorem AluOp.apply_min (a b : Word) : AluOp.min.apply a b = if a.toInt < b.toInt then a else b := by
  simp [AluOp.apply, BitVec.slt_iff_toInt_lt]

theorem AluOp.apply_max (a b : Word) : AluOp.max.apply a b = if a.toInt < b.toInt then b else a := by
  simp [AluOp.apply, BitVec.slt_iff_toInt_lt]

/-- Bits [63:32] of an integer are its quotient by 2^32, rounded towards minus infinity. -/
theorem extractLsb'_ofInt_high (x : Int) :
    (BitVec.ofInt 64 x).extractLsb' 32 32 = BitVec.ofInt 32 (x / 4294967296) := by
  apply BitVec.eq_of_toNat_eq
  simp only [BitVec.extractLsb'_toNat, BitVec.toNat_ofInt, Nat.shiftRight_eq_div_pow]
  omega

theorem AluOp.apply_mulh (a b : Word) :
    AluOp.mulh.apply a b = (a.signExtend 64 * b.signExtend 64).extractLsb' 32 32 := by
  rw [BitVec.signExtend, BitVec.signExtend, ← BitVec.ofInt_mul, extractLsb'_ofInt_high]
  rfl

/-- R55: SLTI compares with the immediate's own signed value. -/
theorem AluOp.apply_slt_signExtend (a : Word) (imm : BitVec 16) :
    AluOp.slt.apply a (imm.signExtend 32) = if a.toInt < imm.toInt then 1 else 0 := by
  rw [AluOp.apply_slt, BitVec.toInt_signExtend_of_le (by decide)]

/-- R55: a five-bit amount is within the low five bits that a shift takes. -/
theorem toNat_setWidth_amount_mod (amount : BitVec 5) : (amount.setWidth 32).toNat % 32 = amount.toNat := by
  rw [BitVec.toNat_setWidth]
  omega

theorem AluOp.apply_shl_amount (a : Word) (amount : BitVec 5) :
    AluOp.shl.apply a (amount.setWidth 32) = a <<< amount.toNat := by
  rw [AluOp.apply, toNat_setWidth_amount_mod]

theorem AluOp.apply_shr_amount (a : Word) (amount : BitVec 5) :
    AluOp.shr.apply a (amount.setWidth 32) = a >>> amount.toNat := by
  rw [AluOp.apply, toNat_setWidth_amount_mod]

theorem AluOp.apply_sra_amount (a : Word) (amount : BitVec 5) :
    AluOp.sra.apply a (amount.setWidth 32) = a.sshiftRight amount.toNat := by
  rw [AluOp.apply, toNat_setWidth_amount_mod]

/-- R55: the immediate of LUI is the upper half of the word. -/
theorem shiftLeft_setWidth_upper (imm : BitVec 16) :
    imm.setWidth 32 <<< 16 = BitVec.ofNat 32 (imm.toNat * 65536) := by
  apply BitVec.eq_of_toNat_eq
  rw [BitVec.toNat_shiftLeft, BitVec.toNat_setWidth, BitVec.toNat_ofNat, Nat.shiftLeft_eq]
  omega

/-! ### Divisions (R56) -/

theorem signedQuotient_mostNegative : signedQuotient 0x80000000 0xFFFFFFFF = 0x80000000 := by decide

theorem signedRemainder_mostNegative : signedRemainder 0x80000000 0xFFFFFFFF = 0 := by decide

/-- A command that divides by a divisor other than zero. -/
theorem answers_divide {s : State} {n : Fin 5} {i : Instr} {f : Word → Word → Word} {gd ga gb : BitVec 5} {v : Word}
    (h : s.runs n) (hi : exec i s = .next (divide f n gd ga gb s)) (hb : (s.core n).rg gb ≠ 0)
    (hv : f ((s.core n).rg ga) ((s.core n).rg gb) = v) : Answers i s (CoreWrites n (oneReg gd v) s) :=
  answers_result h hi (by rw [if_neg hb, hv])

/-- A command that divides by zero. -/
theorem answers_divide_zero {s : State} {n : Fin 5} {i : Instr} {f : Word → Word → Word} {gd ga gb : BitVec 5}
    (h : s.runs n) (hi : exec i s = .next (divide f n gd ga gb s)) (hb : (s.core n).rg gb = 0) :
    Answers i s (TrapTaken n 6 0 s) :=
  answers_trap h hi (if_pos hb) (by decide)

/-- Settles O1: each instruction ends with its result of Table 3.3 (`AluOp.apply`), each division with its quotient,
its remainder or the DIVIDE trap. -/
theorem arithmeticInstructionsWriteTheirResults : Obligations.ArithmeticInstructionsWriteTheirResults := by
  refine ⟨fun s n gd ga gb imm amount h => ?_, fun s n gd ga gb h => ⟨fun hb => ?_, fun ha hb => ?_, fun hb => ?_⟩⟩
  · have result {v w : Word} (hv : v = w) : resultIn s n gd v = resultIn s n gd w := congrArg _ hv
    exact ⟨answers_result h rfl rfl, answers_result h rfl rfl, answers_result h rfl rfl, answers_result h rfl rfl,
      answers_result h rfl rfl, answers_result h rfl rfl, answers_result h rfl rfl, answers_result h rfl rfl,
      answers_result h rfl (result (AluOp.apply_slt _ _)),
      answers_result h rfl (result (AluOp.apply_sltu _ _)),
      answers_result h rfl (result (AluOp.apply_min _ _)),
      answers_result h rfl (result (AluOp.apply_max _ _)),
      answers_result h rfl rfl,
      answers_result h rfl (result (AluOp.apply_mulh _ _)),
      answers_result h rfl rfl, answers_result h rfl rfl, answers_result h rfl rfl, answers_result h rfl rfl,
      answers_result h rfl (result (AluOp.apply_slt_signExtend _ _)),
      answers_result h rfl (result (AluOp.apply_shl_amount _ _)),
      answers_result h rfl (result (AluOp.apply_shr_amount _ _)),
      answers_result h rfl (result (AluOp.apply_sra_amount _ _)),
      answers_result h rfl (result (shiftLeft_setWidth_upper _))⟩
  · exact ⟨answers_divide h rfl hb rfl, answers_divide h rfl hb rfl, answers_divide h rfl hb rfl⟩
  · have hb0 : (s.core n).rg gb ≠ 0 := by rw [hb]; decide
    exact ⟨answers_divide h rfl hb0 (by rw [ha, hb, signedQuotient_mostNegative]),
      answers_divide h rfl hb0 (by rw [ha, hb, signedRemainder_mostNegative])⟩
  · exact ⟨answers_divide_zero h rfl hb, answers_divide_zero h rfl hb, answers_divide_zero h rfl hb⟩

end Sys2Proof.Machine
end

section
/-! PROOFS. How Hour cores wait for events and for wall time (R76 to R79): the event that AWAIT returns, the target of
WAITT, the quad of TIME, and what it is for a core to begin and to end a wait. -/

namespace Sys2Proof.Machine

/-! ### The lowest pending event -/

theorem State.isPending_of_word_zero {s : State} {j i : Nat} (h : s.rd (.EVT_PEND j) = 0) (hi : i < 32) :
    s.isPending (32 * j + i) = false := by
  have hj : (32 * j + i) / 32 = j := by omega
  rw [State.isPending_eq, hj, h]
  simp

/-- The search of one word of pending events; that it passes over a word of 0 changes nothing. -/
theorem State.lowestIn_eq_find (s : State) (p : Nat → Bool) (j : Nat) :
    s.lowestIn p j = ((List.range 32).map (32 * j + ·)).find? fun k => s.isPending k && p k := by
  unfold State.lowestIn
  split
  · next h =>
    refine (List.find?_eq_none.2 fun k hk => ?_).symm
    obtain ⟨i, hi, rfl⟩ := List.mem_map.1 hk
    simp [State.isPending_of_word_zero h (List.mem_range.1 hi)]
  · rw [← List.findSome?_guard, List.findSome?_map]
    refine congrArg (List.findSome? · _) (funext fun i => ?_)
    simp [Option.guard]

/-- The sixteen words of 32 events are searched as one list of 512. -/
theorem State.lowestPending_eq_find (s : State) (p : Nat → Bool) :
    s.lowestPending p = (List.range 512).find? fun k => s.isPending k && p k := by
  have hr : List.range 512 = ((List.range 16).map fun j => (List.range 32).map (32 * j + ·)).flatten := by
    decide +kernel
  rw [hr, List.find?_flatten, List.findSome?_map]
  exact congrArg (List.findSome? · _) (funext (s.lowestIn_eq_find p))

/-- R76, R111: event `k` is pending, routed to core `n` and admitted by its EVMASK. -/
def State.Admits (s : State) (n : Fin 5) (k : Nat) : Prop :=
  k < 512 ∧ s.isPending k = true ∧ s.route k = n.val ∧ (s.core n).evmask.getLsbD (k / 32) = true

theorem State.admitted_eq_find (s : State) (n : Fin 5) :
    s.admitted n = (List.range 512).find? fun k =>
      s.isPending k && (s.route k == n.val && (s.core n).evmask.getLsbD (k / 32)) :=
  s.lowestPending_eq_find _

theorem State.admitted_eq_some {s : State} {n : Fin 5} {k : Nat} (hk : s.Admits n k)
    (hlow : ∀ j, j < k → ¬ s.Admits n j) : s.admitted n = some k := by
  obtain ⟨hlt, hpend, hroute, hmask⟩ := hk
  rw [State.admitted_eq_find, List.find?_range_eq_some]
  refine ⟨by simp [hpend, hroute, hmask], List.mem_range.2 hlt, fun j hj => ?_⟩
  rw [Bool.not_eq_true', Bool.eq_false_iff]
  simpa [State.Admits, Nat.lt_trans hj hlt] using hlow j hj

theorem State.admitted_eq_none {s : State} {n : Fin 5} (h : ∀ k, ¬ s.Admits n k) : s.admitted n = none := by
  rw [State.admitted_eq_find, List.find?_range_eq_none]
  intro k hk
  rw [Bool.not_eq_true', Bool.eq_false_iff]
  simpa [State.Admits, hk] using h k

/-! ### Waits begin and end -/

theorem State.get_set_coreState (s : State) (n : Fin 5) (v : Nat) (hv : v < 4) :
    (s.set (F.HRC_STAT_STATE n) v).get (F.HRC_STAT_STATE n) = v := by
  rw [State.get_set_self _ _ _ (by simp [F.HRC_STAT_STATE])]
  exact Nat.mod_eq_of_lt hv

/-- A core replaced with its running state set: the frame of the start and the end of a wait. -/
theorem State.setCore_set_coreState_changes (s : State) (n : Fin 5) (c : Core) (v : Nat) :
    Changes [F.HRC_STAT_STATE n] [] (s.setCore n c) ((s.setCore n c).set (F.HRC_STAT_STATE n) v) :=
  State.set_changes _ _ _ (by simp [F.HRC_STAT_STATE]) (by simp [F.HRC_STAT_STATE])

theorem State.core_setCore_set_self (s : State) (n : Fin 5) (c : Core) (f : Fld) (v : Nat) :
    ((s.setCore n c).set f v).core n = c := by
  rw [State.core_congr (State.set_cores _ _ _), State.core_setCore_self]

theorem State.core_setCore_set_ne (s : State) (n m : Fin 5) (c : Core) (f : Fld) (v : Nat) (h : m ≠ n) :
    ((s.setCore n c).set f v).core m = s.core m := by
  rw [State.core_congr (State.set_cores _ _ _), State.core_setCore_ne _ _ _ _ h]

/-- R95: a core that is not halted, and of which no halt is asked, stays as its instruction left it. -/
theorem State.settle_unasked (s : State) (n : Fin 5) (h : s.coreState n ≠ 0) (hq : (s.core n).haltReq = false) :
    s.settle n = s := by
  simp [State.settle, coreHalted, h, hq]

/-- An instruction that waits: its core keeps the wait. -/
theorem State.finish_waits (s : State) (n : Fin 5) (w : Wait) (h : s.runs n) :
    CoreWaits n w s (s.finish n (.waits s w)) := by
  obtain ⟨-, -, hq⟩ := h
  have hst := (s.setCore n { s.core n with wait := some w }).get_set_coreState n 2 (by decide)
  have hc := s.core_setCore_set_self n { s.core n with wait := some w } (F.HRC_STAT_STATE n) 2
  have hfin : s.finish n (.waits s w) = (s.setCore n { s.core n with wait := some w }).set (F.HRC_STAT_STATE n) 2 :=
    State.settle_unasked _ n (fun h0 => absurd (hst.symm.trans h0) (by decide)) ((congrArg Core.haltReq hc).trans hq)
  rw [hfin]
  exact ⟨s.setCore_set_coreState_changes n _ 2, hst, fun m hm => s.core_setCore_set_ne n m _ _ _ hm, hc⟩

theorem answers_waits {s : State} {n : Fin 5} {i : Instr} {body : Core → Ends} {w : Wait}
    (h : s.runs n) (hi : exec i s = .next (s.runInstr n body)) (he : body (s.core n) = .waits s w) :
    Answers i s (CoreWaits n w s) :=
  answers_runInstr h hi he (State.finish_waits s n w h)

/-- The core that goes on after its wait. -/
def Core.woken (c : Core) (gd : BitVec 5) (v : Word) : Core :=
  { c.wg gd v with wait := none, pc := c.pc + 4, instret := c.instret + 1 }

theorem State.wake_eq (s : State) (n : Fin 5) (gd : BitVec 5) (v : Word) (hq : (s.core n).haltReq = false) :
    s.wake n gd v = (s.setCore n ((s.core n).woken gd v)).set (F.HRC_STAT_STATE n) 1 := by
  have hre : s.wake n gd v = ((s.setCore n ((s.core n).woken gd v)).set (F.HRC_STAT_STATE n) 1).settle n := by
    have hset (u : State) (c : Core) : (u.set (F.HRC_STAT_STATE n) 1).setCore n c =
        (u.setCore n c).set (F.HRC_STAT_STATE n) 1 := rfl
    simp only [State.wake, State.retire, coreRunning, hset, State.core_setCore_set_self, State.setCore_setCore,
      Core.wg_instret, Core.woken]
  rw [hre]
  refine State.settle_running _ _ (State.get_set_coreState _ _ _ (by decide)) ?_
  rw [State.core_setCore_set_self]
  simpa [Core.woken] using hq

/-- A waiting core of which no halt is asked resumes with its result. -/
theorem State.wake_wakes (s : State) (n : Fin 5) (gd : BitVec 5) (v : Word) (hq : (s.core n).haltReq = false) :
    CoreWakes n gd v s (s.wake n gd v) := by
  rw [State.wake_eq s n gd v hq]
  refine ⟨s.setCore_set_coreState_changes n _ 1, State.get_set_coreState _ _ _ (by decide),
    fun m hm => s.core_setCore_set_ne n m _ _ _ hm, ?_, fun r => ?_⟩
  · rw [State.core_setCore_set_self, Core.woken, Core.wg_rest]
  · rw [State.core_setCore_set_self]
    exact Core.rg_wg _ _ _ _

/-! ### Instructions that write general registers, or make an event pending -/

/-- An instruction whose only effect is on its general registers. -/
theorem State.finish_registers (s : State) (n : Fin 5) (c : Core) (v : BitVec 5 → Option Word) (h : s.runs n)
    (hc : c = { s.core n with g := c.g })
    (hv : ∀ r, c.rg r = if r = 0 then 0 else (v r).getD ((s.core n).rg r)) :
    CoreWrites n v s (s.finish n (.next (s.setCore n c))) := by
  obtain ⟨hrun, -, hq⟩ := h
  have hcq : ((s.setCore n c).core n).haltReq = false := by rw [State.core_setCore_self, hc]; exact hq
  rw [State.finish_next s (s.setCore n c) n hrun hcq]
  refine ⟨rfl, fun m hm => ?_, ?_, fun r => ?_⟩
  · rw [State.core_setCore_ne _ _ _ _ hm, State.core_setCore_ne _ _ _ _ hm]
  · simp only [State.core_setCore_self]
    rw [hc]
  · simp only [State.core_setCore_self]
    exact hv r

theorem State.raise_with_cores (s : State) (k : Nat) (cs : Vector Core 5) :
    { s.raise k with cores := cs } = ({ s with cores := cs } : State).raise k := by
  have hlive : ({ s with cores := cs } : State).eventLive k = s.eventLive k := rfl
  unfold State.raise
  rw [hlive]
  split <;> rfl

/-- An event that becomes pending takes no core out of its run. -/
theorem State.runs_raise {s : State} {n : Fin 5} (h : s.runs n) (k : Nat) : (s.raise k).runs n := by
  obtain ⟨hrun, hlive, hq⟩ := h
  have hget (f : Fld) (hf : ∀ j, f.reg ≠ .EVT_PEND j) := s.get_raise k f hf
  refine ⟨(hget _ (by simp [F.HRC_STAT_STATE])).trans hrun, ?_, ?_⟩
  · rw [← hlive]
    simp [State.coresLive, State.on, hget F.BOT_STAT_STAGE (by simp [F.BOT_STAT_STAGE]),
      hget F.BOT_DUSKSTAT_DONE (by simp [F.BOT_DUSKSTAT_DONE])]
  · rw [State.core_congr (s.raise_cores k)]
    exact hq

/-- The end of an instruction that makes an event pending: beside its core, only that event differs. -/
theorem State.finish_raise (s : State) (n : Fin 5) (k : Nat) (h : s.runs n) :
    let t := s.finish n (.next (s.raise k))
    CoreWrites n noReg { s with regs := t.regs } t ∧ Changes [] [k] { s with cores := t.cores } t := by
  intro t
  have hk := State.runs_raise h k
  have hw : CoreWrites n noReg (s.raise k) t := State.finish_plain (s.raise k) n hk
  have hregs : t.regs = (s.raise k).regs := by rw [hw.rest]
  refine ⟨?_, ?_⟩
  · rw [hregs, ← (s.raise_changes k).rest]
    exact hw
  · have hc := ({ s with cores := t.cores } : State).raise_changes k
    rwa [← State.raise_with_cores, ← hw.rest] at hc

/-! ### Wall time -/

theorem isQuad_iff (r : BitVec 5) : isQuad r = true ↔ r.toNat % 4 = 0 ∧ r ≠ 0 := by
  simp [isQuad]

/-- R79: the seconds of a target are below 2^63, its nanoseconds and its fraction in range. -/
def Core.TargetInRange (c : Core) (q : BitVec 5) : Prop :=
  (c.rg q).toNat < 2 ^ 31 ∧ (c.rg (q + 2)).toNat < 1000000000 ∧ (c.rg (q + 3)).toNat < 65536

/-- The instant that quad `q` names, in 1/65,536 ns. -/
def Core.instant (c : Core) (q : BitVec 5) : Nat :=
  wuOf ((c.rg q).toNat * 2 ^ 32 + (c.rg (q + 1)).toNat) (c.rg (q + 2)).toNat (c.rg (q + 3)).toNat

theorem getLsbD_31_eq_true_iff (w : Word) : w.getLsbD 31 = true ↔ 2 ^ 31 ≤ w.toNat := by
  have := w.isLt
  rw [BitVec.getLsbD, Nat.testBit_eq_decide_div_mod_eq, decide_eq_true_iff]
  omega

theorem Core.target_of_inRange {c : Core} {q : BitVec 5} (h : c.TargetInRange q) : c.target q = some (c.instant q) := by
  obtain ⟨hhi, hns, hfr⟩ := h
  have hbit : (c.rg q).getLsbD 31 = false := by
    rw [Bool.eq_false_iff, ne_eq, getLsbD_31_eq_true_iff]
    omega
  simp only [Core.target, hbit]
  exact if_neg (by simp only [Bool.false_or, Bool.or_eq_true, decide_eq_true_eq]; omega)

theorem Core.target_of_outOfRange {c : Core} {q : BitVec 5} (h : ¬ c.TargetInRange q) : c.target q = none := by
  have hor : (c.rg q).getLsbD 31 = true ∨ 1000000000 ≤ (c.rg (q + 2)).toNat ∨ 65536 ≤ (c.rg (q + 3)).toNat := by
    rw [getLsbD_31_eq_true_iff]
    simp only [Core.TargetInRange] at h
    omega
  rw [Core.target, if_pos (by simpa [or_assoc] using hor)]

/-- R53, R78: the words that a wall time `t` gives to the registers of quad `q`. -/
def timeWords (q : BitVec 5) (t : Nat) (valid : Bool) : BitVec 5 → Option Word := fun r =>
  if r = q then some (BitVec.ofNat 32 (t / 65536 / 1000000000 / 2 ^ 32) ||| (if valid then 0 else 0x80000000))
  else if r = q + 1 then some (BitVec.ofNat 32 (t / 65536 / 1000000000))
  else if r = q + 2 then some (BitVec.ofNat 32 (t / 65536 % 1000000000))
  else if r = q + 3 then some (BitVec.ofNat 32 (t % 65536))
  else none

theorem Core.setQuad_rest (c : Core) (q : BitVec 5) (t : Nat) (invalid : Bool) :
    c.setQuad q t invalid = { c with g := (c.setQuad q t invalid).g } := by
  unfold Core.setQuad
  rw [Core.wg_rest _ (q + 3), Core.wg_rest _ (q + 2), Core.wg_rest _ (q + 1), Core.wg_rest c q]

theorem wuSec_eq (t : Nat) : wuSec t = t / 65536 / 1000000000 := (Nat.div_div_eq_div_mul t 65536 1000000000).symm

theorem Core.rg_setQuad (c : Core) (q : BitVec 5) (t : Nat) (valid : Bool) (r : BitVec 5) :
    (c.setQuad q t (!valid)).rg r = if r = 0 then 0 else (timeWords q t valid r).getD (c.rg r) := by
  by_cases h0 : r = 0
  · rw [h0]
    rfl
  simp only [Core.setQuad, Core.rg_wg, if_neg h0, timeWords, wuSec_eq, wuNs, wuFrac]
  by_cases hq : r = q
  · cases valid <;> simp [hq]
  by_cases h1 : r = q + 1
  · simp [h1]
  by_cases h2 : r = q + 2
  · simp [h2]
  by_cases h3 : r = q + 3
  · simp [h3]
  · simp only [if_neg hq, if_neg h1, if_neg h2, if_neg h3, Option.getD_none]

/-! ### AWAIT and SIGNAL -/

section
variable {s : State} {n : Fin 5} {gd : BitVec 5} {timeout k : Nat}

theorem await_answers_event (gd ga : BitVec 5) (h : s.runs n) (hk : s.admitted n = some k) :
    Answers (.await n gd ga) s (CoreWrites n (oneReg gd (BitVec.ofNat 32 k)) s) :=
  answers_result h rfl (by simp only [hk])

theorem await_waits (gd ga : BitVec 5) (h : s.runs n) (hk : s.admitted n = none) :
    Answers (.await n gd ga) s (CoreWaits n (.await gd ((s.core n).rg ga).toNat) s) :=
  answers_waits h rfl (by simp only [hk])

theorem exec_awaitWake (n : Fin 5) (b : Bool) (s : State) : exec (.awaitWake n b) s = execAwaitWake n b s := rfl

theorem awaitWake_event (b : Bool) (hst : s.coreState n = 2) (hq : (s.core n).haltReq = false)
    (hw : (s.core n).wait = some (.await gd timeout)) (hk : s.admitted n = some k) :
    Answers (.awaitWake n b) s (CoreWakes n gd (BitVec.ofNat 32 k) s) :=
  ⟨s.wake n gd (BitVec.ofNat 32 k), by simp [exec_awaitWake, execAwaitWake, coreWaiting, hst, hw, hk], s.wake_wakes n gd _ hq⟩

theorem awaitWake_timeout (hst : s.coreState n = 2) (hq : (s.core n).haltReq = false)
    (hw : (s.core n).wait = some (.await gd timeout)) (hk : s.admitted n = none) (ht : timeout ≠ 0) :
    Answers (.awaitWake n true) s (CoreWakes n gd 0xFFFFFFFF s) :=
  ⟨s.wake n gd 0xFFFFFFFF, by simp [exec_awaitWake, execAwaitWake, coreWaiting, hst, hw, hk, ht], s.wake_wakes n gd _ hq⟩

theorem awaitWake_idle (hst : s.coreState n = 2) (hw : (s.core n).wait = some (.await gd timeout))
    (hk : s.admitted n = none) : Answers (.awaitWake n false) s (· = s) :=
  ⟨s, by simp [exec_awaitWake, execAwaitWake, coreWaiting, hst, hw, hk], rfl⟩

theorem signal_raises {ga : BitVec 5} (h : s.runs n) (hle : ((s.core n).rg ga).toNat ≤ 15) :
    Answers (.signal n ga) s fun t => CoreWrites n noReg { s with regs := t.regs } t
      ∧ Changes [] [480 + ((s.core n).rg ga).toNat] { s with cores := t.cores } t :=
  answers_runInstr h rfl (if_neg (Nat.not_lt.2 hle)) (State.finish_raise s n _ h)

end

/-! ### WAITT (R79) -/

section
variable {s : State} {n : Fin 5} {ga : BitVec 5} (gd : BitVec 5) (h : s.runs n) (hquad : isQuad ga = true)
include h hquad

/-- A target out of range traps before VALID is looked at (log entry 70). -/
theorem waitt_outOfRange (hr : ¬ (s.core n).TargetInRange ga) : Answers (.waitt n gd ga) s (TrapTaken n 7 0 s) :=
  answers_trap h rfl (by simp [hquad, Core.target_of_outOfRange hr, trapArgument]) (by decide)

variable (hr : (s.core n).TargetInRange ga)
include hr

theorem waitt_invalid (hv : s.on F.TIM_STAT_VALID = false) :
    Answers (.waitt n gd ga) s (CoreWrites n (oneReg gd 1) s) :=
  answers_result h rfl (by simp [hquad, Core.target_of_inRange hr, hv])

theorem waitt_past (hv : s.on F.TIM_STAT_VALID = true) (hlt : (s.core n).instant ga < s.now) :
    Answers (.waitt n gd ga) s (CoreWrites n (oneReg gd 2) s) :=
  answers_result h rfl (by simp [hquad, Core.target_of_inRange hr, hv, hlt])

theorem waitt_reached (hv : s.on F.TIM_STAT_VALID = true) (heq : (s.core n).instant ga = s.now) :
    Answers (.waitt n gd ga) s (CoreWrites n (oneReg gd 0) s) :=
  answers_result h rfl (by simp [hquad, Core.target_of_inRange hr, hv, heq])

theorem waitt_waits (hv : s.on F.TIM_STAT_VALID = true) (hlt : s.now < (s.core n).instant ga) :
    Answers (.waitt n gd ga) s (CoreWaits n (.waitt gd ga) s) :=
  answers_waits h rfl (by simp [hquad, Core.target_of_inRange hr, hv, Nat.not_lt_of_gt hlt, Nat.ne_of_gt hlt])

end

theorem exec_waittWake (n : Fin 5) (s : State) : exec (.waittWake n) s = execWaittWake n s := rfl

section
variable {s : State} {n : Fin 5} {gd ga : BitVec 5} (hst : s.coreState n = 2)
  (hw : (s.core n).wait = some (.waitt gd ga))
include hst hw

theorem waittWake_invalid (hq : (s.core n).haltReq = false) (hv : s.on F.TIM_STAT_VALID = false) :
    Answers (.waittWake n) s (CoreWakes n gd 1 s) :=
  ⟨s.wake n gd 1, by simp [exec_waittWake, execWaittWake, coreWaiting, hst, hw, hv], s.wake_wakes n gd _ hq⟩

theorem waittWake_reached (hq : (s.core n).haltReq = false) (hr : (s.core n).TargetInRange ga)
    (hv : s.on F.TIM_STAT_VALID = true) (hle : (s.core n).instant ga ≤ s.now) :
    Answers (.waittWake n) s (CoreWakes n gd 0 s) :=
  ⟨s.wake n gd 0, by simp [exec_waittWake, execWaittWake, coreWaiting, hst, hw, hv, Core.target_of_inRange hr, hle],
    s.wake_wakes n gd _ hq⟩

theorem waittWake_early (hr : (s.core n).TargetInRange ga) (hv : s.on F.TIM_STAT_VALID = true)
    (hlt : s.now < (s.core n).instant ga) : Answers (.waittWake n) s (· = s) :=
  ⟨s, by simp [exec_waittWake, execWaittWake, coreWaiting, hst, hw, hv, Core.target_of_inRange hr, Nat.not_le_of_gt hlt], rfl⟩

end

/-! ### TIME and quads -/

theorem time_writes {s : State} {n : Fin 5} {gd : BitVec 5} (h : s.runs n) (hquad : isQuad gd = true) :
    Answers (.time n gd) s (CoreWrites n (timeWords gd s.now (s.on F.TIM_STAT_VALID)) s) :=
  answers_runInstr h rfl (if_neg (by simp [hquad]))
    (State.finish_registers s n _ _ h (Core.setQuad_rest _ _ _ _) (Core.rg_setQuad _ _ _ _))

/-- R53: a register number that names no quad takes the ILLEGAL trap. -/
theorem answers_notQuad {s : State} {n : Fin 5} {i : Instr} {r : BitVec 5} {body : Core → Ends} (h : s.runs n)
    (hi : exec i s = .next (s.runInstr n fun c => if !isQuad r then .trap trapIllegal 0 else body c))
    (hr : ¬ (r.toNat % 4 = 0 ∧ r ≠ 0)) : Answers i s (TrapTaken n 1 0 s) :=
  answers_trap h hi (if_pos (by simpa using mt (isQuad_iff r).1 hr)) (by decide)

/-! ### The statement -/

/-- Settles O9: AWAIT and SIGNAL by the search for the lowest admitted event, WAITT by the place of its target against
the wall time, TIME by the words of its quad; each wake by the end of its wait. -/
theorem coresWaitForEventsAndForTime : Obligations.CoresWaitForEventsAndForTime := by
  refine ⟨fun s n gd ga => ⟨fun h => ⟨?_, ?_, ?_, ?_⟩, ?_⟩, fun s n gd ga => ⟨fun h => ⟨?_, ?_, ?_, ?_, ?_⟩, ?_⟩⟩
  · exact fun k ⟨hk, hlow⟩ => await_answers_event gd ga h (State.admitted_eq_some hk hlow)
  · exact fun hnone => await_waits gd ga h (State.admitted_eq_none hnone)
  · exact signal_raises h
  · exact fun hgt => answers_trap h rfl (if_pos hgt) (by decide)
  · refine fun timeout hst hq hw => ⟨fun k b ⟨hk, hlow⟩ => ?_, fun hnone ht => ?_⟩
    · exact awaitWake_event b hst hq hw (State.admitted_eq_some hk hlow)
    · have hk := State.admitted_eq_none hnone
      exact ⟨awaitWake_timeout hst hq hw hk ht, awaitWake_idle hst hw hk⟩
  · intro hquad hgood
    have hq := (isQuad_iff ga).2 hquad
    exact ⟨waitt_invalid gd h hq hgood, waitt_past gd h hq hgood, waitt_reached gd h hq hgood,
      waitt_waits gd h hq hgood⟩
  · exact fun hquad hbad => waitt_outOfRange gd h ((isQuad_iff ga).2 hquad) hbad
  · exact answers_notQuad h rfl
  · exact fun hquad => time_writes h ((isQuad_iff gd).2 hquad)
  · exact answers_notQuad h rfl
  · exact fun hst hq hw hgood => ⟨waittWake_invalid hst hw hq, waittWake_reached hst hw hq hgood,
      waittWake_early hst hw hgood⟩

end Sys2Proof.Machine
end

section
/-! PROOFS. The refresh values of a lamp (R336, R337): no light is lost from one visit to the next, so over a run of
visits only the residuals at its two ends separate the values shown from the code. -/

namespace Sys2Proof.Machine

/-! ### One visit -/

theorem refreshValue_fst (k code residual : Nat) : (refreshValue k code residual).1
    = min (code / 4 / 2 ^ (18 - k) + (residual + code / 4 % 2 ^ (18 - k)) / 2 ^ (18 - k)) (2 ^ k - 1) := rfl

theorem refreshValue_snd (k code residual : Nat) :
    (refreshValue k code residual).2 = (residual + code / 4 % 2 ^ (18 - k)) % 2 ^ (18 - k) := rfl

theorem refreshValue_residual_lt (k code residual : Nat) : (refreshValue k code residual).2 < 2 ^ (18 - k) :=
  Nat.mod_lt _ (Nat.two_pow_pos _)

/-- R336: before the cut to K bits, a visit divides the residual and the code by 2^s and keeps the remainder. -/
theorem uncutRefresh_conserves (c residual step : Nat) :
    (c / step + (residual + c % step) / step) * step + (residual + c % step) % step = residual + c := by
  have hcode := Nat.div_add_mod' c step
  have hacc := Nat.div_add_mod' (residual + c % step) step
  rw [Nat.add_mul]
  omega

/-- R337: the carry of a residual below 2^s does not take a code past the highest value that planes can show. -/
theorem uncutRefresh_le {c residual step top : Nat} (hr : residual < step) (hc : c ≤ top * step) :
    c / step + (residual + c % step) / step ≤ top := by
  have hkeep := uncutRefresh_conserves c residual step
  refine Nat.le_of_lt_succ (Nat.lt_of_mul_lt_mul_right (a := step) ?_)
  rw [Nat.succ_mul]
  omega

/-- R337: a code that K planes can show is not cut, so a visit's value and the residual it leaves are what came in. -/
theorem refreshValue_conserves {k code residual : Nat} (hr : residual < 2 ^ (18 - k))
    (hc : code / 4 ≤ (2 ^ k - 1) * 2 ^ (18 - k)) :
    (refreshValue k code residual).1 * 2 ^ (18 - k) + (refreshValue k code residual).2 = residual + code / 4 := by
  rw [refreshValue_fst, refreshValue_snd, Nat.min_eq_left (uncutRefresh_le hr hc)]
  exact uncutRefresh_conserves _ _ _

/-- R336: a code above what K planes can show is cut to their highest value, whatever the residual. -/
theorem refreshValue_of_code_above {k code : Nat} (residual : Nat) (hc : (2 ^ k - 1) * 2 ^ (18 - k) < code / 4) :
    (refreshValue k code residual).1 = 2 ^ k - 1 := by
  have htop : 2 ^ k - 1 ≤ code / 4 / 2 ^ (18 - k) := (Nat.le_div_iff_mul_le (Nat.two_pow_pos _)).2 (Nat.le_of_lt hc)
  rw [refreshValue_fst, Nat.min_eq_right (Nat.le_add_right_of_le htop)]

/-! ### A run of visits -/

theorem refreshSum_residual_lt {k : Nat} (code : Nat) {residual : Nat} (visits : Nat) (hr : residual < 2 ^ (18 - k)) :
    (refreshSum k code residual visits).2 < 2 ^ (18 - k) := by
  induction visits generalizing residual with
  | zero => exact hr
  | succ visits ih => exact ih (refreshValue_residual_lt k code residual)

/-- R337: what a run of visits shows and the residual it leaves are the first residual and the visits' codes. -/
theorem refreshSum_conserves {k code residual : Nat} (visits : Nat) (hr : residual < 2 ^ (18 - k))
    (hc : code / 4 ≤ (2 ^ k - 1) * 2 ^ (18 - k)) :
    (refreshSum k code residual visits).1 * 2 ^ (18 - k) + (refreshSum k code residual visits).2
      = residual + visits * (code / 4) := by
  induction visits generalizing residual with
  | zero => simp [refreshSum]
  | succ visits ih =>
    have hvisit := refreshValue_conserves hr hc
    have hrest := ih (refreshValue_residual_lt k code residual)
    simp only [refreshSum, Nat.add_mul, Nat.one_mul]
    omega

theorem refreshSum_of_code_above {k code : Nat} (residual visits : Nat)
    (hc : (2 ^ k - 1) * 2 ^ (18 - k) < code / 4) :
    (refreshSum k code residual visits).1 = visits * (2 ^ k - 1) := by
  induction visits generalizing residual with
  | zero => simp [refreshSum]
  | succ visits ih => rw [refreshSum, ih, refreshValue_of_code_above residual hc, Nat.succ_mul, Nat.add_comm]

/-- Settles O40: a run of visits keeps the light that comes in, and its first and last residuals are both below 2^s, so
the values shown and the visits' codes differ by less than one value; a larger code is cut at every visit. -/
theorem refreshValuesAverageTheLampCode : Obligations.RefreshValuesAverageTheLampCode := by
  intro k code residual visits _ _ hr step total
  have hlast : (refreshSum k code residual visits).2 < step := refreshSum_residual_lt code visits hr
  refine ⟨fun hc => ?_, refreshSum_of_code_above residual visits, hlast⟩
  have hkeep : total * step + (refreshSum k code residual visits).2 = residual + visits * (code / 4) :=
    refreshSum_conserves visits hr hc
  have hfirst : residual < step := hr
  exact ⟨by omega, by omega⟩

end Sys2Proof.Machine
end
